-- ==== Sys2Proof/Word.lean ====
section
/-! DEFINITION.  The word types of the Laniha Z9 (R11) and their plainest arithmetic. -/

namespace Sys2Proof

/-- A byte: 8 bits (R11). -/
abbrev Byte := BitVec 8
/-- A half: 16 bits (R11). -/
abbrev Half := BitVec 16
/-- A word: 32 bits (R11); an instruction word, a lane of a vector register, a set of 32 lanes. -/
abbrev Word := BitVec 32
/-- A dword: 64 bits (R11); a scalar register, a virtual address, a special register. -/
abbrev DWord := BitVec 64

/-- The dword with `hi` in bits [63:32] and `lo` in bits [31:0]. -/
def pairWord (hi lo : Word) : DWord := hi ++ lo
/-- Bits [31:0] of a dword. -/
def loWord (x : DWord) : Word := x.setWidth 32
/-- Bits [63:32] of a dword. -/
def hiWord (x : DWord) : Word := x.extractLsb' 32 32
/-- One bit of a value as a Bool. -/
def bitB {n : Nat} (x : BitVec n) (i : Nat) : Bool := x.getLsbD i
/-- Bits [lo + w - 1 : lo] as a number. -/
def fieldN {n : Nat} (x : BitVec n) (lo w : Nat) : Nat := (x.extractLsb' lo w).toNat
/-- A Bool as a one-bit number. -/
def b2n (b : Bool) : Nat := if b then 1 else 0

end Sys2Proof
end

