-- ==== Sys2Proof/Config.lean ====
section
/-! DEFINITION.  What an implementation fixes, and the free values: constants with no body, of which
nothing can be proved. -/

namespace Sys2Proof.Config

/-- Every core, tower and column count of R5 and R7. -/
def cores : Nat := 128
/-- Warp slots of a core (R150). -/
def slots : Nat := 64
/-- Accumulator tiles of a core (R63). -/
def accTiles : Nat := 768
/-- Fault-buffer entries of a tower (R95). -/
def fbEntries : Nat := 4096
/-- Lost-line log entries of a tower (R106). -/
def lostEntries : Nat := 64
/-- Scratch capacity of a core in bytes, 448 KiB (R99). -/
def scratchCap : Nat := 458752
/-- The nominal period of the heartbeat in nanoseconds (R138; log 5). -/
def tickNs : Nat := 25
/-- Size of the installed GDDR 7 in bytes, 64 GB (R113; log 43). -/
def gddrBytes : Nat := 64 * 1024 * 1024 * 1024

/-- FREE VALUE (log 41): the boot ROM's public key, under which step 2 of bring-up verifies its images (R430; log 40). -/
opaque bootKey : Nat → DWord
/-- FREE VALUE (log 41): the device identity public key derived from the SRAM PUF (R431). -/
opaque identityKey : Nat → DWord
/-- FREE VALUE (log 41): dword `i` of the signature over a report, as a function of the report (R433). -/
opaque signature : List Nat → Nat → DWord
/-- FREE VALUE (log 41): the measurement of the firmware (R433). -/
opaque measurement : Nat → DWord
/-- FREE VALUE (log 42): the configuration blob's field by number: the VF points (R14, R435), the boot point, the
board maker's limits and levels, and the column map with its spare sites (R3, R430). -/
opaque blobField : Nat → Nat
/-- A field of the configuration blob, or the value that applies where the blob leaves it unset (R14; log 42). -/
def blobOr (n unset : Nat) : Nat := if blobField n = 0 then unset else blobField n - 1
/-- FREE VALUE (log 44): a value the spec leaves open, numbered by a counter of State. -/
opaque freeValue : Nat → DWord

end Sys2Proof.Config
end

