-- ==== Sys2Proof/Events.lean ====
section
/-! DEFINITION.  What each event of spec/opcode_table.json names: the data an event constructor of
`Instr` carries.  Events that begin outside the machine carry what the outside world supplies. -/

namespace Sys2Proof.Ev

/-- Where a returned datum is written: registers of one warp, or a q register of a group's stream. -/
structure LoadReturn where
  core : Nat
  slot : Nat
  /-- Vector destinations: (register × 32 + lane, word). -/
  vec : List (Nat × Word) := []
  /-- Scalar destinations. -/
  sca : List (Nat × DWord) := []
  /-- Matrix-stream destinations: (group, q register, value). -/
  strm : List (Nat × Nat × DWord) := []
  /-- L1 misses that it ends (R100), and the first cycle in which the data may land (R261). -/
  misses : Nat := 0
  due : Nat := 0
  deriving DecidableEq, Repr

/-- A reply on its way to a scalar register (R123, R267, R368, R445). -/
structure Reply where
  core : Nat
  slot : Nat
  /-- The group that issued the command. -/
  gid : Nat
  /-- Destination scalar register; 0 requests no reply. -/
  d : Nat
  value : DWord
  /-- XCMD engine code: 0 COPY, 1 GRAPH, 2 MGMT, 3 MEMSYS. -/
  eng : Nat
  deriving DecidableEq, Repr

/-- A warp and a set of its lanes. -/
structure Batch where
  core : Nat
  slot : Nat
  lanes : Word
  deriving DecidableEq, Repr

/-- A warp. -/
structure WarpRef where
  core : Nat
  slot : Nat
  deriving DecidableEq, Repr

/-- A group. -/
structure GroupRef where
  gid : Nat
  deriving DecidableEq, Repr

/-- A chunk of a copy operation: member index and chunk index (R272, R279). -/
structure Chunk where
  core : Nat
  entry : Nat
  member : Nat
  chunk : Nat
  /-- The chunk could not be delivered: the REASON of R270 it fails with; 0 when it performs. -/
  fail : Nat := 0
  deriving DecidableEq, Repr

/-- An entry of a core's copy-operation table (R271). -/
structure CopyRef where
  core : Nat
  entry : Nat
  deriving DecidableEq, Repr

/-- A slot or operation of a column's matrix engine. -/
structure EngineRef where
  col : Nat
  idx : Nat
  deriving DecidableEq, Repr

/-- A row of a drain (R325, R326). -/
structure DrainRow where
  core : Nat
  op : Nat
  row : Nat
  deriving DecidableEq, Repr

/-- An engine operation of a core's streams. -/
structure MopRef where
  core : Nat
  op : Nat
  deriving DecidableEq, Repr

/-- A tower. -/
structure Tower where
  tower : Nat
  deriving DecidableEq, Repr

/-- A gang member core's reservation (R358). -/
structure Gang where
  tower : Nat
  core : Nat
  deriving DecidableEq, Repr

/-- A GRAPH command on a scope of the other tower, as UCIe carries it (R363): its function code, the warp and group
that wait for its reply and the register, the launch and context of the issuing task, its handle, its operand, and
the 64 bytes of its record. -/
structure GCmd where
  func : Nat
  core : Nat
  slot : Nat
  gid : Nat
  d : Nat
  launch : Nat
  ctx : Nat
  h : DWord
  n : Nat := 0
  record : Nat := 0
  deriving DecidableEq, Repr

/-- A message from one tower's graph engine to the other's (R149, R365). -/
structure Mirror where
  /-- The tower that sent it. -/
  src : Nat
  seq : Nat
  /-- 0 READY of a resource tile, 1 decrement of its LRC, 2 LOST, 3 the class of a pass, 4 the receiver's part of a
  launch, 5 a command on a scope of the receiver, 6 members leave such a scope, 7 members join one, 8 a re-execution
  needs a resource tile of the receiver, 9 the answer, 10 the abort of a launch, 11 a tile or task has retired. -/
  kind : Nat
  launch : Nat
  /-- Key of the resource tile, the handle of the scope, or pass and class. -/
  a : Nat
  /-- Of 8 and 9: twice the key of the consumer tile, and 1 where it waits for the answer. -/
  b : Nat := 0
  /-- The cycle in which it was sent. -/
  sent : Nat := 0
  cmd : Option GCmd := none
  deriving DecidableEq, Repr

/-- A context. -/
structure Ctx where
  ctx : Nat
  deriving DecidableEq, Repr

/-- A submission queue. -/
structure Queue where
  queue : Nat
  deriving DecidableEq, Repr

/-- A write of a register: queue, context, head or other index, with the value. -/
structure Write where
  idx : Nat
  value : DWord
  /-- Access size in bytes. -/
  size : Nat := 8
  deriving DecidableEq, Repr

/-- A write of a register at a BAR0 offset, by the host or by a system-level store (R13, R414). -/
structure RegWrite where
  off : Nat
  value : DWord
  size : Nat
  /-- From the host (true) or from a core through the physical alias (false). -/
  host : Bool
  deriving DecidableEq, Repr

/-- A host access through BAR2, of one PCIe request (R412, R414). -/
structure Bar2 where
  off : Nat
  size : Nat
  write : Bool
  value : Nat
  deriving DecidableEq, Repr

/-- A host read of BAR0, within one register (R413). -/
structure HostRead where
  off : Nat
  size : Nat
  deriving DecidableEq, Repr

/-- What reaches the device beside BAR0 and BAR2 (R412, R415, R425): 0 the base set in BAR2CFG, 1 the size of BAR2 as a
power of two, 2 the function mask of MSI-X, 3 entry `idx` of the management core's allow list. -/
structure HostConfig where
  kind : Nat
  idx : Nat
  value : DWord
  deriving DecidableEq, Repr

/-- A host AtomicOp: 0 FetchAdd, 1 Swap, 2 CAS (R412). -/
structure AtomicOp where
  off : Nat
  size : Nat
  op : Nat
  a : DWord
  b : DWord
  deriving DecidableEq, Repr

/-- An entry of a tower's fault buffer or lost-line log. -/
structure TowerEntry where
  tower : Nat
  index : Nat
  deriving DecidableEq, Repr

/-- Abort of one entry or of every entry (R97). -/
structure FbAbort where
  tower : Nat
  index : Nat
  all : Bool
  deriving DecidableEq, Repr

/-- A read that clears what it reads: the register, the bits read of its 64, and the registers of a
warp that receive the value, if a core made it (R13). -/
structure ReadClear where
  /-- Head, channel (tower × 32 + channel) or column (tower × 32 + column). -/
  idx : Nat
  /-- Offset of the register in its block. -/
  off : Nat
  /-- Lowest bit read and number of bits. -/
  lo : Nat := 0
  bits : Nat := 64
  /-- The value is sign-extended to 32 bits. -/
  sx : Bool := false
  core : Nat := 0
  slot : Nat := 0
  /-- Vector destinations (register × 32 + lane), low word first; empty when the host reads. -/
  vec : List Nat := []
  /-- Scalar destination. -/
  sca : Option Nat := none
  deriving DecidableEq, Repr

/-- The operands of a management command (R443). -/
structure MgOp where
  tower : Nat
  layer : Nat
  column : Nat
  deriving DecidableEq, Repr

/-- 802.1AS time: a period in nanoseconds × 1,000 for the next ticks, or loss of lock (R425). -/
structure TimeSync where
  port : Nat
  locked : Bool
  /-- Correction of the tick period in parts per million, signed. -/
  ppm : Int
  deriving DecidableEq, Repr

/-- A cache line in a bank. -/
structure Line where
  bank : Nat
  line : Nat
  deriving DecidableEq, Repr

/-- A bank. -/
structure Bank where
  bank : Nat
  deriving DecidableEq, Repr

/-- A loop station (R112). -/
structure Station where
  bank : Nat
  deriving DecidableEq, Repr

/-- A cache die: tower and layer code 1 or 2 (R115, R116). -/
structure Die where
  tower : Nat
  layer : Nat
  deriving DecidableEq, Repr

/-- A column of a tower. -/
structure Column where
  tower : Nat
  column : Nat
  deriving DecidableEq, Repr

/-- A GDDR 7 transfer error (R441). -/
structure GddrError where
  channel : Nat
  /-- Counter kind, as R441 orders them. -/
  kind : Nat
  line : Nat
  uncorrectable : Bool
  deriving DecidableEq, Repr

/-- The sensors' readings (R438): a temperature of each layer of each column, as (tower × 32 + column) × 7 +
layer code and a 16-bit code, and the package power and current. -/
structure Sensors where
  temps : List (Nat × Nat)
  power : Nat
  current : Nat
  deriving DecidableEq, Repr

/-- A sentinel run (R442): the mismatches it found, as column and UNIT code, and the columns whose run was
skipped. -/
structure Sentinel where
  bad : List (Nat × Nat)
  skipped : List Nat
  deriving DecidableEq, Repr

/-- An Ethernet frame: the port it comes to, the MAC address it comes from, its header and its content (R425). -/
structure Frame where
  port : Nat
  src : Nat
  version : Nat := 1
  /-- The source card. -/
  card : Nat := 0
  seq : Nat
  launch : Nat
  /-- Of READY the resource tile, of a launch record its ASID, of an acknowledgement the number acknowledged. -/
  a : Nat
  data : List Byte
  deriving DecidableEq, Repr

/-- An Ethernet port. -/
structure Port where
  port : Nat
  deriving DecidableEq, Repr

/-- A display head. -/
structure Head where
  head : Nat
  deriving DecidableEq, Repr

/-- The word of an undecodable issue. -/
structure Bad where
  word : Word
  deriving DecidableEq, Repr

/-- The layer of a VF transition (R436). -/
structure Layer where
  tower : Nat
  column : Nat
  /-- Layer code 3 to 6. -/
  layer : Nat
  deriving DecidableEq, Repr

/-- A step that no instruction word of the issue in progress makes, as the machine holds it while it is in
flight: the event rows of spec/opcode_table.json. -/
inductive Event where
  | loadReturn (p : LoadReturn)
  | commandReply (p : Reply)
  | fenceScComplete (p : WarpRef)
  | watchdogExpiry (p : Batch)
  | haltComplete (p : GroupRef)
  | chunkComplete (p : Chunk)
  | copyFaultSettle (p : CopyRef)
  | copyQuiesceTimeout (p : GroupRef)
  | matrixOpDequeue (p : GroupRef)
  | kennelDeadline (p : EngineRef)
  | engineEntry (p : EngineRef)
  | matrixResultWrite (p : EngineRef)
  | weightFillComplete (p : EngineRef)
  | drainRowPerform (p : DrainRow)
  | msigArrival (p : MopRef)
  | taskDispatch (p : Tower)
  | gangReservation (p : Gang)
  | gangReservationTimeout (p : Tower)
  | tileRetire (p : GroupRef)
  | ucieMirrorMessage (p : Mirror)
  | reexecPlacementTimeout (p : Tower)
  | preemptionTimeout (p : Tower)
  | contextSave (p : GroupRef)
  | contextRestore (p : GroupRef)
  | starvationRestore (p : Ctx)
  | submissionConsume (p : Queue)
  | sqDoorbell (p : Write)
  | attachWrite (p : Write)
  | ctxCsplitWrite (p : Write)
  | registerWrite (p : RegWrite)
  | hostBar2Access (p : Bar2)
  | hostAtomicop (p : AtomicOp)
  | fbRelease (p : TowerEntry)
  | fbReleaseAll (p : Tower)
  | fbAbort (p : FbAbort)
  | lostLineEntryClear (p : TowerEntry)
  | flipsRead (p : ReadClear)
  | gddrCounterRead (p : ReadClear)
  | sentinelCounterRead (p : ReadClear)
  | mgcmdGate (p : MgOp)
  | mgcmdUngate (p : MgOp)
  | mgcmdRetireBus (p : MgOp)
  | mgcmdShutdownLayer (p : MgOp)
  | mgcmdComplete
  | attestationRequest
  | attestationComplete
  | powerOn
  | heartbeatTick
  | timeSync (p : TimeSync)
  | readCountWindow (p : Bank)
  | lineReplication (p : Line)
  | loopPortPowerDown (p : Station)
  | loopPortWake (p : Station)
  | dirtyBudgetWriteback (p : Die)
  | cacheLayerShutdown (p : Die)
  | busEvacuation (p : Bank)
  | columnRemoval (p : Column)
  | gddrTransferError (p : GddrError)
  | vfControlTick
  | vfTransitionComplete (p : Layer)
  | sensorSample (p : Sensors)
  | thermalPowerDown (p : Tower)
  | sentinelRun (p : Sentinel)
  | ucieLinkDown
  | ethReadyMessage (p : Frame)
  | ethLaunchRecord (p : Frame)
  | ethCompletion (p : Frame)
  | ethAck (p : Frame)
  | ethStreamData (p : Frame)
  | ethRetransmit (p : Port)
  | ethPeerTimeout (p : Port)
  | vblank (p : Head)
  | unassignedEncoding (p : Bad)
  | hostReleasesReset
  | hostRead (p : HostRead)
  | hostConfig (p : HostConfig)
  deriving DecidableEq, Repr

end Sys2Proof.Ev
end

