-- ==== Sys2Proof/Syntax.lean ====
section
/-! DEFINITION.  The instructions and events of spec/opcode_table.json: one constructor of `Instr` per
row.  A row with an encoding carries one record of its operand fields (the formats of R54, with the
reserved-zero fields left out); a row that is an event carries a record of what the event names. -/

namespace Sys2Proof

/-- Format R: d, a, b, S. Field names are those of spec/opcode_table.json (R54). -/
structure FmtR where
  c : BitVec 1
  d : BitVec 7
  a : BitVec 7
  b : BitVec 7
  s : BitVec 1
  deriving DecidableEq, Repr

/-- Format I: d, a, imm8. Field names are those of spec/opcode_table.json (R54). -/
structure FmtI where
  c : BitVec 1
  d : BitVec 7
  a : BitVec 7
  i : BitVec 8
  deriving DecidableEq, Repr

/-- Format L: d, imm15. Field names are those of spec/opcode_table.json (R54). -/
structure FmtL where
  c : BitVec 1
  d : BitVec 7
  i : BitVec 15
  deriving DecidableEq, Repr

/-- Format P: p, cc, a, b, S. Field names are those of spec/opcode_table.json (R54). -/
structure FmtP where
  c : BitVec 1
  p : BitVec 4
  k : BitVec 3
  a : BitVec 7
  b : BitVec 7
  s : BitVec 1
  deriving DecidableEq, Repr

/-- Format PI: p, cc, a, imm8. Field names are those of spec/opcode_table.json (R54). -/
structure FmtPI where
  c : BitVec 1
  p : BitVec 4
  k : BitVec 3
  a : BitVec 7
  i : BitVec 8
  deriving DecidableEq, Repr

/-- Format R whose word uses d and a alone. Field names are those of spec/opcode_table.json (R54). -/
structure FmtDA where
  c : BitVec 1
  d : BitVec 7
  a : BitVec 7
  deriving DecidableEq, Repr

/-- Format RS: d, a, sub. Field names are those of spec/opcode_table.json (R54). -/
structure FmtRS where
  c : BitVec 1
  d : BitVec 7
  a : BitVec 7
  u : BitVec 4
  deriving DecidableEq, Repr

/-- Format R with S = 1 whose word uses d and the scalar b. Field names are those of spec/opcode_table.json (R54). -/
structure FmtDS where
  c : BitVec 1
  d : BitVec 7
  b : BitVec 6
  deriving DecidableEq, Repr

/-- Format I whose imm8 has five bits in use. Field names are those of spec/opcode_table.json (R54). -/
structure FmtBcast where
  c : BitVec 1
  d : BitVec 7
  a : BitVec 7
  i : BitVec 5
  deriving DecidableEq, Repr

/-- Format R whose word uses d alone. Field names are those of spec/opcode_table.json (R54). -/
structure FmtD where
  c : BitVec 1
  d : BitVec 7
  deriving DecidableEq, Repr

/-- Format R of `VMOVS`: scalar d, a, lane. Field names are those of spec/opcode_table.json (R54). -/
structure FmtMovs where
  c : BitVec 1
  d : BitVec 6
  a : BitVec 7
  l : BitVec 5
  deriving DecidableEq, Repr

/-- Format U: d, a, n. Field names are those of spec/opcode_table.json (R54). -/
structure FmtU where
  c : BitVec 1
  d : BitVec 7
  a : BitVec 7
  n : BitVec 4
  deriving DecidableEq, Repr

/-- Formats M and MS: d, a, H, HX, off5. Field names are those of spec/opcode_table.json (R54). -/
structure FmtM where
  c : BitVec 1
  d : BitVec 7
  a : BitVec 7
  h : BitVec 2
  x : BitVec 1
  o : BitVec 5
  deriving DecidableEq, Repr

/-- Format MA: d, a, scope, order, RET. Field names are those of spec/opcode_table.json (R54). -/
structure FmtMA where
  c : BitVec 1
  d : BitVec 7
  a : BitVec 7
  e : BitVec 3
  r : BitVec 2
  t : BitVec 1
  deriving DecidableEq, Repr

/-- Format F: scope, order. Field names are those of spec/opcode_table.json (R54). -/
structure FmtF where
  c : BitVec 1
  e : BitVec 3
  r : BitVec 2
  deriving DecidableEq, Repr

/-- Format Z: the chain bit alone. Field names are those of spec/opcode_table.json (R54). -/
structure FmtZ where
  c : BitVec 1
  deriving DecidableEq, Repr

/-- Format MS of `SWAIT`: predicate, a, H, HX, off5. Field names are those of spec/opcode_table.json (R54). -/
structure FmtSwait where
  c : BitVec 1
  p : BitVec 4
  a : BitVec 7
  h : BitVec 2
  x : BitVec 1
  o : BitVec 5
  deriving DecidableEq, Repr

/-- Format R whose word uses a alone. Field names are those of spec/opcode_table.json (R54). -/
structure FmtA where
  c : BitVec 1
  a : BitVec 7
  deriving DecidableEq, Repr

/-- Format R of `VFTRY`: d and the predicate. Field names are those of spec/opcode_table.json (R54). -/
structure FmtTry where
  c : BitVec 1
  d : BitVec 7
  p : BitVec 4
  deriving DecidableEq, Repr

/-- Format M of `PREF`: the target bit, a, H, HX, off5. Field names are those of spec/opcode_table.json (R54). -/
structure FmtPref where
  c : BitVec 1
  t : BitVec 1
  a : BitVec 7
  h : BitVec 2
  x : BitVec 1
  o : BitVec 5
  deriving DecidableEq, Repr

/-- Format MA with RET reserved-zero (`ALD.32`, `AST.32`). Field names are those of spec/opcode_table.json (R54). -/
structure FmtMO where
  c : BitVec 1
  d : BitVec 7
  a : BitVec 7
  e : BitVec 3
  r : BitVec 2
  deriving DecidableEq, Repr

/-- Format B: p, N, off17. Field names are those of spec/opcode_table.json (R54). -/
structure FmtB where
  c : BitVec 1
  p : BitVec 4
  n : BitVec 1
  o : BitVec 17
  deriving DecidableEq, Repr

/-- Format BC: inc, off17. Field names are those of spec/opcode_table.json (R54). -/
structure FmtBC where
  c : BitVec 1
  i : BitVec 4
  o : BitVec 17
  deriving DecidableEq, Repr

/-- Format BCR: inc, a. Field names are those of spec/opcode_table.json (R54). -/
structure FmtBCR where
  c : BitVec 1
  i : BitVec 4
  a : BitVec 7
  deriving DecidableEq, Repr

/-- Format B of `FORK`: p, off17. Field names are those of spec/opcode_table.json (R54). -/
structure FmtFork where
  c : BitVec 1
  p : BitVec 4
  o : BitVec 17
  deriving DecidableEq, Repr

/-- Format BJ: j, mp. Field names are those of spec/opcode_table.json (R54). -/
structure FmtBJ where
  c : BitVec 1
  j : BitVec 3
  m : BitVec 4
  deriving DecidableEq, Repr

/-- Format BJ of `JDROP`: mp. Field names are those of spec/opcode_table.json (R54). -/
structure FmtJd where
  c : BitVec 1
  m : BitVec 4
  deriving DecidableEq, Repr

/-- Format BT: code. Field names are those of spec/opcode_table.json (R54). -/
structure FmtBT where
  c : BitVec 1
  i : BitVec 16
  deriving DecidableEq, Repr

/-- Format BE: Y. Field names are those of spec/opcode_table.json (R54). -/
structure FmtBE where
  c : BitVec 1
  y : BitVec 1
  deriving DecidableEq, Repr

/-- Format BW: w, dim, off17. Field names are those of spec/opcode_table.json (R54). -/
structure FmtBW where
  c : BitVec 1
  w : BitVec 3
  k : BitVec 2
  o : BitVec 17
  deriving DecidableEq, Repr

/-- Format MMA: acc, qa, qw, qf. Field names are those of spec/opcode_table.json (R54). -/
structure FmtMMA where
  a : BitVec 10
  x : BitVec 4
  w : BitVec 4
  f : BitVec 4
  deriving DecidableEq, Repr

/-- `MWLD`: qd, qs, qf, qx, NEW (R313). Field names are those of spec/opcode_table.json (R54). -/
structure FmtMwld where
  d : BitVec 4
  s : BitVec 4
  f : BitVec 4
  x : BitVec 4
  n : BitVec 1
  deriving DecidableEq, Repr

/-- `MZERO`: acc (R313). Field names are those of spec/opcode_table.json (R54). -/
structure FmtAcc where
  a : BitVec 10
  deriving DecidableEq, Repr

/-- `MDRAIN`: acc, qd, qo (R313). Field names are those of spec/opcode_table.json (R54). -/
structure FmtDrain where
  a : BitVec 10
  d : BitVec 4
  o : BitVec 4
  deriving DecidableEq, Repr

/-- `MLACC`: acc, qs (R313). Field names are those of spec/opcode_table.json (R54). -/
structure FmtLacc where
  a : BitVec 10
  s : BitVec 4
  deriving DecidableEq, Repr

/-- `MWAIT`: qd, qs, qg (R313). Field names are those of spec/opcode_table.json (R54). -/
structure FmtMwait where
  d : BitVec 4
  s : BitVec 4
  g : BitVec 4
  deriving DecidableEq, Repr

/-- `MSIG`: qs, scope (R313). Field names are those of spec/opcode_table.json (R54). -/
structure FmtMsig where
  s : BitVec 4
  e : BitVec 3
  deriving DecidableEq, Repr

/-- Format MI: q, imm18. Field names are those of spec/opcode_table.json (R54). -/
structure FmtMI where
  q : BitVec 4
  i : BitVec 18
  deriving DecidableEq, Repr

/-- `MADDQ`: qd, qs, qb, imm10 (R313). Field names are those of spec/opcode_table.json (R54). -/
structure FmtAddq where
  d : BitVec 4
  s : BitVec 4
  b : BitVec 4
  i : BitVec 10
  deriving DecidableEq, Repr

/-- `MLOOP`: q, off17 (R313). Field names are those of spec/opcode_table.json (R54). -/
structure FmtLoop where
  q : BitVec 4
  o : BitVec 17
  deriving DecidableEq, Repr

/-- `MBRA`: q, N, off17 (R313). Field names are those of spec/opcode_table.json (R54). -/
structure FmtMbra where
  q : BitVec 4
  n : BitVec 1
  o : BitVec 17
  deriving DecidableEq, Repr

/-- `MSTAT`: qd (R313). Field names are those of spec/opcode_table.json (R54). -/
structure FmtStat where
  d : BitVec 4
  deriving DecidableEq, Repr

/-- `MPRIO`: cls (R313). Field names are those of spec/opcode_table.json (R54). -/
structure FmtPrio where
  k : BitVec 3
  deriving DecidableEq, Repr

/-- `MFENCE`: scope (R313). Field names are those of spec/opcode_table.json (R54). -/
structure FmtMfence where
  e : BitVec 3
  deriving DecidableEq, Repr

/-- `MLDQ`: qd, qs, off10 (R313). Field names are those of spec/opcode_table.json (R54). -/
structure FmtLdq where
  d : BitVec 4
  s : BitVec 4
  o : BitVec 10
  deriving DecidableEq, Repr

/-- Format XCMD: d, a, b. Field names are those of spec/opcode_table.json (R54). -/
structure FmtX where
  c : BitVec 1
  d : BitVec 6
  a : BitVec 6
  b : BitVec 6
  deriving DecidableEq, Repr

/-- Format XCMD whose word uses d and a. Field names are those of spec/opcode_table.json (R54). -/
structure FmtXA where
  c : BitVec 1
  d : BitVec 6
  a : BitVec 6
  deriving DecidableEq, Repr

/-- Format SCL: d, a, b. Field names are those of spec/opcode_table.json (R54). -/
structure FmtS where
  c : BitVec 1
  d : BitVec 6
  a : BitVec 6
  b : BitVec 6
  deriving DecidableEq, Repr

/-- Format SI: d, a, imm10. Field names are those of spec/opcode_table.json (R54). -/
structure FmtSI where
  c : BitVec 1
  d : BitVec 6
  a : BitVec 6
  i : BitVec 10
  deriving DecidableEq, Repr

/-- Format SL: d, imm16. Field names are those of spec/opcode_table.json (R54). -/
structure FmtSL where
  c : BitVec 1
  d : BitVec 6
  i : BitVec 16
  deriving DecidableEq, Repr

/-- Format SC: p, cc, a, b. Field names are those of spec/opcode_table.json (R54). -/
structure FmtSC where
  c : BitVec 1
  p : BitVec 4
  k : BitVec 3
  a : BitVec 6
  b : BitVec 6
  deriving DecidableEq, Repr

/-- Format SM: d, a, off10. Field names are those of spec/opcode_table.json (R54). -/
structure FmtSM where
  c : BitVec 1
  d : BitVec 6
  a : BitVec 6
  o : BitVec 10
  deriving DecidableEq, Repr

/-- Format SR: s, n. Field names are those of spec/opcode_table.json (R54). -/
structure FmtSR where
  c : BitVec 1
  s : BitVec 6
  n : BitVec 8
  deriving DecidableEq, Repr

/-- Format SW: w, s. Field names are those of spec/opcode_table.json (R54). -/
structure FmtSW where
  c : BitVec 1
  w : BitVec 3
  s : BitVec 6
  deriving DecidableEq, Repr

/-- Format SCL whose word uses d and a. Field names are those of spec/opcode_table.json (R54). -/
structure FmtSA where
  c : BitVec 1
  d : BitVec 6
  a : BitVec 6
  deriving DecidableEq, Repr

/-- Format SCL with its sub field: d, a, b, sub. Field names are those of spec/opcode_table.json (R54). -/
structure FmtSU where
  c : BitVec 1
  d : BitVec 6
  a : BitVec 6
  b : BitVec 6
  u : BitVec 4
  deriving DecidableEq, Repr

/-- The steps of the machine: 225 instruction words and 74 events (spec/opcode_table.json). -/
inductive Instr where
  /-- `VADD.S32` (R187): Adds two 32-bit integer operands lane by lane. -/
  | vaddS32 (f : FmtR)
  /-- `VSUB.S32` (R187): Subtracts two 32-bit integer operands lane by lane. -/
  | vsubS32 (f : FmtR)
  /-- `VMUL.S32` (R187): Writes the low 32 bits of the product in each lane. -/
  | vmulS32 (f : FmtR)
  /-- `VMULH.S32` (R187): Writes the high 32 bits of the signed product in each lane. -/
  | vmulhS32 (f : FmtR)
  /-- `VMULH.Z32` (R187): Writes the high 32 bits of the unsigned product in each lane. -/
  | vmulhZ32 (f : FmtR)
  /-- `VMAD.S32` (R187): Multiplies and adds an addend in each lane, modulo 2^32. -/
  | vmadS32 (f : FmtR)
  /-- `VMIN.S32` (R187): Writes the signed minimum in each lane. -/
  | vminS32 (f : FmtR)
  /-- `VMAX.S32` (R187): Writes the signed maximum in each lane. -/
  | vmaxS32 (f : FmtR)
  /-- `VMIN.Z32` (R187): Writes the unsigned minimum in each lane. -/
  | vminZ32 (f : FmtR)
  /-- `VMAX.Z32` (R187): Writes the unsigned maximum in each lane. -/
  | vmaxZ32 (f : FmtR)
  /-- `VAND` (R187): Bitwise AND in each lane. -/
  | vand (f : FmtR)
  /-- `VOR` (R187): Bitwise OR in each lane. -/
  | vor (f : FmtR)
  /-- `VXOR` (R187): Bitwise XOR in each lane. -/
  | vxor (f : FmtR)
  /-- `VANDN` (R187): Bitwise A AND NOT B in each lane. -/
  | vandn (f : FmtR)
  /-- `VSHL` (R187): Logical shift left in each lane, zero for counts of 32 or more. -/
  | vshl (f : FmtR)
  /-- `VSHR` (R187): Logical shift right in each lane, zero for counts of 32 or more. -/
  | vshr (f : FmtR)
  /-- `VSAR` (R187): Arithmetic shift right in each lane. -/
  | vsar (f : FmtR)
  /-- `VADDI` (R188): Adds a sign-extended 8-bit immediate in each lane. -/
  | vaddi (f : FmtI)
  /-- `VMOVI` (R188): Writes a sign-extended 15-bit immediate to every active lane. -/
  | vmovi (f : FmtL)
  /-- `VCMP` (R190): Compares two integer operands and writes a predicate in each lane. -/
  | vcmp (f : FmtP)
  /-- `VCMPI` (R190): Compares against a sign-extended immediate and writes a predicate in each lane. -/
  | vcmpi (f : FmtPI)
  /-- `VSEL` (R191): Selects between two operands in every batch lane on a predicate. -/
  | vsel (f : FmtR)
  /-- `VCLZ` (R188): Counts leading zero bits in each lane. -/
  | vclz (f : FmtDA)
  /-- `VPOPC` (R188): Counts set bits in each lane. -/
  | vpopc (f : FmtDA)
  /-- `VBREV` (R188): Reverses the bits of each lane. -/
  | vbrev (f : FmtDA)
  /-- `VBINS` (R192): Inserts the bits of A under mask B into the accumulator operand. -/
  | vbins (f : FmtR)
  /-- `VFFCS` (R193): Finds and sets the first clear bit of a 64-bit pair in each lane. -/
  | vffcs (f : FmtDA)
  /-- `VPLSET` (R192): Sets clear bits upward until the population reaches B. -/
  | vplset (f : FmtR)
  /-- `VEXTR` (R192): Extracts a bit field of A at a position and width given by B. -/
  | vextr (f : FmtR)
  /-- `VSHFL.IDX` (R194): Reads each lane from an indexed lane of its partition tile. -/
  | vshflIdx (f : FmtR)
  /-- `VSHFL.XOR` (R194): Reads each lane from the lane at an XOR distance within its tile. -/
  | vshflXor (f : FmtR)
  /-- `VSHFL.UP` (R194): Reads each lane from a lower lane of its tile. -/
  | vshflUp (f : FmtR)
  /-- `VSHFL.DN` (R194): Reads each lane from a higher lane of its tile. -/
  | vshflDn (f : FmtR)
  /-- `VVOTE` (R196): Combines per-lane votes over the active lanes of each tile. -/
  | vvote (f : FmtRS)
  /-- `VRED` (R196): Reduces the active lanes of each tile and writes the result to them. -/
  | vred (f : FmtRS)
  /-- `VSCAN` (R196): Computes an inclusive or exclusive scan over the active lanes of each tile. -/
  | vscan (f : FmtRS)
  /-- `VMOV` (R188): Copies a vector register in each lane. -/
  | vmovV (f : FmtDA)
  /-- `VMOV` (R188): Broadcasts the low 32 bits of a scalar register to each lane. -/
  | vmovS (f : FmtDS)
  /-- `VBCAST` (R194): Broadcasts one lane of each tile to the tile's active lanes. -/
  | vbcast (f : FmtBcast)
  /-- `VLANEID` (R188): Writes the physical lane number to each lane. -/
  | vlaneid (f : FmtD)
  /-- `VMOVS` (R195): Moves one lane of a vector register into a scalar register. -/
  | vmovs (f : FmtMovs)
  /-- `VADD.S64` (R189): Adds 64-bit pair operands in each lane. -/
  | vaddS64 (f : FmtR)
  /-- `VMUL.WIDE.S32` (R189): Writes the exact 64-bit signed product into a pair. -/
  | vmulWideS32 (f : FmtR)
  /-- `VMAD.WIDE.Z32` (R189): Multiplies unsigned 32-bit values and adds a 64-bit pair. -/
  | vmadWideZ32 (f : FmtR)
  /-- `VADD.F32` (R214): FP32 addition rounded once under the resolved mode. -/
  | vaddF32 (f : FmtR)
  /-- `VSUB.F32` (R214): FP32 subtraction rounded once. -/
  | vsubF32 (f : FmtR)
  /-- `VMUL.F32` (R214): FP32 multiplication rounded once. -/
  | vmulF32 (f : FmtR)
  /-- `VFMA.F32` (R214): FP32 fused multiply-add with one rounding. -/
  | vfmaF32 (f : FmtR)
  /-- `VMIN.F32` (R215): Returns the lesser FP32 operand with the NaN rules given. -/
  | vminF32 (f : FmtR)
  /-- `VMAX.F32` (R215): Returns the greater FP32 operand with the NaN rules given. -/
  | vmaxF32 (f : FmtR)
  /-- `VCMP.F32` (R216): Compares FP32 operands and writes a predicate in each lane. -/
  | vcmpF32 (f : FmtP)
  /-- `VCLASS.F32` (R217): Writes a one-hot class mask of an FP32 value. -/
  | vclassF32 (f : FmtDA)
  /-- `VSGNJ` (R217): Writes A with the sign of B. -/
  | vsgnj (f : FmtR)
  /-- `VRND.F32` (R218): Rounds an FP32 value to an integral value. -/
  | vrndF32 (f : FmtDA)
  /-- `VADD.H2` (R219): Adds packed FP16 pairs. -/
  | vaddH2 (f : FmtR)
  /-- `VMUL.H2` (R219): Multiplies packed FP16 pairs. -/
  | vmulH2 (f : FmtR)
  /-- `VFMA.H2` (R219): Fused multiply-add on packed FP16 pairs. -/
  | vfmaH2 (f : FmtR)
  /-- `VADD.B2` (R219): Adds packed BF16 pairs. -/
  | vaddB2 (f : FmtR)
  /-- `VMUL.B2` (R219): Multiplies packed BF16 pairs. -/
  | vmulB2 (f : FmtR)
  /-- `VFMA.B2` (R219): Fused multiply-add on packed BF16 pairs. -/
  | vfmaB2 (f : FmtR)
  /-- `VDOT2.B2` (R220): BF16 pair dot product plus an addend, rounded once to FP32. -/
  | vdot2B2 (f : FmtR)
  /-- `VDOT4.T8` (R220): Four-term T8 dot product plus an addend, rounded once to FP32. -/
  | vdot4T8 (f : FmtR)
  /-- `VCVT.F32.S32` (R221): Converts a signed integer to FP32. -/
  | vcvtF32S32 (f : FmtDA)
  /-- `VCVT.S32.F32` (R221): Converts FP32 to a signed integer with clamping. -/
  | vcvtS32F32 (f : FmtDA)
  /-- `VCVT.F32.Z32` (R221): Converts an unsigned integer to FP32. -/
  | vcvtF32Z32 (f : FmtDA)
  /-- `VCVT.Z32.F32` (R221): Converts FP32 to an unsigned integer with clamping. -/
  | vcvtZ32F32 (f : FmtDA)
  /-- `VCVT.H2.F32` (R222): Packs two FP32 values into an FP16 pair. -/
  | vcvtH2F32 (f : FmtR)
  /-- `VCVT.F32.H` (R222): Widens an FP16 pair into two FP32 registers. -/
  | vcvtF32H (f : FmtDA)
  /-- `VCVT.B2.F32` (R222): Packs two FP32 values into a BF16 pair. -/
  | vcvtB2F32 (f : FmtR)
  /-- `VCVT.F32.B` (R222): Widens a BF16 pair into two FP32 registers. -/
  | vcvtF32B (f : FmtDA)
  /-- `VCVT.T8.F32` (R223): Quantises four FP32 values to T8 under an S12 scale. -/
  | vcvtT8F32 (f : FmtR)
  /-- `VCVT.F32.T8` (R224): Decodes four T8 codes to FP32 under an S12 scale. -/
  | vcvtF32T8 (f : FmtR)
  /-- `VCVT.T6.F32` (R223): Quantises five FP32 values to T6 under an S12 scale. -/
  | vcvtT6F32 (f : FmtR)
  /-- `VCVT.F32.T6` (R224): Decodes five T6 codes to FP32 under an S12 scale. -/
  | vcvtF32T6 (f : FmtR)
  /-- `VBSCALE` (R225): Computes one covering S12 scale per block of a partition tile. -/
  | vbscale (f : FmtR)
  /-- `VCVT.S8.F32` (R223): Quantises four FP32 values to INT8 under an S12 scale. -/
  | vcvtS8F32 (f : FmtR)
  /-- `VSIN` (R230): CORDIC sine in half-turns. -/
  | vsin (f : FmtU)
  /-- `VCOS` (R230): CORDIC cosine in half-turns. -/
  | vcos (f : FmtU)
  /-- `VATAN2` (R230): CORDIC two-argument arctangent in half-turns. -/
  | vatan2 (f : FmtU)
  /-- `VEXP2` (R230): CORDIC base-2 exponential. -/
  | vexp2 (f : FmtU)
  /-- `VLOG2` (R230): CORDIC base-2 logarithm. -/
  | vlog2 (f : FmtU)
  /-- `VSQRT` (R230): CORDIC square root. -/
  | vsqrt (f : FmtU)
  /-- `VRSQ` (R230): CORDIC reciprocal square root in two passes. -/
  | vrsq (f : FmtU)
  /-- `VRCP` (R230): CORDIC reciprocal. -/
  | vrcp (f : FmtU)
  /-- `VTANH` (R230): CORDIC hyperbolic tangent in two passes. -/
  | vtanh (f : FmtU)
  /-- `VSIGM` (R230): CORDIC logistic sigmoid in two passes. -/
  | vsigm (f : FmtU)
  /-- `VRBOX` (R232): Clips a ray against an axis-aligned box, writing entry and exit. -/
  | vrbox (f : FmtR)
  /-- `VRTRI` (R233): Tests a ray against a triangle, writing t, u, w and hit. -/
  | vrtri (f : FmtR)
  /-- `LD.Z8` (R239): Loads a zero-extended byte in each active lane. -/
  | ldZ8 (f : FmtM)
  /-- `LD.S8` (R239): Loads a sign-extended byte in each active lane. -/
  | ldS8 (f : FmtM)
  /-- `LD.Z16` (R239): Loads a zero-extended half in each active lane. -/
  | ldZ16 (f : FmtM)
  /-- `LD.S16` (R239): Loads a sign-extended half in each active lane. -/
  | ldS16 (f : FmtM)
  /-- `LD.32` (R239): Loads a word in each active lane. -/
  | ld32 (f : FmtM)
  /-- `LD.64` (R239): Loads a dword into a register pair in each active lane. -/
  | ld64 (f : FmtM)
  /-- `LD.128` (R239): Loads 16 bytes into a register quad in each active lane. -/
  | ld128 (f : FmtM)
  /-- `ST.8` (R239): Stores a byte from each active lane. -/
  | st8 (f : FmtM)
  /-- `ST.16` (R239): Stores a half from each active lane. -/
  | st16 (f : FmtM)
  /-- `ST.32` (R239): Stores a word from each active lane. -/
  | st32 (f : FmtM)
  /-- `ST.64` (R239): Stores a dword from a register pair in each active lane. -/
  | st64 (f : FmtM)
  /-- `ST.128` (R239): Stores 16 bytes from a register quad in each active lane. -/
  | st128 (f : FmtM)
  /-- `LDS.32` (R239): Loads a word from the group's scratch in each active lane. -/
  | lds32 (f : FmtM)
  /-- `LDS.64` (R239): Loads a dword from scratch in each active lane. -/
  | lds64 (f : FmtM)
  /-- `LDS.128` (R239): Loads 16 bytes from scratch in each active lane. -/
  | lds128 (f : FmtM)
  /-- `STS.32` (R239): Stores a word to scratch from each active lane. -/
  | sts32 (f : FmtM)
  /-- `STS.64` (R239): Stores a dword to scratch from each active lane. -/
  | sts64 (f : FmtM)
  /-- `STS.128` (R239): Stores 16 bytes to scratch from each active lane. -/
  | sts128 (f : FmtM)
  /-- `AADD.S32` (R246): Atomic 32-bit integer add per active lane. -/
  | aaddS32 (f : FmtMA)
  /-- `AADD.F32` (R246): Atomic FP32 add rounded RNE per active lane. -/
  | aaddF32 (f : FmtMA)
  /-- `AMIN.S32` (R246): Atomic signed minimum per active lane. -/
  | aminS32 (f : FmtMA)
  /-- `AMAX.S32` (R246): Atomic signed maximum per active lane. -/
  | amaxS32 (f : FmtMA)
  /-- `AMIN.Z32` (R246): Atomic unsigned minimum per active lane. -/
  | aminZ32 (f : FmtMA)
  /-- `AMAX.Z32` (R246): Atomic unsigned maximum per active lane. -/
  | amaxZ32 (f : FmtMA)
  /-- `AAND` (R246): Atomic AND per active lane. -/
  | aand (f : FmtMA)
  /-- `AOR` (R246): Atomic OR per active lane. -/
  | aor (f : FmtMA)
  /-- `AXOR` (R246): Atomic XOR per active lane. -/
  | axor (f : FmtMA)
  /-- `AXCHG` (R246): Atomic exchange per active lane. -/
  | axchg (f : FmtMA)
  /-- `ACAS` (R246): Atomic compare-and-swap per active lane. -/
  | acas (f : FmtMA)
  /-- `AADD.S64` (R246): Atomic 64-bit integer add per active lane. -/
  | aaddS64 (f : FmtMA)
  /-- `AFFCS.64` (R246): Atomically finds and sets the first clear bit of a 64-bit word. -/
  | affcs64 (f : FmtMA)
  /-- `FENCE` (R251): Orders the fibre's covered events at a scope. -/
  | fence (f : FmtF)
  /-- `FENCE.SC` (R252): Starts a sequentially consistent fence for the batch. -/
  | fenceSc (f : FmtZ)
  /-- `WAITW` (R256): Parks the batch on a data-arrival word and returns the word on wake. -/
  | waitw (f : FmtM)
  /-- `SARM` (R254): Arms a data-arrival word with a target. -/
  | sarm (f : FmtM)
  /-- `SWAIT` (R256): Parks the batch on a data-arrival word and sets a predicate to FAULT on wake. -/
  | swait (f : FmtSwait)
  /-- `SARR` (R255): Makes one arrival on a data-arrival word as a GRP release. -/
  | sarr (f : FmtM)
  /-- `VFPUSH` (R258): Appends one entry to the warp's vertical FIFO direction, parking while full. -/
  | vfpush (f : FmtA)
  /-- `VFPOP` (R258): Removes the oldest vertical FIFO entry, parking while empty. -/
  | vfpop (f : FmtD)
  /-- `VFTRY` (R258): Removes a vertical FIFO entry if present and reports success in a predicate. -/
  | vftry (f : FmtTry)
  /-- `PREF` (R244): Prefetches lines without making memory events or faults. -/
  | pref (f : FmtPref)
  /-- `LDTX.BL` (R243): Fetches a 2x2 FP32 texel footprint and filters it bilinearly. -/
  | ldtxBl (f : FmtM)
  /-- `ALD.32` (R250): Single-copy-atomic 4-byte read with scope and order. -/
  | ald32 (f : FmtMO)
  /-- `AST.32` (R250): Single-copy-atomic 4-byte write with scope and order. -/
  | ast32 (f : FmtMO)
  /-- `BRA` (R174): Branches each fibre on its predicate. -/
  | bra (f : FmtB)
  /-- `BRU` (R174): Branches on a predicate that must be uniform within each tile. -/
  | bru (f : FmtB)
  /-- `JMPR` (R175): Jumps each fibre to its own register-held target. -/
  | jmpr (f : FmtA)
  /-- `CALL` (R176): Advances the window, writes the link and branches. -/
  | call (f : FmtBC)
  /-- `CALLR` (R176): Advances the window, writes the link and jumps to a register target. -/
  | callr (f : FmtBCR)
  /-- `RET` (R176): Returns to the link and restores the window. -/
  | ret (f : FmtZ)
  /-- `FORK` (R177): Starts new fibres in idle lanes of the warp. -/
  | fork (f : FmtFork)
  /-- `FEXIT` (R178): Ends the fibres of the batch and re-applies join release. -/
  | fexit (f : FmtZ)
  /-- `JSET` (R179): Replaces a join mask with selected lanes of the batch. -/
  | jset (f : FmtBJ)
  /-- `JOIN` (R179): Makes selected lanes arrive at a join and parks member lanes. -/
  | join (f : FmtBJ)
  /-- `JDROP` (R179): Removes selected lanes from all join masks. -/
  | jdrop (f : FmtJd)
  /-- `YIELD` (R163): Marks the issuing batch as yielded. -/
  | yield (f : FmtZ)
  /-- `NOPK` (R180): Has no effect; padding word. -/
  | nopk (f : FmtZ)
  /-- `TRAP` (R181): Raises the cause SOFT with a code. -/
  | trap (f : FmtBT)
  /-- `BRK` (R181): Raises the cause DEBUG with a code. -/
  | brk (f : FmtBT)
  /-- `EMURET` (R387): Ends the innermost handler level and resumes the frame. -/
  | emuret (f : FmtBE)
  /-- `BRW` (R174): Branches unless a walker dimension wrapped. -/
  | brw (f : FmtBW)
  /-- `MMA` (R320): Matrix multiply-accumulate of A rows with a pinned weight tile into an accumulator tile. -/
  | mma (f : FmtMMA)
  /-- `MMAS` (R321): MMA that also makes an arrival once its A rows have been read. -/
  | mmas (f : FmtMMA)
  /-- `MWLD` (R322): Pins a weight tile in the weight buffer and returns its handle. -/
  | mwld (f : FmtMwld)
  /-- `MZERO` (R323): Zeroes an accumulator tile. -/
  | mzero (f : FmtAcc)
  /-- `MDRAIN` (R324): Writes accumulator rows to scratch or memory with conversion. -/
  | mdrain (f : FmtDrain)
  /-- `MLACC` (R323): Loads an accumulator tile from 4 KiB of scratch. -/
  | mlacc (f : FmtLacc)
  /-- `MWAIT` (R327): Parks the matrix stream on a data-arrival word. -/
  | mwait (f : FmtMwait)
  /-- `MSIG` (R328): Queues a release arrival made once earlier stream operations complete. -/
  | msig (f : FmtMsig)
  /-- `MLI` (R331): Loads a sign-extended immediate into a q register. -/
  | mli (f : FmtMI)
  /-- `MADDQ` (R331): Adds two q registers and an immediate. -/
  | maddq (f : FmtAddq)
  /-- `MLOOP` (R331): Decrements a q register and branches while nonzero. -/
  | mloop (f : FmtLoop)
  /-- `MBRA` (R331): Branches the stream on a q register being nonzero. -/
  | mbra (f : FmtMbra)
  /-- `MEND` (R333): Ends the matrix stream's issue. -/
  | mend
  /-- `MSTAT` (R330): Waits for earlier fold-word operations and reads MXFOLD. -/
  | mstat (f : FmtStat)
  /-- `MPRIO` (R332): Sets the stream's class for later operations. -/
  | mprio (f : FmtPrio)
  /-- `MFENCE` (R329): Holds the stream until earlier operations complete at a scope. -/
  | mfence (f : FmtMfence)
  /-- `MLDQ` (R331): Loads 8 bytes of scratch into a q register. -/
  | mldq (f : FmtLdq)
  /-- `CSHAPE` (R268): Reads a shape descriptor from scratch into a shape slot. -/
  | cshape (f : FmtX)
  /-- `CGET` (R274): Copies from memory into the group's scratch. -/
  | cget (f : FmtX)
  /-- `CPUT` (R274): Copies from scratch to memory. -/
  | cput (f : FmtX)
  /-- `CGATH` (R274): Gathers indexed rows from memory into scratch. -/
  | cgath (f : FmtX)
  /-- `CMCAST` (R279): Copies from memory into the scratch of several gang members by neighbour forwarding. -/
  | cmcast (f : FmtX)
  /-- `CRING` (R274): Copies between scratch and a transient ring tile. -/
  | cring (f : FmtX)
  /-- `CRESUME` (R277): Restarts the unarrived chunks of a faulted or cancelled copy. -/
  | cresume (f : FmtXA)
  /-- `CCANCEL` (R277): Stops a running copy or frees a settled entry. -/
  | ccancel (f : FmtXA)
  /-- `CSTAT` (R278): Returns the status word of a copy operation. -/
  | cstat (f : FmtXA)
  /-- `TSPAWN` (R369): Copies a task record to the arena and enqueues it in a spawn queue. -/
  | tspawn (f : FmtX)
  /-- `TSUCC` (R362): Decrements a successor counter, enqueueing its task at zero. -/
  | tsucc (f : FmtX)
  /-- `FSOPEN` (R363): Opens a finish scope with a continuation record. -/
  | fsopen (f : FmtX)
  /-- `FSCLOSE` (R363): Decreases a finish scope's count. -/
  | fsclose (f : FmtX)
  /-- `FSADD` (R363): Increases a finish scope's count. -/
  | fsadd (f : FmtX)
  /-- `TRETIRE` (R369): Moves the tile's output of one resource to READY early. -/
  | tretire (f : FmtXA)
  /-- `GLAUNCH` (R369): Submits a launch record as the issuing context's launch. -/
  | glaunch (f : FmtX)
  /-- `GPRIO` (R369): Sets a pass's class from the next scoreboard cycle. -/
  | gprio (f : FmtX)
  /-- `TELRD` (R446): Reads a telemetry item of the issuing column. -/
  | telrd (f : FmtXA)
  /-- `PGREQ` (R447): Requests a power gate or ungate of a column layer. -/
  | pgreq (f : FmtX)
  /-- `ICINV` (R120): Drops a virtual range from every code cache. -/
  | icinv (f : FmtX)
  /-- `CFLUSH` (R120): Cleans and/or invalidates a range of lines. -/
  | cflush (f : FmtX)
  /-- `CSPLIT` (R120): Sets the context's scratch ways per bank in selected towers. -/
  | csplit (f : FmtX)
  /-- `TLBINV` (R120): Drops cached translations matching an ASID and VA selection. -/
  | tlbinv (f : FmtX)
  /-- `PATCH` (R120): Atomically rewrites a patch slot and drops it from code caches. -/
  | patch (f : FmtX)
  /-- `SADD` (R198): 64-bit scalar add. -/
  | sadd (f : FmtS)
  /-- `SSUB` (R198): 64-bit scalar subtract. -/
  | ssub (f : FmtS)
  /-- `SMUL` (R198): 64-bit scalar multiply, low half. -/
  | smul (f : FmtS)
  /-- `SAND` (R198): Scalar AND. -/
  | sand (f : FmtS)
  /-- `SOR` (R198): Scalar OR. -/
  | sor (f : FmtS)
  /-- `SXOR` (R198): Scalar XOR. -/
  | sxor (f : FmtS)
  /-- `SSHL` (R198): Scalar logical shift left. -/
  | sshl (f : FmtS)
  /-- `SSHR` (R198): Scalar logical shift right. -/
  | sshr (f : FmtS)
  /-- `SSAR` (R198): Scalar arithmetic shift right. -/
  | ssar (f : FmtS)
  /-- `SMIN` (R198): Scalar signed minimum. -/
  | smin (f : FmtS)
  /-- `SMAX` (R198): Scalar signed maximum. -/
  | smax (f : FmtS)
  /-- `SMINZ` (R198): Scalar unsigned minimum. -/
  | sminz (f : FmtS)
  /-- `SMAXZ` (R198): Scalar unsigned maximum. -/
  | smaxz (f : FmtS)
  /-- `SADDI` (R199): Adds a sign-extended 10-bit immediate to a scalar. -/
  | saddi (f : FmtSI)
  /-- `SLI` (R199): Loads a sign-extended 16-bit immediate into a scalar. -/
  | sli (f : FmtSL)
  /-- `SLIH` (R199): Shifts a scalar left 16 and ORs in an immediate. -/
  | slih (f : FmtSL)
  /-- `SCMP` (R200): Compares two scalars and writes a predicate of every batch fibre. -/
  | scmp (f : FmtSC)
  /-- `SLD.64` (R201): Loads 8 bytes into a scalar register. -/
  | sld64 (f : FmtSM)
  /-- `SST.64` (R201): Stores a scalar register as 8 bytes. -/
  | sst64 (f : FmtSM)
  /-- `SLD.32` (R201): Loads 4 bytes zero-extended into a scalar register. -/
  | sld32 (f : FmtSM)
  /-- `SRD` (R202): Reads a special register into a scalar. -/
  | srd (f : FmtSR)
  /-- `SWR` (R202): Writes a special register from a scalar under its write rules. -/
  | swr (f : FmtSR)
  /-- `SXCH` (R202): Exchanges a special register with a scalar. -/
  | sxch (f : FmtSR)
  /-- `WBIND` (R205): Binds a walker to a descriptor read from memory. -/
  | wbind (f : FmtSW)
  /-- `WRD` (R205): Returns a walker's address and advances it, recording wraps. -/
  | wrd (f : FmtSW)
  /-- `WRST` (R205): Repositions a walker to a linear element index. -/
  | wrst (f : FmtSW)
  /-- `SFFCS` (R198): Finds and sets the first clear bit of a scalar. -/
  | sffcs (f : FmtSA)
  /-- `SPLSET` (R198): Sets clear scalar bits upward to a population. -/
  | splset (f : FmtS)
  /-- `SBINS` (R198): Inserts scalar bits under a mask. -/
  | sbins (f : FmtS)
  /-- `SPOPC` (R198): Counts set bits of a scalar. -/
  | spopc (f : FmtSA)
  /-- `SCLZ` (R198): Counts leading zero bits of a scalar. -/
  | sclz (f : FmtSA)
  /-- `EMURD` (R207): Reads a register of the faulting frame of the current level. -/
  | emurd (f : FmtSU)
  /-- `EMUWR` (R207): Writes a register of the faulting frame of the current level. -/
  | emuwr (f : FmtSU)
  /-- `ACCRD` (R208): Reads one accumulator element during stream emulation. -/
  | accrd (f : FmtS)
  /-- `ACCWR` (R208): Writes one accumulator element during stream emulation. -/
  | accwr (f : FmtS)
  /-- `LOAD_RETURN` (R240): Returned load or atomic data is written to its destination registers. -/
  | loadReturn (p : Ev.LoadReturn)
  /-- `COMMAND_REPLY` (R123): The reply of an engine command arrives in its destination scalar register. -/
  | commandReply (p : Ev.Reply)
  /-- `FENCE_SC_COMPLETE` (R139): A FENCE.SC completes after its drain and the following heartbeat tick plus 2 ns. -/
  | fenceScComplete (p : Ev.WarpRef)
  /-- `WATCHDOG_EXPIRY` (R162): A batch's age reaches the watchdog limit and the group halts with WATCHDOG. -/
  | watchdogExpiry (p : Ev.Batch)
  /-- `HALT_COMPLETE` (R380): The group halt completes after the skid and trap registers are recorded. -/
  | haltComplete (p : Ev.GroupRef)
  /-- `CHUNK_COMPLETE` (R273): A copy chunk has performed at its destination and makes its arrival. -/
  | chunkComplete (p : Ev.Chunk)
  /-- `COPY_FAULT_SETTLE` (R276): After started chunks settle, the engine sets FAULT on the arrival words of an ended copy. -/
  | copyFaultSettle (p : Ev.CopyRef)
  /-- `COPY_QUIESCE_TIMEOUT` (R282): The copy engine fails to quiesce within 4 µs and the group ends with HWERR. -/
  | copyQuiesceTimeout (p : Ev.GroupRef)
  /-- `MATRIX_OP_DEQUEUE` (R315): An engine operation leaves its stream's queue and proceeds to Kennel, fill or tile rule. -/
  | matrixOpDequeue (p : Ev.GroupRef)
  /-- `KENNEL_DEADLINE` (R304): A Kennel slot reaches its deadline and commits as a stacked operation. -/
  | kennelDeadline (p : Ev.EngineRef)
  /-- `ENGINE_ENTRY` (R307): The engine chooses a ready operation and it enters L0 with its layer sample. -/
  | engineEntry (p : Ev.EngineRef)
  /-- `MATRIX_RESULT_WRITE` (R287): An operation's results and fold word are written after its latency. -/
  | matrixResultWrite (p : Ev.EngineRef)
  /-- `WEIGHT_FILL_COMPLETE` (R322): A weight-buffer fill finishes or fails. -/
  | weightFillComplete (p : Ev.EngineRef)
  /-- `DRAIN_ROW_PERFORM` (R326): A drained row has performed and makes its arrival. -/
  | drainRowPerform (p : Ev.DrainRow)
  /-- `MSIG_ARRIVAL` (R328): After earlier stream operations complete, MSIG makes its release arrival. -/
  | msigArrival (p : Ev.MopRef)
  /-- `TASK_DISPATCH` (R354): Once per scoreboard cycle the dispatcher places the head of the highest-ranked startable queue. -/
  | taskDispatch (p : Ev.Tower)
  /-- `GANG_RESERVATION` (R358): A gang member core's reservation completes, committing the gang after the last. -/
  | gangReservation (p : Ev.Gang)
  /-- `GANG_RESERVATION_TIMEOUT` (R358): A gang not committed 48 cycles after its first reservation is cancelled. -/
  | gangReservationTimeout (p : Ev.Tower)
  /-- `TILE_RETIRE` (R145): A tile task retires once its events have performed and its engine operations completed. -/
  | tileRetire (p : Ev.GroupRef)
  /-- `UCIE_MIRROR_MESSAGE` (R365): A sequenced Trellis mirror message from the other tower takes effect. -/
  | ucieMirrorMessage (p : Ev.Mirror)
  /-- `REEXEC_PLACEMENT_TIMEOUT` (R360): A re-execution unplaced for 10 µs pre-empts the lowest-class waiting group. -/
  | reexecPlacementTimeout (p : Ev.Tower)
  /-- `PREEMPTION_TIMEOUT` (R393): A higher-priority head tile unable to start for 10 µs causes lower-priority groups to be saved. -/
  | preemptionTimeout (p : Ev.Tower)
  /-- `CONTEXT_SAVE` (R394): A group is halted, quiesced and written to a save record. -/
  | contextSave (p : Ev.GroupRef)
  /-- `CONTEXT_RESTORE` (R399): A saved group is placed and its sections, pins and residuals restored. -/
  | contextRestore (p : Ev.GroupRef)
  /-- `STARVATION_RESTORE` (R400): A context pre-empted for 2 ms has its oldest saved group restored. -/
  | starvationRestore (p : Ev.Ctx)
  /-- `SUBMISSION_CONSUME` (R419): Tower 0's graph engine consumes a queued launch record when slots and launch room allow. -/
  | submissionConsume (p : Ev.Queue)
  /-- `SQ_DOORBELL` (R419): A host write of SQTAIL is checked and advances the queue tail. -/
  | sqDoorbell (p : Ev.Write)
  /-- `ATTACH_WRITE` (R416): A write of ATTACH.PROTO attaches the driver if the protocol is accepted. -/
  | attachWrite (p : Ev.Write)
  /-- `CTX_CSPLIT_WRITE` (R421): A host write of a context's CSPLIT performs a CSPLIT of both towers. -/
  | ctxCsplitWrite (p : Ev.Write)
  /-- `REGISTER_WRITE` (R13): A write to a register without behaviour of its own, under its access code. -/
  | registerWrite (p : Ev.RegWrite)
  /-- `HOST_BAR2_ACCESS` (R414): A host read or write of GDDR 7 through BAR2 as a SYS-scope event. -/
  | hostBar2Access (p : Ev.Bar2)
  /-- `HOST_ATOMICOP` (R412): A host PCIe AtomicOp completed by the device. -/
  | hostAtomicop (p : Ev.AtomicOp)
  /-- `FB_RELEASE` (R98): FBREPLAY releases one fault-buffer entry and its waiters retry. -/
  | fbRelease (p : Ev.TowerEntry)
  /-- `FB_RELEASE_ALL` (R98): FBREPLAY.ALL releases every valid fault-buffer entry. -/
  | fbReleaseAll (p : Ev.Tower)
  /-- `FB_ABORT` (R98): FBREPLAY with ABORT delivers the fault to the entry's waiters. -/
  | fbAbort (p : Ev.FbAbort)
  /-- `LOST_LINE_ENTRY_CLEAR` (R106): Writing 1 to a lost-line log entry's bit 0 clears it. -/
  | lostLineEntryClear (p : Ev.TowerEntry)
  /-- `FLIPS_READ` (R426): A read of FLIPS and DROPS returns and clears the counts. -/
  | flipsRead (p : Ev.ReadClear)
  /-- `GDDR_COUNTER_READ` (R441): A read of a GDDR 7 error counter returns and clears it. -/
  | gddrCounterRead (p : Ev.ReadClear)
  /-- `SENTINEL_COUNTER_READ` (R442): A read of a sentinel counter returns and clears it. -/
  | sentinelCounterRead (p : Ev.ReadClear)
  /-- `MGCMD_GATE` (R443): MGCMD op 1 gates a column layer, saving the affected groups. -/
  | mgcmdGate (p : Ev.MgOp)
  /-- `MGCMD_UNGATE` (R443): MGCMD op 2 powers a column layer up. -/
  | mgcmdUngate (p : Ev.MgOp)
  /-- `MGCMD_RETIRE_BUS` (R117): MGCMD op 3 retires the vertical bus above a bank. -/
  | mgcmdRetireBus (p : Ev.MgOp)
  /-- `MGCMD_SHUTDOWN_LAYER` (R116): MGCMD op 4 orders a cache-layer shutdown of one die of a tower. -/
  | mgcmdShutdownLayer (p : Ev.MgOp)
  /-- `MGCMD_COMPLETE` (R444): A management command ends, writing STATUS, clearing BUSY and raising the interrupt. -/
  | mgcmdComplete
  /-- `ATTESTATION_REQUEST` (R433): A write of ATTCTL bit 0 starts an attestation report over the nonce. -/
  | attestationRequest
  /-- `ATTESTATION_COMPLETE` (R433): The signed attestation report is written and ATTCTL bit 0 clears. -/
  | attestationComplete
  /-- `POWER_ON` (R429): The stack input rail rises and bring-up runs its steps in order. -/
  | powerOn
  /-- `HEARTBEAT_TICK` (R138): The heartbeat count advances by one in both towers. -/
  | heartbeatTick
  /-- `TIME_SYNC` (R425): 802.1AS time from a port disciplines the heartbeat period, or lock is lost. -/
  | timeSync (p : Ev.TimeSync)
  /-- `READ_COUNT_WINDOW` (R111): A bank's 1,024-cycle read-count window ends and the counts restart. -/
  | readCountWindow (p : Ev.Bank)
  /-- `LINE_REPLICATION` (R111): A read-only line reaching 256 reads in a window is replicated with redirects. -/
  | lineReplication (p : Ev.Line)
  /-- `LOOP_PORT_POWER_DOWN` (R112): A loop station idle for 4,096 cycles powers its ports down. -/
  | loopPortPowerDown (p : Ev.Station)
  /-- `LOOP_PORT_WAKE` (R112): A flit waiting at a powered-down station proceeds after 32 cycles. -/
  | loopPortWake (p : Ev.Station)
  /-- `DIRTY_BUDGET_WRITEBACK` (R115): A cache die over its dirty budget writes back lines in LRU order. -/
  | dirtyBudgetWriteback (p : Ev.Die)
  /-- `CACHE_LAYER_SHUTDOWN` (R116): A cache die stops allocating, writes back, re-homes lines, loses ring slots and powers off. -/
  | cacheLayerShutdown (p : Ev.Die)
  /-- `BUS_EVACUATION` (R117): The bank below a retired bus is written back, its slots moved, and spare or compaction applied. -/
  | busEvacuation (p : Ev.Bank)
  /-- `COLUMN_REMOVAL` (R4): After its running groups end, the retired column is removed from placement. -/
  | columnRemoval (p : Ev.Column)
  /-- `GDDR_TRANSFER_ERROR` (R441): A GDDR 7 transfer fails its CRC or error signal and is retried and counted. -/
  | gddrTransferError (p : Ev.GddrError)
  /-- `VF_CONTROL_TICK` (R437): Every 100 µs each layer's operating point moves one step under its limits. -/
  | vfControlTick
  /-- `VF_TRANSITION_COMPLETE` (R436): A layer's voltage-frequency transition completes. -/
  | vfTransitionComplete (p : Ev.Layer)
  /-- `SENSOR_SAMPLE` (R438): Every 20 µs each layer's temperature sensors are sampled. -/
  | sensorSample (p : Ev.Sensors)
  /-- `THERMAL_POWER_DOWN` (R439): X0 or P still at CRIT after 1 ms ends the tower's groups and powers the package down. -/
  | thermalPowerDown (p : Ev.Tower)
  /-- `SENTINEL_RUN` (R442): Every millisecond each column runs sentinel vectors through its pipes and matrix layers. -/
  | sentinelRun (p : Ev.Sentinel)
  /-- `UCIE_LINK_DOWN` (R424): A flit failing 16 consecutive retries takes the UCIe link down. -/
  | ucieLinkDown
  /-- `ETH_READY_MESSAGE` (R366): A sequenced READY frame from the peer card takes effect. -/
  | ethReadyMessage (p : Ev.Frame)
  /-- `ETH_LAUNCH_RECORD` (R425): A launch-record frame feeds the matching remote queue or is dropped. -/
  | ethLaunchRecord (p : Ev.Frame)
  /-- `ETH_COMPLETION` (R425): A completion frame from a peer card is received. -/
  | ethCompletion (p : Ev.Frame)
  /-- `ETH_ACK` (R425): An acknowledgement frame is received. -/
  | ethAck (p : Ev.Frame)
  /-- `ETH_STREAM_DATA` (R425): A stream-data frame is received. -/
  | ethStreamData (p : Ev.Frame)
  /-- `ETH_RETRANSMIT` (R425): An unacknowledged frame is retransmitted after 100 µs. -/
  | ethRetransmit (p : Ev.Port)
  /-- `ETH_PEER_TIMEOUT` (R425): A peer silent for 10 ms aborts every shared launch. -/
  | ethPeerTimeout (p : Ev.Port)
  /-- `VBLANK` (R427): At vertical blank a pending surface is copied to SURF and FLIPS incremented. -/
  | vblank (p : Ev.Head)
  /-- `UNASSIGNED_ENCODING` (R72): Issue of a word that no opcode map assigns, such as an unassigned opcode, function or engine, 0xFFFF_FFFF, a class-4 word with C = 1 in a stream, or a lone PFX in word 2, which raises EMULATE or ENCODING. -/
  | unassignedEncoding (p : Ev.Bad)
  /-- `HOST_RELEASES_RESET` (R429): The host releases PCIe reset, so PCIe training at bring-up step 6 completes and bring-up continues to steps 7 to 9. -/
  | hostReleasesReset
  deriving DecidableEq, Repr

end Sys2Proof
end

