-- ==== Sys2Proof/WellFormed.lean ====
section
/-! DEFINITION.  The rules an instruction word meets beside its fixed fields: register alignment
(R56), scope codes (R57), accumulator numbers (R56), special-register numbers (R64), sub codes and
orders of the words' own entries.  Each violation carries the REASON of R386. -/

namespace Sys2Proof

/-- Why a 32-bit pattern is not an instruction (R72, R386). -/
inductive Reject where
  /-- 0x0000_0000 or 0xFFFF_FFFF: EMULATE with the never-assigned flag. -/
  | never
  /-- A class-4 word with C = 1: ENCODING in a matrix stream, ROLE in a warp stream. -/
  | chain4
  /-- A PFX word where an instruction was expected (R60). -/
  | pfxWord
  /-- Fewer than four bytes were given. -/
  | short
  /-- EMULATE with this REASON of R386. -/
  | emulate (reason : Nat)
  deriving DecidableEq, Repr

/-- The fields of a PFX word, hints left out (R59). -/
structure Pfx where
  /-- The word itself, as the operand windows record it (R386). -/
  word : Word
  /-- C, which must be 0 (R60). -/
  chain : Bool
  /-- Mask predicate; 0 means no mask. -/
  mp : BitVec 4
  /-- Masked-off lanes of the destination are zeroed. -/
  z : Bool
  /-- Rounding-mode code of R27. -/
  rm : BitVec 3
  /-- Fourth operand register. -/
  c : BitVec 7
  /-- `c` is valid. -/
  cv : Bool
  /-- The reserved-zero bits [11:8]. -/
  rz : BitVec 4
  deriving DecidableEq, Repr

namespace WF

/-- The low bit of a register field is 0: the register of a pair (R56). -/
def even {n : Nat} (x : BitVec n) : Bool := !x.getLsbD 0
/-- The register number is a multiple of 4: the register of a quad (R56). -/
def quad {n : Nat} (x : BitVec n) : Bool := !x.getLsbD 0 && !x.getLsbD 1
/-- With S = 1, b[6] is reserved-zero (R54). -/
def sB (b : BitVec 7) (s : BitVec 1) : Bool := !(s.getLsbD 0 && b.getLsbD 6)
/-- A field rule of reserved-zero bits (REASON 3). -/
def rz (ok : Bool) : Option Reject := if ok then none else some (.emulate 3)
/-- A rule with its REASON. -/
def rule (reason : Nat) (ok : Bool) : Option Reject := if ok then none else some (.emulate reason)
/-- The special-register numbers that R64 and R87, R393 assign. -/
def sregAssigned (n : Nat) : Bool :=
  n ≤ 0x05 || (0x08 ≤ n && n ≤ 0x11) || (0x18 ≤ n && n ≤ 0x2C) || n == 0x30 ||
  (0x38 ≤ n && n ≤ 0x3A) || (0x40 ≤ n && n ≤ 0x48)

end WF

open WF in
/-- The first static rule a word breaks, if any.  Reserved bits come first, then the scope and the
accumulator number, then the rules of the word's own entry. -/
def Instr.check (i : Instr) : Option Reject :=
  match i with
  | .vaddS32 f => rz (sB f.b f.s)
  | .vsubS32 f => rz (sB f.b f.s)
  | .vmulS32 f => rz (sB f.b f.s)
  | .vmulhS32 f => rz (sB f.b f.s)
  | .vmulhZ32 f => rz (sB f.b f.s)
  | .vmadS32 f => rz (sB f.b f.s)
  | .vminS32 f => rz (sB f.b f.s)
  | .vmaxS32 f => rz (sB f.b f.s)
  | .vminZ32 f => rz (sB f.b f.s)
  | .vmaxZ32 f => rz (sB f.b f.s)
  | .vand f => rz (sB f.b f.s)
  | .vor f => rz (sB f.b f.s)
  | .vxor f => rz (sB f.b f.s)
  | .vandn f => rz (sB f.b f.s)
  | .vshl f => rz (sB f.b f.s)
  | .vshr f => rz (sB f.b f.s)
  | .vsar f => rz (sB f.b f.s)
  | .vaddi _ => none
  | .vmovi _ => none
  | .vcmp f => rz (sB f.b f.s)
  | .vcmpi _ => none
  | .vsel f => rz (sB f.b f.s)
  | .vclz _ => none
  | .vpopc _ => none
  | .vbrev _ => none
  | .vbins f => rz (sB f.b f.s)
  | .vffcs f => rz (even f.a && f.d != f.a && f.d != f.a + 1)
  | .vplset f => rz (sB f.b f.s)
  | .vextr f => rz (sB f.b f.s)
  | .vshflIdx f => rz (sB f.b f.s)
  | .vshflXor f => rz (sB f.b f.s)
  | .vshflUp f => rz (sB f.b f.s)
  | .vshflDn f => rz (sB f.b f.s)
  | .vvote f => rule 10 (decide (f.u.toNat < 4))
  | .vred f => rule 10 (decide (f.u.toNat < 8))
  | .vscan _ => none
  | .vmovV _ => none
  | .vmovS _ => none
  | .vbcast _ => none
  | .vlaneid _ => none
  | .vmovs _ => none
  | .vaddS64 f => rz (sB f.b f.s && even f.d && even f.a && (f.s.getLsbD 0 || even f.b))
  | .vmulWideS32 f => rz (sB f.b f.s && even f.d)
  | .vmadWideZ32 f => rz (sB f.b f.s && even f.d)
  | .vaddF32 f => rz (sB f.b f.s)
  | .vsubF32 f => rz (sB f.b f.s)
  | .vmulF32 f => rz (sB f.b f.s)
  | .vfmaF32 f => rz (sB f.b f.s)
  | .vminF32 f => rz (sB f.b f.s)
  | .vmaxF32 f => rz (sB f.b f.s)
  | .vcmpF32 f => rz (sB f.b f.s)
  | .vclassF32 _ => none
  | .vsgnj f => rz (sB f.b f.s)
  | .vrndF32 _ => none
  | .vaddH2 f => rz (sB f.b f.s)
  | .vmulH2 f => rz (sB f.b f.s)
  | .vfmaH2 f => rz (sB f.b f.s)
  | .vaddB2 f => rz (sB f.b f.s)
  | .vmulB2 f => rz (sB f.b f.s)
  | .vfmaB2 f => rz (sB f.b f.s)
  | .vdot2B2 f => rz (sB f.b f.s)
  | .vdot4T8 f => rz (sB f.b f.s)
  | .vcvtF32S32 _ => none
  | .vcvtS32F32 _ => none
  | .vcvtF32Z32 _ => none
  | .vcvtZ32F32 _ => none
  | .vcvtH2F32 f => rz (sB f.b f.s)
  | .vcvtF32H f => rz (even f.d)
  | .vcvtB2F32 f => rz (sB f.b f.s)
  | .vcvtF32B f => rz (even f.d)
  | .vcvtT8F32 f => rz (sB f.b f.s && quad f.a)
  | .vcvtF32T8 f => rz (sB f.b f.s && quad f.d)
  | .vcvtT6F32 f => rz (sB f.b f.s)
  | .vcvtF32T6 f => rz (sB f.b f.s)
  | .vbscale f => rz (sB f.b f.s && quad f.a)
  | .vcvtS8F32 f => rz (sB f.b f.s && quad f.a)
  | .vsin _ => none
  | .vcos _ => none
  | .vatan2 f => rz (even f.a)
  | .vexp2 _ => none
  | .vlog2 _ => none
  | .vsqrt _ => none
  | .vrsq _ => none
  | .vrcp _ => none
  | .vtanh _ => none
  | .vsigm _ => none
  | .vrbox f => rz (sB f.b f.s && even f.d) <|> rule 10 (!f.s.getLsbD 0 || decide (f.b.toNat + 5 < 64))
  | .vrtri f => rz (sB f.b f.s && quad f.d) <|> rule 10 (!f.s.getLsbD 0 || decide (f.b.toNat + 8 < 64))
  | .ldZ8 f => rz (even f.a)
  | .ldS8 f => rz (even f.a)
  | .ldZ16 f => rz (even f.a)
  | .ldS16 f => rz (even f.a)
  | .ld32 f => rz (even f.a)
  | .ld64 f => rz (even f.a && even f.d)
  | .ld128 f => rz (even f.a && quad f.d)
  | .st8 f => rz (even f.a)
  | .st16 f => rz (even f.a)
  | .st32 f => rz (even f.a)
  | .st64 f => rz (even f.a && even f.d)
  | .st128 f => rz (even f.a && quad f.d)
  | .lds32 _ => none
  | .lds64 f => rz (even f.d)
  | .lds128 f => rz (quad f.d)
  | .sts32 _ => none
  | .sts64 f => rz (even f.d)
  | .sts128 f => rz (quad f.d)
  | .aaddS32 f => rz (even f.a) <|> rule 4 (decide (f.e.toNat < 6))
  | .aaddF32 f => rz (even f.a) <|> rule 4 (decide (f.e.toNat < 6))
  | .aminS32 f => rz (even f.a) <|> rule 4 (decide (f.e.toNat < 6))
  | .amaxS32 f => rz (even f.a) <|> rule 4 (decide (f.e.toNat < 6))
  | .aminZ32 f => rz (even f.a) <|> rule 4 (decide (f.e.toNat < 6))
  | .amaxZ32 f => rz (even f.a) <|> rule 4 (decide (f.e.toNat < 6))
  | .aand f => rz (even f.a) <|> rule 4 (decide (f.e.toNat < 6))
  | .aor f => rz (even f.a) <|> rule 4 (decide (f.e.toNat < 6))
  | .axor f => rz (even f.a) <|> rule 4 (decide (f.e.toNat < 6))
  | .axchg f => rz (even f.a) <|> rule 4 (decide (f.e.toNat < 6))
  | .acas f => rz (even f.a && even f.d) <|> rule 4 (decide (f.e.toNat < 6))
  | .aaddS64 f => rz (even f.a && even f.d) <|> rule 4 (decide (f.e.toNat < 6))
  | .affcs64 f => rz (even f.a && (f.t.getLsbD 0 || f.d == 0)) <|> rule 4 (decide (f.e.toNat < 6))
  | .fence f => rule 4 (decide (f.e.toNat < 6))
  | .fenceSc _ => none
  | .waitw f => rz (even f.a && even f.d)
  | .sarm _ => none
  | .swait f => rz (even f.a)
  | .sarr _ => none
  | .vfpush _ => none
  | .vfpop _ => none
  | .vftry _ => none
  | .pref f => rz (even f.a)
  | .ldtxBl f => rz (quad f.a)
  | .ald32 f => rz (even f.a) <|> rule 4 (decide (f.e.toNat < 6)) <|> rule 10 (decide (f.r.toNat < 2))
  | .ast32 f => rz (even f.a) <|> rule 4 (decide (f.e.toNat < 6)) <|> rule 10 (f.r == 0 || f.r == 2)
  | .bra _ => none
  | .bru _ => none
  | .jmpr f => rz (even f.a)
  | .call _ => none
  | .callr f => rz (even f.a)
  | .ret _ => none
  | .fork _ => none
  | .fexit _ => none
  | .jset _ => none
  | .join _ => none
  | .jdrop _ => none
  | .yield _ => none
  | .nopk _ => none
  | .trap _ => none
  | .brk _ => none
  | .emuret _ => none
  | .brw _ => none
  | .mma f => rule 5 (decide (f.a.toNat < 768))
  | .mmas f => rule 5 (decide (f.a.toNat < 768))
  | .mwld _ => none
  | .mzero f => rule 5 (decide (f.a.toNat < 768))
  | .mdrain f => rule 5 (decide (f.a.toNat < 768))
  | .mlacc f => rule 5 (decide (f.a.toNat < 768))
  | .mwait _ => none
  | .msig f => rule 4 (decide (f.e.toNat < 6))
  | .mli _ => none
  | .maddq _ => none
  | .mloop _ => none
  | .mbra _ => none
  | .mend => none
  | .mstat _ => none
  | .mprio _ => none
  | .mfence f => rule 4 (decide (f.e.toNat < 6))
  | .mldq _ => none
  | .cshape _ => none
  | .cget _ => none
  | .cput _ => none
  | .cgath _ => none
  | .cmcast _ => none
  | .cring _ => none
  | .cresume _ => none
  | .ccancel _ => none
  | .cstat _ => none
  | .tspawn _ => none
  | .tsucc _ => none
  | .fsopen _ => none
  | .fsclose _ => none
  | .fsadd _ => none
  | .tretire _ => none
  | .glaunch _ => none
  | .gprio _ => none
  | .telrd _ => none
  | .pgreq _ => none
  | .icinv _ => none
  | .cflush _ => none
  | .csplit _ => none
  | .tlbinv _ => none
  | .patch _ => none
  | .sadd _ => none
  | .ssub _ => none
  | .smul _ => none
  | .sand _ => none
  | .sor _ => none
  | .sxor _ => none
  | .sshl _ => none
  | .sshr _ => none
  | .ssar _ => none
  | .smin _ => none
  | .smax _ => none
  | .sminz _ => none
  | .smaxz _ => none
  | .saddi _ => none
  | .sli _ => none
  | .slih _ => none
  | .scmp _ => none
  | .sld64 _ => none
  | .sst64 _ => none
  | .sld32 _ => none
  | .srd f => rule 8 (sregAssigned f.n.toNat)
  | .swr f => rule 8 (sregAssigned f.n.toNat)
  | .sxch f => rule 8 (sregAssigned f.n.toNat)
  | .wbind _ => none
  | .wrd _ => none
  | .wrst _ => none
  | .sffcs f => rule 10 (f.d != f.a)
  | .splset _ => none
  | .sbins _ => none
  | .spopc _ => none
  | .sclz _ => none
  | .emurd f => rule 10 (decide (f.u.toNat < 6))
  | .emuwr f => rule 10 (decide (f.u.toNat < 6))
  | .accrd _ => none
  | .accwr _ => none
  | .loadReturn _ => none
  | .commandReply _ => none
  | .fenceScComplete _ => none
  | .watchdogExpiry _ => none
  | .haltComplete _ => none
  | .chunkComplete _ => none
  | .copyFaultSettle _ => none
  | .copyQuiesceTimeout _ => none
  | .matrixOpDequeue _ => none
  | .kennelDeadline _ => none
  | .engineEntry _ => none
  | .matrixResultWrite _ => none
  | .weightFillComplete _ => none
  | .drainRowPerform _ => none
  | .msigArrival _ => none
  | .taskDispatch _ => none
  | .gangReservation _ => none
  | .gangReservationTimeout _ => none
  | .tileRetire _ => none
  | .ucieMirrorMessage _ => none
  | .reexecPlacementTimeout _ => none
  | .preemptionTimeout _ => none
  | .contextSave _ => none
  | .contextRestore _ => none
  | .starvationRestore _ => none
  | .submissionConsume _ => none
  | .sqDoorbell _ => none
  | .attachWrite _ => none
  | .ctxCsplitWrite _ => none
  | .registerWrite _ => none
  | .hostBar2Access _ => none
  | .hostAtomicop _ => none
  | .fbRelease _ => none
  | .fbReleaseAll _ => none
  | .fbAbort _ => none
  | .lostLineEntryClear _ => none
  | .flipsRead _ => none
  | .gddrCounterRead _ => none
  | .sentinelCounterRead _ => none
  | .mgcmdGate _ => none
  | .mgcmdUngate _ => none
  | .mgcmdRetireBus _ => none
  | .mgcmdShutdownLayer _ => none
  | .mgcmdComplete => none
  | .attestationRequest => none
  | .attestationComplete => none
  | .powerOn => none
  | .heartbeatTick => none
  | .timeSync _ => none
  | .readCountWindow _ => none
  | .lineReplication _ => none
  | .loopPortPowerDown _ => none
  | .loopPortWake _ => none
  | .dirtyBudgetWriteback _ => none
  | .cacheLayerShutdown _ => none
  | .busEvacuation _ => none
  | .columnRemoval _ => none
  | .gddrTransferError _ => none
  | .vfControlTick => none
  | .vfTransitionComplete _ => none
  | .sensorSample _ => none
  | .thermalPowerDown _ => none
  | .sentinelRun _ => none
  | .ucieLinkDown => none
  | .ethReadyMessage _ => none
  | .ethLaunchRecord _ => none
  | .ethCompletion _ => none
  | .ethAck _ => none
  | .ethStreamData _ => none
  | .ethRetransmit _ => none
  | .ethPeerTimeout _ => none
  | .vblank _ => none
  | .unassignedEncoding _ => none
  | .hostReleasesReset => none

/-- A word that breaks no static rule; every event is one. -/
def Instr.wellFormed (i : Instr) : Bool := i.check.isNone

end Sys2Proof
end

