-- ==== Sys2Proof/Decode.lean ====
section
/-! DEFINITION.  The decoder, total on every 32-bit pattern and rejecting by name (R72, R386), and the
encoder, both from the encoding tables of R54 and R65 to R71. -/

namespace Sys2Proof

/-- The word of a FmtR record under the fixed bits `op` (R54). -/
def FmtR.bits (op : BitVec 9) (f : FmtR) : Word :=
  f.c ++ op ++ f.d ++ f.a ++ f.b ++ f.s
/-- The operand fields of a word, read as FmtR (R54). -/
def FmtR.ofWord (w : Word) : FmtR :=
  { c := w.extractLsb' 31 1, d := w.extractLsb' 15 7, a := w.extractLsb' 8 7, b := w.extractLsb' 1 7, s := w.extractLsb' 0 1 }

/-- The word of a FmtI record under the fixed bits `op` (R54). -/
def FmtI.bits (op : BitVec 9) (f : FmtI) : Word :=
  f.c ++ op ++ f.d ++ f.a ++ f.i
/-- The operand fields of a word, read as FmtI (R54). -/
def FmtI.ofWord (w : Word) : FmtI :=
  { c := w.extractLsb' 31 1, d := w.extractLsb' 15 7, a := w.extractLsb' 8 7, i := w.extractLsb' 0 8 }

/-- The word of a FmtL record under the fixed bits `op` (R54). -/
def FmtL.bits (op : BitVec 9) (f : FmtL) : Word :=
  f.c ++ op ++ f.d ++ f.i
/-- The operand fields of a word, read as FmtL (R54). -/
def FmtL.ofWord (w : Word) : FmtL :=
  { c := w.extractLsb' 31 1, d := w.extractLsb' 15 7, i := w.extractLsb' 0 15 }

/-- The word of a FmtP record under the fixed bits `op` (R54). -/
def FmtP.bits (op : BitVec 9) (f : FmtP) : Word :=
  f.c ++ op ++ f.p ++ f.k ++ f.a ++ f.b ++ f.s
/-- The operand fields of a word, read as FmtP (R54). -/
def FmtP.ofWord (w : Word) : FmtP :=
  { c := w.extractLsb' 31 1, p := w.extractLsb' 18 4, k := w.extractLsb' 15 3, a := w.extractLsb' 8 7, b := w.extractLsb' 1 7, s := w.extractLsb' 0 1 }

/-- The word of a FmtPI record under the fixed bits `op` (R54). -/
def FmtPI.bits (op : BitVec 9) (f : FmtPI) : Word :=
  f.c ++ op ++ f.p ++ f.k ++ f.a ++ f.i
/-- The operand fields of a word, read as FmtPI (R54). -/
def FmtPI.ofWord (w : Word) : FmtPI :=
  { c := w.extractLsb' 31 1, p := w.extractLsb' 18 4, k := w.extractLsb' 15 3, a := w.extractLsb' 8 7, i := w.extractLsb' 0 8 }

/-- The word of a FmtDA record under the fixed bits `op` (R54). -/
def FmtDA.bits (op : BitVec 9) (f : FmtDA) : Word :=
  f.c ++ op ++ f.d ++ f.a ++ (0 : BitVec 8)
/-- The operand fields of a word, read as FmtDA (R54). -/
def FmtDA.ofWord (w : Word) : FmtDA :=
  { c := w.extractLsb' 31 1, d := w.extractLsb' 15 7, a := w.extractLsb' 8 7 }

/-- The word of a FmtRS record under the fixed bits `op` (R54). -/
def FmtRS.bits (op : BitVec 9) (f : FmtRS) : Word :=
  f.c ++ op ++ f.d ++ f.a ++ f.u ++ (0 : BitVec 4)
/-- The operand fields of a word, read as FmtRS (R54). -/
def FmtRS.ofWord (w : Word) : FmtRS :=
  { c := w.extractLsb' 31 1, d := w.extractLsb' 15 7, a := w.extractLsb' 8 7, u := w.extractLsb' 4 4 }

/-- The word of a FmtDS record under the fixed bits `op` (R54). -/
def FmtDS.bits (op : BitVec 9) (f : FmtDS) : Word :=
  f.c ++ op ++ f.d ++ (0 : BitVec 8) ++ f.b ++ (1 : BitVec 1)
/-- The operand fields of a word, read as FmtDS (R54). -/
def FmtDS.ofWord (w : Word) : FmtDS :=
  { c := w.extractLsb' 31 1, d := w.extractLsb' 15 7, b := w.extractLsb' 1 6 }

/-- The word of a FmtBcast record under the fixed bits `op` (R54). -/
def FmtBcast.bits (op : BitVec 9) (f : FmtBcast) : Word :=
  f.c ++ op ++ f.d ++ f.a ++ (0 : BitVec 3) ++ f.i
/-- The operand fields of a word, read as FmtBcast (R54). -/
def FmtBcast.ofWord (w : Word) : FmtBcast :=
  { c := w.extractLsb' 31 1, d := w.extractLsb' 15 7, a := w.extractLsb' 8 7, i := w.extractLsb' 0 5 }

/-- The word of a FmtD record under the fixed bits `op` (R54). -/
def FmtD.bits (op : BitVec 9) (f : FmtD) : Word :=
  f.c ++ op ++ f.d ++ (0 : BitVec 15)
/-- The operand fields of a word, read as FmtD (R54). -/
def FmtD.ofWord (w : Word) : FmtD :=
  { c := w.extractLsb' 31 1, d := w.extractLsb' 15 7 }

/-- The word of a FmtMovs record under the fixed bits `op` (R54). -/
def FmtMovs.bits (op : BitVec 9) (f : FmtMovs) : Word :=
  f.c ++ op ++ (0 : BitVec 1) ++ f.d ++ f.a ++ (0 : BitVec 2) ++ f.l ++ (0 : BitVec 1)
/-- The operand fields of a word, read as FmtMovs (R54). -/
def FmtMovs.ofWord (w : Word) : FmtMovs :=
  { c := w.extractLsb' 31 1, d := w.extractLsb' 15 6, a := w.extractLsb' 8 7, l := w.extractLsb' 1 5 }

/-- The word of a FmtU record under the fixed bits `op` (R54). -/
def FmtU.bits (op : BitVec 9) (f : FmtU) : Word :=
  f.c ++ op ++ f.d ++ f.a ++ f.n ++ (0 : BitVec 4)
/-- The operand fields of a word, read as FmtU (R54). -/
def FmtU.ofWord (w : Word) : FmtU :=
  { c := w.extractLsb' 31 1, d := w.extractLsb' 15 7, a := w.extractLsb' 8 7, n := w.extractLsb' 4 4 }

/-- The word of a FmtM record under the fixed bits `op` (R54). -/
def FmtM.bits (op : BitVec 9) (f : FmtM) : Word :=
  f.c ++ op ++ f.d ++ f.a ++ f.h ++ f.x ++ f.o
/-- The operand fields of a word, read as FmtM (R54). -/
def FmtM.ofWord (w : Word) : FmtM :=
  { c := w.extractLsb' 31 1, d := w.extractLsb' 15 7, a := w.extractLsb' 8 7, h := w.extractLsb' 6 2, x := w.extractLsb' 5 1, o := w.extractLsb' 0 5 }

/-- The word of a FmtMA record under the fixed bits `op` (R54). -/
def FmtMA.bits (op : BitVec 9) (f : FmtMA) : Word :=
  f.c ++ op ++ f.d ++ f.a ++ f.e ++ f.r ++ f.t ++ (0 : BitVec 2)
/-- The operand fields of a word, read as FmtMA (R54). -/
def FmtMA.ofWord (w : Word) : FmtMA :=
  { c := w.extractLsb' 31 1, d := w.extractLsb' 15 7, a := w.extractLsb' 8 7, e := w.extractLsb' 5 3, r := w.extractLsb' 3 2, t := w.extractLsb' 2 1 }

/-- The word of a FmtF record under the fixed bits `op` (R54). -/
def FmtF.bits (op : BitVec 9) (f : FmtF) : Word :=
  f.c ++ op ++ f.e ++ f.r ++ (0 : BitVec 17)
/-- The operand fields of a word, read as FmtF (R54). -/
def FmtF.ofWord (w : Word) : FmtF :=
  { c := w.extractLsb' 31 1, e := w.extractLsb' 19 3, r := w.extractLsb' 17 2 }

/-- The word of a FmtZ record under the fixed bits `op` (R54). -/
def FmtZ.bits (op : BitVec 9) (f : FmtZ) : Word :=
  f.c ++ op ++ (0 : BitVec 22)
/-- The operand fields of a word, read as FmtZ (R54). -/
def FmtZ.ofWord (w : Word) : FmtZ :=
  { c := w.extractLsb' 31 1 }

/-- The word of a FmtSwait record under the fixed bits `op` (R54). -/
def FmtSwait.bits (op : BitVec 9) (f : FmtSwait) : Word :=
  f.c ++ op ++ (0 : BitVec 3) ++ f.p ++ f.a ++ f.h ++ f.x ++ f.o
/-- The operand fields of a word, read as FmtSwait (R54). -/
def FmtSwait.ofWord (w : Word) : FmtSwait :=
  { c := w.extractLsb' 31 1, p := w.extractLsb' 15 4, a := w.extractLsb' 8 7, h := w.extractLsb' 6 2, x := w.extractLsb' 5 1, o := w.extractLsb' 0 5 }

/-- The word of a FmtA record under the fixed bits `op` (R54). -/
def FmtA.bits (op : BitVec 9) (f : FmtA) : Word :=
  f.c ++ op ++ (0 : BitVec 7) ++ f.a ++ (0 : BitVec 8)
/-- The operand fields of a word, read as FmtA (R54). -/
def FmtA.ofWord (w : Word) : FmtA :=
  { c := w.extractLsb' 31 1, a := w.extractLsb' 8 7 }

/-- The word of a FmtTry record under the fixed bits `op` (R54). -/
def FmtTry.bits (op : BitVec 9) (f : FmtTry) : Word :=
  f.c ++ op ++ f.d ++ (0 : BitVec 3) ++ f.p ++ (0 : BitVec 8)
/-- The operand fields of a word, read as FmtTry (R54). -/
def FmtTry.ofWord (w : Word) : FmtTry :=
  { c := w.extractLsb' 31 1, d := w.extractLsb' 15 7, p := w.extractLsb' 8 4 }

/-- The word of a FmtPref record under the fixed bits `op` (R54). -/
def FmtPref.bits (op : BitVec 9) (f : FmtPref) : Word :=
  f.c ++ op ++ (0 : BitVec 6) ++ f.t ++ f.a ++ f.h ++ f.x ++ f.o
/-- The operand fields of a word, read as FmtPref (R54). -/
def FmtPref.ofWord (w : Word) : FmtPref :=
  { c := w.extractLsb' 31 1, t := w.extractLsb' 15 1, a := w.extractLsb' 8 7, h := w.extractLsb' 6 2, x := w.extractLsb' 5 1, o := w.extractLsb' 0 5 }

/-- The word of a FmtMO record under the fixed bits `op` (R54). -/
def FmtMO.bits (op : BitVec 9) (f : FmtMO) : Word :=
  f.c ++ op ++ f.d ++ f.a ++ f.e ++ f.r ++ (0 : BitVec 3)
/-- The operand fields of a word, read as FmtMO (R54). -/
def FmtMO.ofWord (w : Word) : FmtMO :=
  { c := w.extractLsb' 31 1, d := w.extractLsb' 15 7, a := w.extractLsb' 8 7, e := w.extractLsb' 5 3, r := w.extractLsb' 3 2 }

/-- The word of a FmtB record under the fixed bits `op` (R54). -/
def FmtB.bits (op : BitVec 9) (f : FmtB) : Word :=
  f.c ++ op ++ f.p ++ f.n ++ f.o
/-- The operand fields of a word, read as FmtB (R54). -/
def FmtB.ofWord (w : Word) : FmtB :=
  { c := w.extractLsb' 31 1, p := w.extractLsb' 18 4, n := w.extractLsb' 17 1, o := w.extractLsb' 0 17 }

/-- The word of a FmtBC record under the fixed bits `op` (R54). -/
def FmtBC.bits (op : BitVec 9) (f : FmtBC) : Word :=
  f.c ++ op ++ f.i ++ (0 : BitVec 1) ++ f.o
/-- The operand fields of a word, read as FmtBC (R54). -/
def FmtBC.ofWord (w : Word) : FmtBC :=
  { c := w.extractLsb' 31 1, i := w.extractLsb' 18 4, o := w.extractLsb' 0 17 }

/-- The word of a FmtBCR record under the fixed bits `op` (R54). -/
def FmtBCR.bits (op : BitVec 9) (f : FmtBCR) : Word :=
  f.c ++ op ++ f.i ++ (0 : BitVec 1) ++ f.a ++ (0 : BitVec 10)
/-- The operand fields of a word, read as FmtBCR (R54). -/
def FmtBCR.ofWord (w : Word) : FmtBCR :=
  { c := w.extractLsb' 31 1, i := w.extractLsb' 18 4, a := w.extractLsb' 10 7 }

/-- The word of a FmtFork record under the fixed bits `op` (R54). -/
def FmtFork.bits (op : BitVec 9) (f : FmtFork) : Word :=
  f.c ++ op ++ f.p ++ (0 : BitVec 1) ++ f.o
/-- The operand fields of a word, read as FmtFork (R54). -/
def FmtFork.ofWord (w : Word) : FmtFork :=
  { c := w.extractLsb' 31 1, p := w.extractLsb' 18 4, o := w.extractLsb' 0 17 }

/-- The word of a FmtBJ record under the fixed bits `op` (R54). -/
def FmtBJ.bits (op : BitVec 9) (f : FmtBJ) : Word :=
  f.c ++ op ++ f.j ++ f.m ++ (0 : BitVec 15)
/-- The operand fields of a word, read as FmtBJ (R54). -/
def FmtBJ.ofWord (w : Word) : FmtBJ :=
  { c := w.extractLsb' 31 1, j := w.extractLsb' 19 3, m := w.extractLsb' 15 4 }

/-- The word of a FmtJd record under the fixed bits `op` (R54). -/
def FmtJd.bits (op : BitVec 9) (f : FmtJd) : Word :=
  f.c ++ op ++ (0 : BitVec 3) ++ f.m ++ (0 : BitVec 15)
/-- The operand fields of a word, read as FmtJd (R54). -/
def FmtJd.ofWord (w : Word) : FmtJd :=
  { c := w.extractLsb' 31 1, m := w.extractLsb' 15 4 }

/-- The word of a FmtBT record under the fixed bits `op` (R54). -/
def FmtBT.bits (op : BitVec 9) (f : FmtBT) : Word :=
  f.c ++ op ++ (0 : BitVec 6) ++ f.i
/-- The operand fields of a word, read as FmtBT (R54). -/
def FmtBT.ofWord (w : Word) : FmtBT :=
  { c := w.extractLsb' 31 1, i := w.extractLsb' 0 16 }

/-- The word of a FmtBE record under the fixed bits `op` (R54). -/
def FmtBE.bits (op : BitVec 9) (f : FmtBE) : Word :=
  f.c ++ op ++ (0 : BitVec 21) ++ f.y
/-- The operand fields of a word, read as FmtBE (R54). -/
def FmtBE.ofWord (w : Word) : FmtBE :=
  { c := w.extractLsb' 31 1, y := w.extractLsb' 0 1 }

/-- The word of a FmtBW record under the fixed bits `op` (R54). -/
def FmtBW.bits (op : BitVec 9) (f : FmtBW) : Word :=
  f.c ++ op ++ f.w ++ f.k ++ f.o
/-- The operand fields of a word, read as FmtBW (R54). -/
def FmtBW.ofWord (w : Word) : FmtBW :=
  { c := w.extractLsb' 31 1, w := w.extractLsb' 19 3, k := w.extractLsb' 17 2, o := w.extractLsb' 0 17 }

/-- The word of a FmtMMA record under the fixed bits `op` (R54). -/
def FmtMMA.bits (op : BitVec 9) (f : FmtMMA) : Word :=
  (0 : BitVec 1) ++ op ++ f.a ++ f.x ++ f.w ++ f.f
/-- The operand fields of a word, read as FmtMMA (R54). -/
def FmtMMA.ofWord (w : Word) : FmtMMA :=
  { a := w.extractLsb' 12 10, x := w.extractLsb' 8 4, w := w.extractLsb' 4 4, f := w.extractLsb' 0 4 }

/-- The word of a FmtMwld record under the fixed bits `op` (R54). -/
def FmtMwld.bits (op : BitVec 9) (f : FmtMwld) : Word :=
  (0 : BitVec 1) ++ op ++ f.d ++ f.s ++ f.f ++ f.x ++ f.n ++ (0 : BitVec 5)
/-- The operand fields of a word, read as FmtMwld (R54). -/
def FmtMwld.ofWord (w : Word) : FmtMwld :=
  { d := w.extractLsb' 18 4, s := w.extractLsb' 14 4, f := w.extractLsb' 10 4, x := w.extractLsb' 6 4, n := w.extractLsb' 5 1 }

/-- The word of a FmtAcc record under the fixed bits `op` (R54). -/
def FmtAcc.bits (op : BitVec 9) (f : FmtAcc) : Word :=
  (0 : BitVec 1) ++ op ++ f.a ++ (0 : BitVec 12)
/-- The operand fields of a word, read as FmtAcc (R54). -/
def FmtAcc.ofWord (w : Word) : FmtAcc :=
  { a := w.extractLsb' 12 10 }

/-- The word of a FmtDrain record under the fixed bits `op` (R54). -/
def FmtDrain.bits (op : BitVec 9) (f : FmtDrain) : Word :=
  (0 : BitVec 1) ++ op ++ f.a ++ f.d ++ f.o ++ (0 : BitVec 4)
/-- The operand fields of a word, read as FmtDrain (R54). -/
def FmtDrain.ofWord (w : Word) : FmtDrain :=
  { a := w.extractLsb' 12 10, d := w.extractLsb' 8 4, o := w.extractLsb' 4 4 }

/-- The word of a FmtLacc record under the fixed bits `op` (R54). -/
def FmtLacc.bits (op : BitVec 9) (f : FmtLacc) : Word :=
  (0 : BitVec 1) ++ op ++ f.a ++ f.s ++ (0 : BitVec 8)
/-- The operand fields of a word, read as FmtLacc (R54). -/
def FmtLacc.ofWord (w : Word) : FmtLacc :=
  { a := w.extractLsb' 12 10, s := w.extractLsb' 8 4 }

/-- The word of a FmtMwait record under the fixed bits `op` (R54). -/
def FmtMwait.bits (op : BitVec 9) (f : FmtMwait) : Word :=
  (0 : BitVec 1) ++ op ++ f.d ++ f.s ++ f.g ++ (0 : BitVec 10)
/-- The operand fields of a word, read as FmtMwait (R54). -/
def FmtMwait.ofWord (w : Word) : FmtMwait :=
  { d := w.extractLsb' 18 4, s := w.extractLsb' 14 4, g := w.extractLsb' 10 4 }

/-- The word of a FmtMsig record under the fixed bits `op` (R54). -/
def FmtMsig.bits (op : BitVec 9) (f : FmtMsig) : Word :=
  (0 : BitVec 1) ++ op ++ f.s ++ f.e ++ (0 : BitVec 15)
/-- The operand fields of a word, read as FmtMsig (R54). -/
def FmtMsig.ofWord (w : Word) : FmtMsig :=
  { s := w.extractLsb' 18 4, e := w.extractLsb' 15 3 }

/-- The word of a FmtMI record under the fixed bits `op` (R54). -/
def FmtMI.bits (op : BitVec 9) (f : FmtMI) : Word :=
  (0 : BitVec 1) ++ op ++ f.q ++ f.i
/-- The operand fields of a word, read as FmtMI (R54). -/
def FmtMI.ofWord (w : Word) : FmtMI :=
  { q := w.extractLsb' 18 4, i := w.extractLsb' 0 18 }

/-- The word of a FmtAddq record under the fixed bits `op` (R54). -/
def FmtAddq.bits (op : BitVec 9) (f : FmtAddq) : Word :=
  (0 : BitVec 1) ++ op ++ f.d ++ f.s ++ f.b ++ f.i
/-- The operand fields of a word, read as FmtAddq (R54). -/
def FmtAddq.ofWord (w : Word) : FmtAddq :=
  { d := w.extractLsb' 18 4, s := w.extractLsb' 14 4, b := w.extractLsb' 10 4, i := w.extractLsb' 0 10 }

/-- The word of a FmtLoop record under the fixed bits `op` (R54). -/
def FmtLoop.bits (op : BitVec 9) (f : FmtLoop) : Word :=
  (0 : BitVec 1) ++ op ++ f.q ++ (0 : BitVec 1) ++ f.o
/-- The operand fields of a word, read as FmtLoop (R54). -/
def FmtLoop.ofWord (w : Word) : FmtLoop :=
  { q := w.extractLsb' 18 4, o := w.extractLsb' 0 17 }

/-- The word of a FmtMbra record under the fixed bits `op` (R54). -/
def FmtMbra.bits (op : BitVec 9) (f : FmtMbra) : Word :=
  (0 : BitVec 1) ++ op ++ f.q ++ f.n ++ f.o
/-- The operand fields of a word, read as FmtMbra (R54). -/
def FmtMbra.ofWord (w : Word) : FmtMbra :=
  { q := w.extractLsb' 18 4, n := w.extractLsb' 17 1, o := w.extractLsb' 0 17 }

/-- The word of a FmtStat record under the fixed bits `op` (R54). -/
def FmtStat.bits (op : BitVec 9) (f : FmtStat) : Word :=
  (0 : BitVec 1) ++ op ++ f.d ++ (0 : BitVec 18)
/-- The operand fields of a word, read as FmtStat (R54). -/
def FmtStat.ofWord (w : Word) : FmtStat :=
  { d := w.extractLsb' 18 4 }

/-- The word of a FmtPrio record under the fixed bits `op` (R54). -/
def FmtPrio.bits (op : BitVec 9) (f : FmtPrio) : Word :=
  (0 : BitVec 1) ++ op ++ f.k ++ (0 : BitVec 19)
/-- The operand fields of a word, read as FmtPrio (R54). -/
def FmtPrio.ofWord (w : Word) : FmtPrio :=
  { k := w.extractLsb' 19 3 }

/-- The word of a FmtMfence record under the fixed bits `op` (R54). -/
def FmtMfence.bits (op : BitVec 9) (f : FmtMfence) : Word :=
  (0 : BitVec 1) ++ op ++ f.e ++ (0 : BitVec 19)
/-- The operand fields of a word, read as FmtMfence (R54). -/
def FmtMfence.ofWord (w : Word) : FmtMfence :=
  { e := w.extractLsb' 19 3 }

/-- The word of a FmtLdq record under the fixed bits `op` (R54). -/
def FmtLdq.bits (op : BitVec 9) (f : FmtLdq) : Word :=
  (0 : BitVec 1) ++ op ++ f.d ++ f.s ++ f.o ++ (0 : BitVec 4)
/-- The operand fields of a word, read as FmtLdq (R54). -/
def FmtLdq.ofWord (w : Word) : FmtLdq :=
  { d := w.extractLsb' 18 4, s := w.extractLsb' 14 4, o := w.extractLsb' 4 10 }

/-- The word of a FmtX record under the fixed bits `op` (R54). -/
def FmtX.bits (op : BitVec 13) (f : FmtX) : Word :=
  f.c ++ op ++ f.d ++ f.a ++ f.b
/-- The operand fields of a word, read as FmtX (R54). -/
def FmtX.ofWord (w : Word) : FmtX :=
  { c := w.extractLsb' 31 1, d := w.extractLsb' 12 6, a := w.extractLsb' 6 6, b := w.extractLsb' 0 6 }

/-- The word of a FmtXA record under the fixed bits `op` (R54). -/
def FmtXA.bits (op : BitVec 13) (f : FmtXA) : Word :=
  f.c ++ op ++ f.d ++ f.a ++ (0 : BitVec 6)
/-- The operand fields of a word, read as FmtXA (R54). -/
def FmtXA.ofWord (w : Word) : FmtXA :=
  { c := w.extractLsb' 31 1, d := w.extractLsb' 12 6, a := w.extractLsb' 6 6 }

/-- The word of a FmtS record under the fixed bits `op` (R54). -/
def FmtS.bits (op : BitVec 9) (f : FmtS) : Word :=
  f.c ++ op ++ f.d ++ f.a ++ f.b ++ (0 : BitVec 4)
/-- The operand fields of a word, read as FmtS (R54). -/
def FmtS.ofWord (w : Word) : FmtS :=
  { c := w.extractLsb' 31 1, d := w.extractLsb' 16 6, a := w.extractLsb' 10 6, b := w.extractLsb' 4 6 }

/-- The word of a FmtSI record under the fixed bits `op` (R54). -/
def FmtSI.bits (op : BitVec 9) (f : FmtSI) : Word :=
  f.c ++ op ++ f.d ++ f.a ++ f.i
/-- The operand fields of a word, read as FmtSI (R54). -/
def FmtSI.ofWord (w : Word) : FmtSI :=
  { c := w.extractLsb' 31 1, d := w.extractLsb' 16 6, a := w.extractLsb' 10 6, i := w.extractLsb' 0 10 }

/-- The word of a FmtSL record under the fixed bits `op` (R54). -/
def FmtSL.bits (op : BitVec 9) (f : FmtSL) : Word :=
  f.c ++ op ++ f.d ++ f.i
/-- The operand fields of a word, read as FmtSL (R54). -/
def FmtSL.ofWord (w : Word) : FmtSL :=
  { c := w.extractLsb' 31 1, d := w.extractLsb' 16 6, i := w.extractLsb' 0 16 }

/-- The word of a FmtSC record under the fixed bits `op` (R54). -/
def FmtSC.bits (op : BitVec 9) (f : FmtSC) : Word :=
  f.c ++ op ++ f.p ++ f.k ++ f.a ++ f.b ++ (0 : BitVec 3)
/-- The operand fields of a word, read as FmtSC (R54). -/
def FmtSC.ofWord (w : Word) : FmtSC :=
  { c := w.extractLsb' 31 1, p := w.extractLsb' 18 4, k := w.extractLsb' 15 3, a := w.extractLsb' 9 6, b := w.extractLsb' 3 6 }

/-- The word of a FmtSM record under the fixed bits `op` (R54). -/
def FmtSM.bits (op : BitVec 9) (f : FmtSM) : Word :=
  f.c ++ op ++ f.d ++ f.a ++ f.o
/-- The operand fields of a word, read as FmtSM (R54). -/
def FmtSM.ofWord (w : Word) : FmtSM :=
  { c := w.extractLsb' 31 1, d := w.extractLsb' 16 6, a := w.extractLsb' 10 6, o := w.extractLsb' 0 10 }

/-- The word of a FmtSR record under the fixed bits `op` (R54). -/
def FmtSR.bits (op : BitVec 9) (f : FmtSR) : Word :=
  f.c ++ op ++ f.s ++ f.n ++ (0 : BitVec 8)
/-- The operand fields of a word, read as FmtSR (R54). -/
def FmtSR.ofWord (w : Word) : FmtSR :=
  { c := w.extractLsb' 31 1, s := w.extractLsb' 16 6, n := w.extractLsb' 8 8 }

/-- The word of a FmtSW record under the fixed bits `op` (R54). -/
def FmtSW.bits (op : BitVec 9) (f : FmtSW) : Word :=
  f.c ++ op ++ f.w ++ (0 : BitVec 3) ++ f.s ++ (0 : BitVec 10)
/-- The operand fields of a word, read as FmtSW (R54). -/
def FmtSW.ofWord (w : Word) : FmtSW :=
  { c := w.extractLsb' 31 1, w := w.extractLsb' 19 3, s := w.extractLsb' 10 6 }

/-- The word of a FmtSA record under the fixed bits `op` (R54). -/
def FmtSA.bits (op : BitVec 9) (f : FmtSA) : Word :=
  f.c ++ op ++ f.d ++ f.a ++ (0 : BitVec 10)
/-- The operand fields of a word, read as FmtSA (R54). -/
def FmtSA.ofWord (w : Word) : FmtSA :=
  { c := w.extractLsb' 31 1, d := w.extractLsb' 16 6, a := w.extractLsb' 10 6 }

/-- The word of a FmtSU record under the fixed bits `op` (R54). -/
def FmtSU.bits (op : BitVec 9) (f : FmtSU) : Word :=
  f.c ++ op ++ f.d ++ f.a ++ f.b ++ f.u
/-- The operand fields of a word, read as FmtSU (R54). -/
def FmtSU.ofWord (w : Word) : FmtSU :=
  { c := w.extractLsb' 31 1, d := w.extractLsb' 16 6, a := w.extractLsb' 10 6, b := w.extractLsb' 4 6, u := w.extractLsb' 0 4 }

/-- The opcode map of class 0 (R65). -/
def pickVint (op : Nat) (w : Word) : Option Instr :=
  match op with
  | 0x00 => some (.vaddS32 (FmtR.ofWord w))
  | 0x01 => some (.vsubS32 (FmtR.ofWord w))
  | 0x02 => some (.vmulS32 (FmtR.ofWord w))
  | 0x03 => some (.vmulhS32 (FmtR.ofWord w))
  | 0x04 => some (.vmulhZ32 (FmtR.ofWord w))
  | 0x05 => some (.vmadS32 (FmtR.ofWord w))
  | 0x06 => some (.vminS32 (FmtR.ofWord w))
  | 0x07 => some (.vmaxS32 (FmtR.ofWord w))
  | 0x08 => some (.vminZ32 (FmtR.ofWord w))
  | 0x09 => some (.vmaxZ32 (FmtR.ofWord w))
  | 0x0A => some (.vand (FmtR.ofWord w))
  | 0x0B => some (.vor (FmtR.ofWord w))
  | 0x0C => some (.vxor (FmtR.ofWord w))
  | 0x0D => some (.vandn (FmtR.ofWord w))
  | 0x0E => some (.vshl (FmtR.ofWord w))
  | 0x0F => some (.vshr (FmtR.ofWord w))
  | 0x10 => some (.vsar (FmtR.ofWord w))
  | 0x11 => some (.vaddi (FmtI.ofWord w))
  | 0x12 => some (.vmovi (FmtL.ofWord w))
  | 0x13 => some (.vcmp (FmtP.ofWord w))
  | 0x14 => some (.vcmpi (FmtPI.ofWord w))
  | 0x15 => some (.vsel (FmtR.ofWord w))
  | 0x16 => some (.vclz (FmtDA.ofWord w))
  | 0x17 => some (.vpopc (FmtDA.ofWord w))
  | 0x18 => some (.vbrev (FmtDA.ofWord w))
  | 0x19 => some (.vbins (FmtR.ofWord w))
  | 0x1A => some (.vffcs (FmtDA.ofWord w))
  | 0x1B => some (.vplset (FmtR.ofWord w))
  | 0x1C => some (.vextr (FmtR.ofWord w))
  | 0x1D => some (.vshflIdx (FmtR.ofWord w))
  | 0x1E => some (.vshflXor (FmtR.ofWord w))
  | 0x1F => some (.vshflUp (FmtR.ofWord w))
  | 0x20 => some (.vshflDn (FmtR.ofWord w))
  | 0x21 => some (.vvote (FmtRS.ofWord w))
  | 0x22 => some (.vred (FmtRS.ofWord w))
  | 0x23 => some (.vscan (FmtRS.ofWord w))
  | 0x24 => if w.getLsbD 0 then some (.vmovS (FmtDS.ofWord w)) else some (.vmovV (FmtDA.ofWord w))
  | 0x25 => some (.vbcast (FmtBcast.ofWord w))
  | 0x26 => some (.vlaneid (FmtD.ofWord w))
  | 0x27 => some (.vmovs (FmtMovs.ofWord w))
  | 0x28 => some (.vaddS64 (FmtR.ofWord w))
  | 0x29 => some (.vmulWideS32 (FmtR.ofWord w))
  | 0x2A => some (.vmadWideZ32 (FmtR.ofWord w))
  | _ => none

/-- The opcode map of class 1 (R66). -/
def pickVflt (op : Nat) (w : Word) : Option Instr :=
  match op with
  | 0x00 => some (.vaddF32 (FmtR.ofWord w))
  | 0x01 => some (.vsubF32 (FmtR.ofWord w))
  | 0x02 => some (.vmulF32 (FmtR.ofWord w))
  | 0x03 => some (.vfmaF32 (FmtR.ofWord w))
  | 0x04 => some (.vminF32 (FmtR.ofWord w))
  | 0x05 => some (.vmaxF32 (FmtR.ofWord w))
  | 0x06 => some (.vcmpF32 (FmtP.ofWord w))
  | 0x07 => some (.vclassF32 (FmtDA.ofWord w))
  | 0x08 => some (.vsgnj (FmtR.ofWord w))
  | 0x09 => some (.vrndF32 (FmtDA.ofWord w))
  | 0x0A => some (.vaddH2 (FmtR.ofWord w))
  | 0x0B => some (.vmulH2 (FmtR.ofWord w))
  | 0x0C => some (.vfmaH2 (FmtR.ofWord w))
  | 0x0D => some (.vaddB2 (FmtR.ofWord w))
  | 0x0E => some (.vmulB2 (FmtR.ofWord w))
  | 0x0F => some (.vfmaB2 (FmtR.ofWord w))
  | 0x10 => some (.vdot2B2 (FmtR.ofWord w))
  | 0x11 => some (.vdot4T8 (FmtR.ofWord w))
  | 0x12 => some (.vcvtF32S32 (FmtDA.ofWord w))
  | 0x13 => some (.vcvtS32F32 (FmtDA.ofWord w))
  | 0x14 => some (.vcvtF32Z32 (FmtDA.ofWord w))
  | 0x15 => some (.vcvtZ32F32 (FmtDA.ofWord w))
  | 0x16 => some (.vcvtH2F32 (FmtR.ofWord w))
  | 0x17 => some (.vcvtF32H (FmtDA.ofWord w))
  | 0x18 => some (.vcvtB2F32 (FmtR.ofWord w))
  | 0x19 => some (.vcvtF32B (FmtDA.ofWord w))
  | 0x1A => some (.vcvtT8F32 (FmtR.ofWord w))
  | 0x1B => some (.vcvtF32T8 (FmtR.ofWord w))
  | 0x1C => some (.vcvtT6F32 (FmtR.ofWord w))
  | 0x1D => some (.vcvtF32T6 (FmtR.ofWord w))
  | 0x1E => some (.vbscale (FmtR.ofWord w))
  | 0x1F => some (.vcvtS8F32 (FmtR.ofWord w))
  | 0x20 => some (.vsin (FmtU.ofWord w))
  | 0x21 => some (.vcos (FmtU.ofWord w))
  | 0x22 => some (.vatan2 (FmtU.ofWord w))
  | 0x23 => some (.vexp2 (FmtU.ofWord w))
  | 0x24 => some (.vlog2 (FmtU.ofWord w))
  | 0x25 => some (.vsqrt (FmtU.ofWord w))
  | 0x26 => some (.vrsq (FmtU.ofWord w))
  | 0x27 => some (.vrcp (FmtU.ofWord w))
  | 0x28 => some (.vtanh (FmtU.ofWord w))
  | 0x29 => some (.vsigm (FmtU.ofWord w))
  | 0x2A => some (.vrbox (FmtR.ofWord w))
  | 0x2B => some (.vrtri (FmtR.ofWord w))
  | _ => none

/-- The opcode map of class 2 (R67). -/
def pickMem (op : Nat) (w : Word) : Option Instr :=
  match op with
  | 0x00 => some (.ldZ8 (FmtM.ofWord w))
  | 0x01 => some (.ldS8 (FmtM.ofWord w))
  | 0x02 => some (.ldZ16 (FmtM.ofWord w))
  | 0x03 => some (.ldS16 (FmtM.ofWord w))
  | 0x04 => some (.ld32 (FmtM.ofWord w))
  | 0x05 => some (.ld64 (FmtM.ofWord w))
  | 0x06 => some (.ld128 (FmtM.ofWord w))
  | 0x07 => some (.st8 (FmtM.ofWord w))
  | 0x08 => some (.st16 (FmtM.ofWord w))
  | 0x09 => some (.st32 (FmtM.ofWord w))
  | 0x0A => some (.st64 (FmtM.ofWord w))
  | 0x0B => some (.st128 (FmtM.ofWord w))
  | 0x0C => some (.lds32 (FmtM.ofWord w))
  | 0x0D => some (.lds64 (FmtM.ofWord w))
  | 0x0E => some (.lds128 (FmtM.ofWord w))
  | 0x0F => some (.sts32 (FmtM.ofWord w))
  | 0x10 => some (.sts64 (FmtM.ofWord w))
  | 0x11 => some (.sts128 (FmtM.ofWord w))
  | 0x12 => some (.aaddS32 (FmtMA.ofWord w))
  | 0x13 => some (.aaddF32 (FmtMA.ofWord w))
  | 0x14 => some (.aminS32 (FmtMA.ofWord w))
  | 0x15 => some (.amaxS32 (FmtMA.ofWord w))
  | 0x16 => some (.aminZ32 (FmtMA.ofWord w))
  | 0x17 => some (.amaxZ32 (FmtMA.ofWord w))
  | 0x18 => some (.aand (FmtMA.ofWord w))
  | 0x19 => some (.aor (FmtMA.ofWord w))
  | 0x1A => some (.axor (FmtMA.ofWord w))
  | 0x1B => some (.axchg (FmtMA.ofWord w))
  | 0x1C => some (.acas (FmtMA.ofWord w))
  | 0x1D => some (.aaddS64 (FmtMA.ofWord w))
  | 0x1E => some (.affcs64 (FmtMA.ofWord w))
  | 0x1F => some (.fence (FmtF.ofWord w))
  | 0x20 => some (.fenceSc (FmtZ.ofWord w))
  | 0x21 => some (.waitw (FmtM.ofWord w))
  | 0x22 => some (.sarm (FmtM.ofWord w))
  | 0x23 => some (.swait (FmtSwait.ofWord w))
  | 0x24 => some (.sarr (FmtM.ofWord w))
  | 0x25 => some (.vfpush (FmtA.ofWord w))
  | 0x26 => some (.vfpop (FmtD.ofWord w))
  | 0x27 => some (.vftry (FmtTry.ofWord w))
  | 0x28 => some (.pref (FmtPref.ofWord w))
  | 0x29 => some (.ldtxBl (FmtM.ofWord w))
  | 0x2A => some (.ald32 (FmtMO.ofWord w))
  | 0x2B => some (.ast32 (FmtMO.ofWord w))
  | _ => none

/-- The opcode map of class 3 (R68). -/
def pickCtl (op : Nat) (w : Word) : Option Instr :=
  match op with
  | 0x00 => some (.bra (FmtB.ofWord w))
  | 0x01 => some (.bru (FmtB.ofWord w))
  | 0x02 => some (.jmpr (FmtA.ofWord w))
  | 0x03 => some (.call (FmtBC.ofWord w))
  | 0x04 => some (.callr (FmtBCR.ofWord w))
  | 0x05 => some (.ret (FmtZ.ofWord w))
  | 0x06 => some (.fork (FmtFork.ofWord w))
  | 0x07 => some (.fexit (FmtZ.ofWord w))
  | 0x08 => some (.jset (FmtBJ.ofWord w))
  | 0x09 => some (.join (FmtBJ.ofWord w))
  | 0x0A => some (.jdrop (FmtJd.ofWord w))
  | 0x0B => some (.yield (FmtZ.ofWord w))
  | 0x0C => some (.nopk (FmtZ.ofWord w))
  | 0x0D => some (.trap (FmtBT.ofWord w))
  | 0x0E => some (.brk (FmtBT.ofWord w))
  | 0x0F => some (.emuret (FmtBE.ofWord w))
  | 0x10 => some (.brw (FmtBW.ofWord w))
  | _ => none

/-- The opcode map of class 4 (R69). -/
def pickMtx (op : Nat) (w : Word) : Option Instr :=
  match op with
  | 0x00 => some (.mma (FmtMMA.ofWord w))
  | 0x01 => some (.mmas (FmtMMA.ofWord w))
  | 0x02 => some (.mwld (FmtMwld.ofWord w))
  | 0x03 => some (.mzero (FmtAcc.ofWord w))
  | 0x04 => some (.mdrain (FmtDrain.ofWord w))
  | 0x05 => some (.mlacc (FmtLacc.ofWord w))
  | 0x06 => some (.mwait (FmtMwait.ofWord w))
  | 0x07 => some (.msig (FmtMsig.ofWord w))
  | 0x08 => some (.mli (FmtMI.ofWord w))
  | 0x09 => some (.maddq (FmtAddq.ofWord w))
  | 0x0A => some (.mloop (FmtLoop.ofWord w))
  | 0x0B => some (.mbra (FmtMbra.ofWord w))
  | 0x0C => some (.mend)
  | 0x0D => some (.mstat (FmtStat.ofWord w))
  | 0x0E => some (.mprio (FmtPrio.ofWord w))
  | 0x0F => some (.mfence (FmtMfence.ofWord w))
  | 0x10 => some (.mldq (FmtLdq.ofWord w))
  | _ => none

/-- The opcode map of class 7 (R71). -/
def pickScl (op : Nat) (w : Word) : Option Instr :=
  match op with
  | 0x00 => some (.sadd (FmtS.ofWord w))
  | 0x01 => some (.ssub (FmtS.ofWord w))
  | 0x02 => some (.smul (FmtS.ofWord w))
  | 0x03 => some (.sand (FmtS.ofWord w))
  | 0x04 => some (.sor (FmtS.ofWord w))
  | 0x05 => some (.sxor (FmtS.ofWord w))
  | 0x06 => some (.sshl (FmtS.ofWord w))
  | 0x07 => some (.sshr (FmtS.ofWord w))
  | 0x08 => some (.ssar (FmtS.ofWord w))
  | 0x09 => some (.smin (FmtS.ofWord w))
  | 0x0A => some (.smax (FmtS.ofWord w))
  | 0x0B => some (.sminz (FmtS.ofWord w))
  | 0x0C => some (.smaxz (FmtS.ofWord w))
  | 0x0D => some (.saddi (FmtSI.ofWord w))
  | 0x0E => some (.sli (FmtSL.ofWord w))
  | 0x0F => some (.slih (FmtSL.ofWord w))
  | 0x10 => some (.scmp (FmtSC.ofWord w))
  | 0x11 => some (.sld64 (FmtSM.ofWord w))
  | 0x12 => some (.sst64 (FmtSM.ofWord w))
  | 0x13 => some (.sld32 (FmtSM.ofWord w))
  | 0x14 => some (.srd (FmtSR.ofWord w))
  | 0x15 => some (.swr (FmtSR.ofWord w))
  | 0x16 => some (.sxch (FmtSR.ofWord w))
  | 0x17 => some (.wbind (FmtSW.ofWord w))
  | 0x18 => some (.wrd (FmtSW.ofWord w))
  | 0x19 => some (.wrst (FmtSW.ofWord w))
  | 0x1A => some (.sffcs (FmtSA.ofWord w))
  | 0x1B => some (.splset (FmtS.ofWord w))
  | 0x1C => some (.sbins (FmtS.ofWord w))
  | 0x1D => some (.spopc (FmtSA.ofWord w))
  | 0x1E => some (.sclz (FmtSA.ofWord w))
  | 0x1F => some (.emurd (FmtSU.ofWord w))
  | 0x20 => some (.emuwr (FmtSU.ofWord w))
  | 0x21 => some (.accrd (FmtS.ofWord w))
  | 0x22 => some (.accwr (FmtS.ofWord w))
  | _ => none

/-- The function codes of class 5 (R70), indexed by engine × 128 + function. -/
def pickXcmd (ef : Nat) (w : Word) : Option Instr :=
  match ef with
  | 0x000 => some (.cshape (FmtX.ofWord w))
  | 0x001 => some (.cget (FmtX.ofWord w))
  | 0x002 => some (.cput (FmtX.ofWord w))
  | 0x003 => some (.cgath (FmtX.ofWord w))
  | 0x004 => some (.cmcast (FmtX.ofWord w))
  | 0x005 => some (.cring (FmtX.ofWord w))
  | 0x006 => some (.cresume (FmtXA.ofWord w))
  | 0x007 => some (.ccancel (FmtXA.ofWord w))
  | 0x008 => some (.cstat (FmtXA.ofWord w))
  | 0x080 => some (.tspawn (FmtX.ofWord w))
  | 0x081 => some (.tsucc (FmtX.ofWord w))
  | 0x082 => some (.fsopen (FmtX.ofWord w))
  | 0x083 => some (.fsclose (FmtX.ofWord w))
  | 0x084 => some (.fsadd (FmtX.ofWord w))
  | 0x085 => some (.tretire (FmtXA.ofWord w))
  | 0x086 => some (.glaunch (FmtX.ofWord w))
  | 0x087 => some (.gprio (FmtX.ofWord w))
  | 0x100 => some (.telrd (FmtXA.ofWord w))
  | 0x101 => some (.pgreq (FmtX.ofWord w))
  | 0x180 => some (.icinv (FmtX.ofWord w))
  | 0x181 => some (.cflush (FmtX.ofWord w))
  | 0x182 => some (.csplit (FmtX.ofWord w))
  | 0x183 => some (.tlbinv (FmtX.ofWord w))
  | 0x184 => some (.patch (FmtX.ofWord w))
  | _ => none

/-- The instruction that the fixed fields of a word name, whatever its reserved fields hold (R48, R49). -/
def pick (w : Word) : Option Instr :=
  match fieldN w 28 3 with
  | 0 => pickVint (fieldN w 22 6) w
  | 1 => pickVflt (fieldN w 22 6) w
  | 2 => pickMem (fieldN w 22 6) w
  | 3 => pickCtl (fieldN w 22 6) w
  | 4 => pickMtx (fieldN w 22 6) w
  | 5 => pickXcmd (fieldN w 18 10) w
  | 7 => pickScl (fieldN w 22 6) w
  | _ => none

/-- The word of an instruction; an event has none (R54, R65 to R71). -/
def encode (i : Instr) : Option Word :=
  match i with
  | .vaddS32 f => some (f.bits 0x000)
  | .vsubS32 f => some (f.bits 0x001)
  | .vmulS32 f => some (f.bits 0x002)
  | .vmulhS32 f => some (f.bits 0x003)
  | .vmulhZ32 f => some (f.bits 0x004)
  | .vmadS32 f => some (f.bits 0x005)
  | .vminS32 f => some (f.bits 0x006)
  | .vmaxS32 f => some (f.bits 0x007)
  | .vminZ32 f => some (f.bits 0x008)
  | .vmaxZ32 f => some (f.bits 0x009)
  | .vand f => some (f.bits 0x00A)
  | .vor f => some (f.bits 0x00B)
  | .vxor f => some (f.bits 0x00C)
  | .vandn f => some (f.bits 0x00D)
  | .vshl f => some (f.bits 0x00E)
  | .vshr f => some (f.bits 0x00F)
  | .vsar f => some (f.bits 0x010)
  | .vaddi f => some (f.bits 0x011)
  | .vmovi f => some (f.bits 0x012)
  | .vcmp f => some (f.bits 0x013)
  | .vcmpi f => some (f.bits 0x014)
  | .vsel f => some (f.bits 0x015)
  | .vclz f => some (f.bits 0x016)
  | .vpopc f => some (f.bits 0x017)
  | .vbrev f => some (f.bits 0x018)
  | .vbins f => some (f.bits 0x019)
  | .vffcs f => some (f.bits 0x01A)
  | .vplset f => some (f.bits 0x01B)
  | .vextr f => some (f.bits 0x01C)
  | .vshflIdx f => some (f.bits 0x01D)
  | .vshflXor f => some (f.bits 0x01E)
  | .vshflUp f => some (f.bits 0x01F)
  | .vshflDn f => some (f.bits 0x020)
  | .vvote f => some (f.bits 0x021)
  | .vred f => some (f.bits 0x022)
  | .vscan f => some (f.bits 0x023)
  | .vmovV f => some (f.bits 0x024)
  | .vmovS f => some (f.bits 0x024)
  | .vbcast f => some (f.bits 0x025)
  | .vlaneid f => some (f.bits 0x026)
  | .vmovs f => some (f.bits 0x027)
  | .vaddS64 f => some (f.bits 0x028)
  | .vmulWideS32 f => some (f.bits 0x029)
  | .vmadWideZ32 f => some (f.bits 0x02A)
  | .vaddF32 f => some (f.bits 0x040)
  | .vsubF32 f => some (f.bits 0x041)
  | .vmulF32 f => some (f.bits 0x042)
  | .vfmaF32 f => some (f.bits 0x043)
  | .vminF32 f => some (f.bits 0x044)
  | .vmaxF32 f => some (f.bits 0x045)
  | .vcmpF32 f => some (f.bits 0x046)
  | .vclassF32 f => some (f.bits 0x047)
  | .vsgnj f => some (f.bits 0x048)
  | .vrndF32 f => some (f.bits 0x049)
  | .vaddH2 f => some (f.bits 0x04A)
  | .vmulH2 f => some (f.bits 0x04B)
  | .vfmaH2 f => some (f.bits 0x04C)
  | .vaddB2 f => some (f.bits 0x04D)
  | .vmulB2 f => some (f.bits 0x04E)
  | .vfmaB2 f => some (f.bits 0x04F)
  | .vdot2B2 f => some (f.bits 0x050)
  | .vdot4T8 f => some (f.bits 0x051)
  | .vcvtF32S32 f => some (f.bits 0x052)
  | .vcvtS32F32 f => some (f.bits 0x053)
  | .vcvtF32Z32 f => some (f.bits 0x054)
  | .vcvtZ32F32 f => some (f.bits 0x055)
  | .vcvtH2F32 f => some (f.bits 0x056)
  | .vcvtF32H f => some (f.bits 0x057)
  | .vcvtB2F32 f => some (f.bits 0x058)
  | .vcvtF32B f => some (f.bits 0x059)
  | .vcvtT8F32 f => some (f.bits 0x05A)
  | .vcvtF32T8 f => some (f.bits 0x05B)
  | .vcvtT6F32 f => some (f.bits 0x05C)
  | .vcvtF32T6 f => some (f.bits 0x05D)
  | .vbscale f => some (f.bits 0x05E)
  | .vcvtS8F32 f => some (f.bits 0x05F)
  | .vsin f => some (f.bits 0x060)
  | .vcos f => some (f.bits 0x061)
  | .vatan2 f => some (f.bits 0x062)
  | .vexp2 f => some (f.bits 0x063)
  | .vlog2 f => some (f.bits 0x064)
  | .vsqrt f => some (f.bits 0x065)
  | .vrsq f => some (f.bits 0x066)
  | .vrcp f => some (f.bits 0x067)
  | .vtanh f => some (f.bits 0x068)
  | .vsigm f => some (f.bits 0x069)
  | .vrbox f => some (f.bits 0x06A)
  | .vrtri f => some (f.bits 0x06B)
  | .ldZ8 f => some (f.bits 0x080)
  | .ldS8 f => some (f.bits 0x081)
  | .ldZ16 f => some (f.bits 0x082)
  | .ldS16 f => some (f.bits 0x083)
  | .ld32 f => some (f.bits 0x084)
  | .ld64 f => some (f.bits 0x085)
  | .ld128 f => some (f.bits 0x086)
  | .st8 f => some (f.bits 0x087)
  | .st16 f => some (f.bits 0x088)
  | .st32 f => some (f.bits 0x089)
  | .st64 f => some (f.bits 0x08A)
  | .st128 f => some (f.bits 0x08B)
  | .lds32 f => some (f.bits 0x08C)
  | .lds64 f => some (f.bits 0x08D)
  | .lds128 f => some (f.bits 0x08E)
  | .sts32 f => some (f.bits 0x08F)
  | .sts64 f => some (f.bits 0x090)
  | .sts128 f => some (f.bits 0x091)
  | .aaddS32 f => some (f.bits 0x092)
  | .aaddF32 f => some (f.bits 0x093)
  | .aminS32 f => some (f.bits 0x094)
  | .amaxS32 f => some (f.bits 0x095)
  | .aminZ32 f => some (f.bits 0x096)
  | .amaxZ32 f => some (f.bits 0x097)
  | .aand f => some (f.bits 0x098)
  | .aor f => some (f.bits 0x099)
  | .axor f => some (f.bits 0x09A)
  | .axchg f => some (f.bits 0x09B)
  | .acas f => some (f.bits 0x09C)
  | .aaddS64 f => some (f.bits 0x09D)
  | .affcs64 f => some (f.bits 0x09E)
  | .fence f => some (f.bits 0x09F)
  | .fenceSc f => some (f.bits 0x0A0)
  | .waitw f => some (f.bits 0x0A1)
  | .sarm f => some (f.bits 0x0A2)
  | .swait f => some (f.bits 0x0A3)
  | .sarr f => some (f.bits 0x0A4)
  | .vfpush f => some (f.bits 0x0A5)
  | .vfpop f => some (f.bits 0x0A6)
  | .vftry f => some (f.bits 0x0A7)
  | .pref f => some (f.bits 0x0A8)
  | .ldtxBl f => some (f.bits 0x0A9)
  | .ald32 f => some (f.bits 0x0AA)
  | .ast32 f => some (f.bits 0x0AB)
  | .bra f => some (f.bits 0x0C0)
  | .bru f => some (f.bits 0x0C1)
  | .jmpr f => some (f.bits 0x0C2)
  | .call f => some (f.bits 0x0C3)
  | .callr f => some (f.bits 0x0C4)
  | .ret f => some (f.bits 0x0C5)
  | .fork f => some (f.bits 0x0C6)
  | .fexit f => some (f.bits 0x0C7)
  | .jset f => some (f.bits 0x0C8)
  | .join f => some (f.bits 0x0C9)
  | .jdrop f => some (f.bits 0x0CA)
  | .yield f => some (f.bits 0x0CB)
  | .nopk f => some (f.bits 0x0CC)
  | .trap f => some (f.bits 0x0CD)
  | .brk f => some (f.bits 0x0CE)
  | .emuret f => some (f.bits 0x0CF)
  | .brw f => some (f.bits 0x0D0)
  | .mma f => some (f.bits 0x100)
  | .mmas f => some (f.bits 0x101)
  | .mwld f => some (f.bits 0x102)
  | .mzero f => some (f.bits 0x103)
  | .mdrain f => some (f.bits 0x104)
  | .mlacc f => some (f.bits 0x105)
  | .mwait f => some (f.bits 0x106)
  | .msig f => some (f.bits 0x107)
  | .mli f => some (f.bits 0x108)
  | .maddq f => some (f.bits 0x109)
  | .mloop f => some (f.bits 0x10A)
  | .mbra f => some (f.bits 0x10B)
  | .mend => some 0x43000000
  | .mstat f => some (f.bits 0x10D)
  | .mprio f => some (f.bits 0x10E)
  | .mfence f => some (f.bits 0x10F)
  | .mldq f => some (f.bits 0x110)
  | .cshape f => some (f.bits 0x1400)
  | .cget f => some (f.bits 0x1401)
  | .cput f => some (f.bits 0x1402)
  | .cgath f => some (f.bits 0x1403)
  | .cmcast f => some (f.bits 0x1404)
  | .cring f => some (f.bits 0x1405)
  | .cresume f => some (f.bits 0x1406)
  | .ccancel f => some (f.bits 0x1407)
  | .cstat f => some (f.bits 0x1408)
  | .tspawn f => some (f.bits 0x1480)
  | .tsucc f => some (f.bits 0x1481)
  | .fsopen f => some (f.bits 0x1482)
  | .fsclose f => some (f.bits 0x1483)
  | .fsadd f => some (f.bits 0x1484)
  | .tretire f => some (f.bits 0x1485)
  | .glaunch f => some (f.bits 0x1486)
  | .gprio f => some (f.bits 0x1487)
  | .telrd f => some (f.bits 0x1500)
  | .pgreq f => some (f.bits 0x1501)
  | .icinv f => some (f.bits 0x1580)
  | .cflush f => some (f.bits 0x1581)
  | .csplit f => some (f.bits 0x1582)
  | .tlbinv f => some (f.bits 0x1583)
  | .patch f => some (f.bits 0x1584)
  | .sadd f => some (f.bits 0x1C0)
  | .ssub f => some (f.bits 0x1C1)
  | .smul f => some (f.bits 0x1C2)
  | .sand f => some (f.bits 0x1C3)
  | .sor f => some (f.bits 0x1C4)
  | .sxor f => some (f.bits 0x1C5)
  | .sshl f => some (f.bits 0x1C6)
  | .sshr f => some (f.bits 0x1C7)
  | .ssar f => some (f.bits 0x1C8)
  | .smin f => some (f.bits 0x1C9)
  | .smax f => some (f.bits 0x1CA)
  | .sminz f => some (f.bits 0x1CB)
  | .smaxz f => some (f.bits 0x1CC)
  | .saddi f => some (f.bits 0x1CD)
  | .sli f => some (f.bits 0x1CE)
  | .slih f => some (f.bits 0x1CF)
  | .scmp f => some (f.bits 0x1D0)
  | .sld64 f => some (f.bits 0x1D1)
  | .sst64 f => some (f.bits 0x1D2)
  | .sld32 f => some (f.bits 0x1D3)
  | .srd f => some (f.bits 0x1D4)
  | .swr f => some (f.bits 0x1D5)
  | .sxch f => some (f.bits 0x1D6)
  | .wbind f => some (f.bits 0x1D7)
  | .wrd f => some (f.bits 0x1D8)
  | .wrst f => some (f.bits 0x1D9)
  | .sffcs f => some (f.bits 0x1DA)
  | .splset f => some (f.bits 0x1DB)
  | .sbins f => some (f.bits 0x1DC)
  | .spopc f => some (f.bits 0x1DD)
  | .sclz f => some (f.bits 0x1DE)
  | .emurd f => some (f.bits 0x1DF)
  | .emuwr f => some (f.bits 0x1E0)
  | .accrd f => some (f.bits 0x1E1)
  | .accwr f => some (f.bits 0x1E2)
  | .loadReturn _ => none
  | .commandReply _ => none
  | .fenceScComplete _ => none
  | .watchdogExpiry _ => none
  | .haltComplete _ => none
  | .chunkComplete _ => none
  | .copyFaultSettle _ => none
  | .copyQuiesceTimeout _ => none
  | .matrixOpDequeue _ => none
  | .kennelDeadline _ => none
  | .engineEntry _ => none
  | .matrixResultWrite _ => none
  | .weightFillComplete _ => none
  | .drainRowPerform _ => none
  | .msigArrival _ => none
  | .taskDispatch _ => none
  | .gangReservation _ => none
  | .gangReservationTimeout _ => none
  | .tileRetire _ => none
  | .ucieMirrorMessage _ => none
  | .reexecPlacementTimeout _ => none
  | .preemptionTimeout _ => none
  | .contextSave _ => none
  | .contextRestore _ => none
  | .starvationRestore _ => none
  | .submissionConsume _ => none
  | .sqDoorbell _ => none
  | .attachWrite _ => none
  | .ctxCsplitWrite _ => none
  | .registerWrite _ => none
  | .hostBar2Access _ => none
  | .hostAtomicop _ => none
  | .fbRelease _ => none
  | .fbReleaseAll _ => none
  | .fbAbort _ => none
  | .lostLineEntryClear _ => none
  | .flipsRead _ => none
  | .gddrCounterRead _ => none
  | .sentinelCounterRead _ => none
  | .mgcmdGate _ => none
  | .mgcmdUngate _ => none
  | .mgcmdRetireBus _ => none
  | .mgcmdShutdownLayer _ => none
  | .mgcmdComplete => none
  | .attestationRequest => none
  | .attestationComplete => none
  | .powerOn => none
  | .heartbeatTick => none
  | .timeSync _ => none
  | .readCountWindow _ => none
  | .lineReplication _ => none
  | .loopPortPowerDown _ => none
  | .loopPortWake _ => none
  | .dirtyBudgetWriteback _ => none
  | .cacheLayerShutdown _ => none
  | .busEvacuation _ => none
  | .columnRemoval _ => none
  | .gddrTransferError _ => none
  | .vfControlTick => none
  | .vfTransitionComplete _ => none
  | .sensorSample _ => none
  | .thermalPowerDown _ => none
  | .sentinelRun _ => none
  | .ucieLinkDown => none
  | .ethReadyMessage _ => none
  | .ethLaunchRecord _ => none
  | .ethCompletion _ => none
  | .ethAck _ => none
  | .ethStreamData _ => none
  | .ethRetransmit _ => none
  | .ethPeerTimeout _ => none
  | .vblank _ => none
  | .unassignedEncoding _ => none
  | .hostReleasesReset => none

/-- The decoder.  It rejects the never-assigned words first, then an unassigned opcode, function or
engine, a class-4 word with its chain bit set, a nonzero reserved-zero field, and last the static
rules of the word's own entry (R72, R386). -/
def decode (w : Word) : Except Reject Instr :=
  if w = 0 ∨ w = 0xFFFFFFFF then .error .never
  else if fieldN w 28 3 = 6 then .error .pfxWord
  else if fieldN w 28 3 = 4 ∧ w.getLsbD 31 then .error .chain4
  else match pick w with
    | none => .error (.emulate 1)
    | some i =>
      if encode i = some w then
        match i.check with
        | none => .ok i
        | some r => .error r
      else .error (.emulate 3)

/-- The decoder over the four bytes of a word, lowest address first (R11), with the rest of the list. -/
def decodeBytes : List Byte → Except Reject (Instr × List Byte)
  | b0 :: b1 :: b2 :: b3 :: rest =>
    match decode (b3 ++ b2 ++ b1 ++ b0) with
    | .ok i => .ok (i, rest)
    | .error r => .error r
  | _ => .error .short

/-- Byte `k` of a number, the least significant first (R11). -/
def byteOf (w k : Nat) : Byte := BitVec.ofNat 8 (w / 256 ^ k)

/-- The instruction the decoder reads from an instruction whose bits are `w`, laid out in memory as
R11 stores a word. -/
def decodeTableWord (nbits w : Nat) : Option Instr :=
  if nbits ≤ 32 then
    match decodeBytes [byteOf w 0, byteOf w 1, byteOf w 2, byteOf w 3] with
    | .ok (i, _) => some i
    | .error _ => none
  else none

/-- The fields of a prefix word (R59). -/
def decodePfx (w : Word) : Pfx :=
  { word := w
    chain := w.getLsbD 31
    mp := w.extractLsb' 24 4
    z := w.getLsbD 23
    rm := w.extractLsb' 20 3
    c := w.extractLsb' 13 7
    cv := w.getLsbD 12
    rz := w.extractLsb' 8 4 }

/-- The word of a prefix whose hint bits are 0 (R59). -/
def encodePfx (p : Pfx) : Word :=
  BitVec.ofBool p.chain ++ (6 : BitVec 3) ++ p.mp ++ BitVec.ofBool p.z ++ p.rm ++ p.c ++
    BitVec.ofBool p.cv ++ p.rz ++ (0 : BitVec 8)

end Sys2Proof
end

