-- ==== Sys2Proof/Machine/Store.lean ====
section
/-! DEFINITION.  Sparse data by number: association lists with strictly rising keys, and byte memory
in its one canonical form (log 2). -/

namespace Sys2Proof.Machine

/-- A sparse map from numbers. -/
abbrev SMap (α : Type) := List (Nat × α)

/-- The entry at `k`, if there is one. -/
def SMap.find? {α : Type} : SMap α → Nat → Option α
  | [], _ => none
  | (k', v) :: r, k => if k' = k then some v else SMap.find? r k

/-- The entry at `k`, or `d`. -/
def SMap.get {α : Type} (m : SMap α) (k : Nat) (d : α) : α :=
  match m.find? k with
  | some v => v
  | none => d

/-- The map with `v` at `k`, keys kept in rising order. -/
def SMap.set {α : Type} : SMap α → Nat → α → SMap α
  | [], k, v => [(k, v)]
  | (k', v') :: r, k, v =>
    if k < k' then (k, v) :: (k', v') :: r
    else if k' = k then (k, v) :: r
    else (k', v') :: SMap.set r k v

/-- The map without an entry at `k`. -/
def SMap.erase {α : Type} (m : SMap α) (k : Nat) : SMap α := m.filter (fun p => !(p.1 == k))

/-- The map whose reading at `k` with default `d` is `v`: the default is not listed. -/
def SMap.put {α : Type} [DecidableEq α] (m : SMap α) (k : Nat) (v d : α) : SMap α :=
  if v = d then m.erase k else m.set k v

/-- The map with the entry at `k` changed by `f`, or unchanged when there is none. -/
def SMap.modify {α : Type} (m : SMap α) (k : Nat) (f : α → α) : SMap α :=
  m.map (fun p => if p.1 = k then (p.1, f p.2) else p)

/-- The lowest number not in use below `n`, if there is one. -/
def SMap.free {α : Type} (m : SMap α) (n : Nat) : Option Nat :=
  (List.range n).find? (fun k => (m.find? k).isNone)

/-- Byte memory: address and byte, addresses strictly rising, no entry equal to what an unlisted
address reads as. -/
abbrev Memory := List Host.Cell

/-- What an address that nothing has written reads as (log 2). -/
def Memory.unlisted : Byte := 0

/-- One byte. -/
def Memory.read (m : Memory) (a : Nat) : Byte := SMap.get m a Memory.unlisted

/-- The memory with one byte written. -/
def Memory.write (m : Memory) (a : Nat) (b : Byte) : Memory := SMap.put m a b Memory.unlisted

/-- Keys strictly rise from one entry to the next. -/
def Memory.rising : Memory → Bool
  | [] => true
  | [_] => true
  | p :: q :: r => decide (p.1 < q.1) && Memory.rising (q :: r)

/-- The canonical form of memory. -/
def Memory.wf (m : Memory) : Bool := Memory.rising m && m.all (fun p => !(p.2 == Memory.unlisted))

/-- `n` bytes from `a` upwards as a number, the lowest address least significant (R11). -/
def Memory.readN (m : Memory) (a : Nat) : Nat → Nat
  | 0 => 0
  | n + 1 => (Memory.read m a).toNat + 256 * Memory.readN m (a + 1) n

/-- The low `n` bytes of `v` written from `a` upwards (R11). -/
def Memory.writeN (m : Memory) (a : Nat) : Nat → Nat → Memory
  | 0, _ => m
  | n + 1, v => Memory.writeN (Memory.write m a (BitVec.ofNat 8 v)) (a + 1) n (v / 256)

/-- Every byte of `[a, a + n)` set to 0. -/
def Memory.zero (m : Memory) (a n : Nat) : Memory := m.filter (fun p => decide (p.1 < a ∨ a + n ≤ p.1))

/-- The listed bytes of `[a, a + n)`. -/
def Memory.slice (m : Memory) (a n : Nat) : Memory := m.filter (fun p => decide (a ≤ p.1 ∧ p.1 < a + n))

end Sys2Proof.Machine
end

