-- ==== Sys2Proof/Machine/State.lean ====
section
/-! DEFINITION.  The state of the machine as plain data: everything the spec names as state, and the
model's own bookkeeping (log 3).  `State.reset` is the package right after its supply rises. -/

namespace Sys2Proof.Machine

/-- How a run stops. -/
inductive Fault where
  /-- Raised by `step`: the package is off or halted by bring-up or by a thermal power-down, so no
  further step exists (R429, R439).  Safe. -/
  | packageOff
  deriving DecidableEq, Repr

/-- What the model turns down. -/
inductive Refusal where
  /-- Raised by `exec` for an instruction that has no meaning yet.  Safe. -/
  | notModelled (mnemonic : String)
  deriving DecidableEq, Repr

/-- The causes of R376. -/
inductive Cause where
  | none | memXlate | memProt | memAlign | memData | arith | encoding | emulate | uniformity | role
  | regwin | engineCopy | engineMatrix | graph | fifo | soft | debug | hwerr | watchdog | bind
  deriving DecidableEq, Repr

/-- A replayable fault of one page (R93 to R96): the address, KIND, REASON, LEVEL and PTEPA of its entry, and
the cause delivered in its place when the entry is aborted (R98). -/
structure PFault where
  va : Nat
  kind : Nat
  reason : Nat
  level : Nat
  pte : Nat
  cause : Cause
  d0 : Nat
  d1 : Nat
  d2 : Nat
  deriving DecidableEq, Repr

/-- What a word that cannot take its effect asks for: a delivered cause with its detail registers
(R381), or a park with its group replayed (R94), or a hold at issue (R271, R384). -/
inductive Raise where
  /-- A delivered cause; `rank` is its row in R72 (5 for the causes after the fates); `pa` is the
  physical address that the link error log names (R414). -/
  | cause (rank : Nat) (c : Cause) (d0 d1 d2 : Nat) (word : Word) (pa : Nat)
  /-- A replayable translation fault of the lanes' pages (R93 to R95). -/
  | replay (faults : List PFault)
  /-- The word is held at issue and not eligible. -/
  | hold
  deriving DecidableEq, Repr

/-- Where a data-arrival wait writes on waking (R256, R327). -/
inductive WaitDest where
  | pred (p : Nat)
  | pair (reg : Nat)
  deriving DecidableEq, Repr

/-- The park state of a fibre (R157, R397). -/
inductive Park where
  | running
  /-- Parked at (j, X). -/
  | join (j : Nat) (addr : DWord)
  /-- Parked on a data-arrival word at a scratch offset, with the expected generation. -/
  | word (off gen : Nat) (dest : WaitDest)
  /-- Parked on a vertical-FIFO direction; the number names the wait in the warp's order. -/
  | fifo (seq : Nat)
  /-- Parked on fault-buffer entries of a tower; the chain group replays once all of them are released and,
  where `more` says that another fault found the buffer full, once any entry of the tower has been (R94, R95). -/
  | replay (tower : Nat) (entries : List Nat) (more : Bool)
  /-- A bind wait of `ALD.32` on an entry: the word's address, its register, and the order code. -/
  | bind (tower entry : Nat) (va : DWord) (reg order : Nat)
  /-- Lane of a frame whose handler runs. -/
  | halted
  deriving DecidableEq, Repr

/-- A fibre's state (R155). -/
structure Fibre where
  live : Bool := false
  pc : DWord := 0
  /-- p0 to p15; bit 0 is kept 0 and reads 1. -/
  preds : BitVec 16 := 0
  base : Nat := 0
  depth : Nat := 0
  /-- Eight 4-bit increments, the oldest lowest. -/
  stack : Word := 0
  park : Park := .running
  yielded : Bool := false
  age : Nat := 0
  /-- First cycle in which a woken or new fibre may issue (R168, R177, R256). -/
  wake : Nat := 0
  /-- Its age has raised WATCHDOG, and it has not issued since (R162). -/
  barked : Bool := false
  deriving DecidableEq, Repr

/-- A walker: its 64-byte descriptor as eight dwords and its indices (R204). -/
structure Walker where
  desc : List DWord := []
  idx : List Nat := [0, 0, 0, 0]
  deriving DecidableEq, Repr

/-- A level record (R383, R397). -/
structure Level where
  trap : Bool
  stream : Bool
  emupc : DWord
  emumask : Word
  ow : List DWord
  s56 : List DWord
  partn : DWord
  enables : Nat
  /-- TCAUSE, TDET0 to TDET2, TPC, TSKID. -/
  causes : List DWord
  streamPc : DWord
  host : Word
  lanes : SMap Fibre
  /-- The level's cause came from a word at EMUPC. -/
  fromWord : Bool
  /-- Address of the faulting word. -/
  wordAddr : DWord
  /-- The faulting word is of class 4. -/
  class4 : Bool
  deriving DecidableEq, Repr

/-- A word that lanes leave out once: one that `EMURET skip` suppressed (R182), or a `FENCE.SC` that has completed for a
group in which words stand behind it (R139). -/
structure Suppress where
  gpc : DWord
  word : DWord
  lanes : Word
  /-- The fence, whose group has still to issue. -/
  fence : Bool := false
  deriving DecidableEq, Repr

/-- A batch parked on a vertical-FIFO direction (R259). -/
structure FifoWait where
  seq : Nat
  push : Bool
  /-- Lanes of the batch. -/
  lanes : Word
  /-- Lanes the word acts on. -/
  active : Word
  /-- Physical destination register of a pop. -/
  dst : Nat
  z : Bool
  /-- The entry of a push: 32 words. -/
  entry : List Word
  deriving DecidableEq, Repr

/-- A warp (R63, R155). -/
structure Warp where
  gid : Nat
  idx : Nat
  copy : Bool
  /-- Registers of the allocation. -/
  nregs : Nat
  /-- Allocation register × 32 + lane. -/
  v : SMap Word := []
  s : SMap DWord := []
  j : SMap Word := []
  fib : SMap Fibre := []
  walkers : SMap Walker := []
  wflags : DWord := 0
  rmode : DWord := 1
  dseed : DWord := 0
  partn : DWord := 0
  wctl : DWord := 0x41
  watchdog : DWord := 64
  tcause : DWord := 0
  tdet0 : DWord := 0
  tdet1 : DWord := 0
  tdet2 : DWord := 0
  tpc : DWord := 0
  tskid : DWord := 0
  ow : List DWord := [0, 0, 0, 0, 0, 0, 0, 0]
  emupc : DWord := 0
  emumask : DWord := 0
  emudepth : DWord := 0
  emuctl : DWord := 0
  pidx : DWord := 0
  /-- Open levels, innermost first. -/
  levels : List Level := []
  suppress : List Suppress := []
  /-- VFLT words not yet complete: the cycle of completion and the flags they then raise (R212). -/
  flagsDue : List (Nat × Nat) := []
  /-- First cycle in which a register's result can be read: physical vector register (R158, R212). -/
  readyAt : SMap Nat := []
  fifoQ : List FifoWait := []
  fifoSeq : Nat := 0
  /-- An outstanding `FENCE.SC`: its lanes and, once drained, the tick it waits for (R139). -/
  fenceSc : Option (Word × Option Nat) := none
  /-- Address of the last chain group issued, 0 before any (R380). -/
  lastPc : DWord := 0
  /-- Skid groups and the cycle of the last, while a halt runs (R380). -/
  skidGroups : Nat := 0
  skidLast : Nat := 0
  /-- Stopped before a skid group that would itself raise (R379). -/
  skidStop : Bool := false
  /-- Stopped by a halt, or kept halted by an open trap level. -/
  stopped : Bool := false
  deriving DecidableEq, Repr

/-- A group shape (R344). -/
structure Shape where
  warps : Nat
  copies : Nat
  regs : Nat
  scratch : Nat
  stream : Bool
  gang : Nat
  scode : DWord
  deriving DecidableEq, Repr

/-- A task record (R355). -/
structure Task where
  entry : DWord
  arg : DWord
  tx : Nat
  ty : Nat
  pass : Nat
  cls : Nat
  flags : Nat
  succ : DWord
  fscope : Nat
  shape : Nat
  codever : Nat
  bind : DWord
  user0 : DWord
  user1 : DWord
  /-- Byte 21 bits [7:3], half 34 and flag bits [15:3], which must be zero (R361). -/
  rz : Nat := 0
  deriving DecidableEq, Repr

/-- A content tag of the weight buffer (R292): the form, ASID or DOMAIN, source VA or PA, B fields of the format word,
scale VA or PA or 0. -/
structure WTag where
  shared : Bool := false
  dom : Nat := 0
  src : Nat := 0
  fields : Nat := 0
  scale : Nat := 0
  deriving DecidableEq, Repr

/-- A pinned weight tile of a stream (R291, R312). -/
structure Pin where
  gen : Nat := 0
  /-- Weight-buffer entries, the first holding the values. -/
  entries : List Nat := []
  /-- The tag of the tile that it pins, or pinned last. -/
  tag : WTag := {}
  /-- When it was last named, in the order of the stream's uses. -/
  used : Nat := 0
  deriving DecidableEq, Repr

/-- What a leaf says of its page. -/
structure Page where
  wr : Bool := true
  ord : Nat := 1
  tso : Bool := false
  cp : Nat := 0
  deriving DecidableEq, Repr

/-- Where an access lands. -/
inductive Target where
  /-- Byte offset in the issuing group's scratch (R81). -/
  | scr (off : Nat)
  /-- Physical address of GDDR 7 or the host aperture. -/
  | mem (pa : Nat) (pg : Page)
  /-- BAR0 offset, through the register alias (R414). -/
  | reg (off : Nat)
  /-- A byte of a tower's scratch ways. -/
  | ring (tower key : Nat)
  /-- Nothing: the access of a matrix stream meets MEM_DATA of this source at this address when it is made (R316,
  R337). -/
  | fail (src pa : Nat)
  deriving DecidableEq, Repr

/-- A change of state that translating an access makes: A and D set in an entry (R90). -/
structure ADSet where
  /-- The address translated. -/
  va : DWord
  ea : Nat
  bits : Nat
  deriving DecidableEq, Repr

/-- Kinds of engine operation (R315). -/
inductive MopKind where
  | mma | mmas | mwld | mzero | mlacc | mdrain | msig
  deriving DecidableEq, Repr

/-- An engine operation of a matrix stream (R315). -/
structure Mop where
  /-- Its number among the column's operations, in the order they leave their queues (R315). -/
  id : Nat := 0
  gid : Nat
  core : Nat
  kind : MopKind
  pc : DWord
  word : Word
  /-- Tile; q register values as the word read them (R314): A descriptor or scratch offset, format word,
  options word, address. -/
  acc : Nat := 0
  qa : DWord := 0
  qf : DWord := 0
  qo : DWord := 0
  qd : DWord := 0
  /-- q register that `MWLD` writes, scale address and the forced reload. -/
  dst : Nat := 0
  qx : DWord := 0
  new : Bool := false
  /-- First weight-buffer entry of the tile that the handle names. -/
  entry : Nat := 0
  cls : Nat := 0
  rm : Nat := 0
  seed : Word := 0
  /-- Targets found at issue, with their lengths: of a drain one list for each row, then one for each
  scale container; of a weight load the tile's and the scales'. -/
  parts : List (List (Target × Nat)) := []
  /-- `MXCFG` as sampled when it left its queue (R296). -/
  strict : Bool := true
  merge : Bool := true
  policy : Nat := 0
  holde : Nat := 6
  /-- A rows as little-endian bit strings, and their scales (R318), read when the operation leaves. -/
  arows : List Nat := []
  ascales : List Nat := []
  /-- Rows a drain has still to perform; the tile once read. -/
  rows : List Nat := []
  tile : Option (List (Nat × Word)) := none
  /-- First cycle in which it may leave its queue; of a drain, the cycle from which its tile is read (R334). -/
  ready : Nat := 0
  /-- The step in which its word issued (R91). -/
  born : Nat := 0
  /-- The A read is under way: the first cycle in which the operation can arrive at Kennel or arbitration (R334). -/
  arriveAt : Option Nat := none
  /-- An `MMAS` whose arrival has been made (R321). -/
  told : Bool := false
  /-- An `MWLD` that missed: it completes with its fill. -/
  fills : Bool := true
  /-- Its fill has failed: REASON and address (R322). -/
  bad : Option (Nat × DWord) := none
  /-- The operation has finished: the fold word, if it writes one. -/
  done : Option (Option Nat) := none
  deriving DecidableEq, Repr

/-- An asynchronous fault of a stream that has still to be delivered (R316). -/
structure MFault where
  pc : DWord
  word : Word
  reason : Nat
  acc : Nat
  addr : DWord
  deriving DecidableEq, Repr

/-- Why a stream does not issue (R311, R316, R327). -/
inductive SPark where
  | running
  | mwait (off gen qd : Nat)
  | replay (tower : Nat) (entries : List Nat) (more : Bool)
  | halted
  deriving DecidableEq, Repr

/-- A matrix stream (R312). -/
structure Stream where
  pc : DWord
  q : SMap DWord := []
  cls : Nat := 0
  /-- The class of the task record. -/
  cls0 : Nat := 0
  pins : SMap Pin := []
  /-- Operations not yet out of the queue, oldest first (R309). -/
  queue : List Mop := []
  /-- Operations out of the queue and not complete, in stream order. -/
  out : List Mop := []
  fold : Nat := 0
  opseq : Nat := 0
  park : SPark := .running
  /-- First cycle in which a woken stream may issue. -/
  wake : Nat := 0
  ended : Bool := false
  /-- Stopped with its group by a halt (R379). -/
  stopped : Bool := false
  /-- Stopped before a skid word that would itself raise (R379). -/
  skidStop : Bool := false
  /-- First cycle in which an operation may leave the queue (R315). -/
  leave : Nat := 0
  /-- The rest of the packet in hand: the address of its next word, and the words (R311). -/
  buf : Option (DWord × List Word) := none
  faults : List MFault := []
  /-- Counter of the pins' recency. -/
  seq : Nat := 0
  /-- Word suppressed once by `EMURET skip`. -/
  skip : Option DWord := none
  /-- Pin slots of a restored stream that have still to be loaded again (R310). -/
  reload : List Nat := []
  deriving DecidableEq, Repr

/-- A halt in progress (R379). -/
structure Halt where
  /-- Cycle c. -/
  c : Nat
  /-- A save (no originating warp) or a trap. -/
  save : Bool
  cause : Cause := .none
  d0 : Nat := 0
  d1 : Nat := 0
  d2 : Nat := 0
  /-- Group and warp slot of the origin. -/
  ogid : Nat := 0
  oslot : Nat := 0
  olanes : Word := 0
  ostream : Bool := false
  gpc : DWord := 0
  wpc : DWord := 0
  ow : List DWord := []
  fromWord : Bool := true
  class4 : Bool := false
  /-- For a stream frame, where it resumes. -/
  streamPc : DWord := 0
  /-- The frame of one lane's bind wait (R403). -/
  bind : Bool := false
  deriving DecidableEq, Repr

/-- A shape of the copy engine (R268). -/
structure CShape where
  row : Nat
  count1 : Nat
  count2 : Nat
  mstride1 : DWord
  mstride2 : DWord
  sstride1 : Nat
  sstride2 : Nat
  deriving DecidableEq, Repr

/-- A group resident on a core (R151). -/
structure Group where
  core : Nat
  ctx : Nat
  shape : Shape
  /-- Warp slots in warp order. -/
  slots : List Nat
  task : Task
  /-- VA of the arena record. -/
  taskVa : DWord
  launch : Nat
  /-- Groups of the gang in gang order, this one included. -/
  gang : List Nat
  gidx : Nat
  /-- Groups started on the core before this one (GRPID.SEQ). -/
  seq : Nat
  scratch : Memory := []
  /-- The blocks of the L1/scratch array that hold its scratch (R99). -/
  blocks : List Nat := []
  /-- An engine operation of the group has written memory and has not yet been joined on the core (R136, R142). -/
  wrote : Bool := false
  mxcfg : DWord := 0x63
  /-- Shape slots 0 to 3 (R268). -/
  cshapes : SMap CShape := []
  stream : Option Stream := none
  /-- Resources the task has `TRETIRE`d (R369). -/
  trets : List Nat := []
  /-- Those of its `TRETIRE`s that take effect as this cycle ends (R353). -/
  tretDue : List Nat := []
  /-- Accumulator tiles the stream has named (R398). -/
  tiles : List Nat := []
  halt : Option Halt := none
  /-- A save of the group is wanted (R393), and whether by pre-emption (R400). -/
  saving : Bool := false
  preempted : Bool := false
  /-- System software has switched it out: it stays saved until it is switched in again (R393; log 60). -/
  out : Bool := false
  /-- Ended at system level: no output becomes READY (R389). -/
  killed : Bool := false
  /-- Every warp has ended and the stream has executed `MEND` (R154). -/
  ended : Bool := false
  /-- The finish scope the task is a member of (R363), 0 for none. -/
  scope : DWord := 0
  /-- The columns whose vertical FIFO the gang holds for this group (R169). -/
  fifo : Bool := false
  /-- What each batch or stream parked on a fault-buffer entry receives if the entry is aborted: tower, entry,
  frame (R98). -/
  waits : List (Nat × Nat × Halt) := []
  /-- Causes still to deliver, oldest first, while a halt is under way. -/
  owed : List Halt := []
  /-- Cycle of the start, and the restore after which priority does not save it (R400). -/
  born : Nat := 0
  pinned : Nat := 0
  deriving DecidableEq, Repr

/-- State of an entry of the copy engine's table (R278). -/
inductive CState where
  | free | queued | running | parked | done | faulted | cancelled
  deriving DecidableEq, Repr

/-- A member of a copy operation: its group and the chunks that have arrived (R272, R280). -/
structure CMember where
  gid : Nat
  gidx : Nat
  arrived : List Nat := []
  parked : List Nat := []
  dropped : Bool := false
  /-- The group has been restored: what it lacks comes to it from the far side alone, without forwarding (R283). -/
  direct : Bool := false
  deriving DecidableEq, Repr

/-- An operation of the copy engine (R271). -/
structure CopyOp where
  gid : Nat
  ctx : Nat
  func : Nat
  far : DWord
  xfer : DWord
  shape : CShape
  gen : Nat
  state : CState
  reason : Nat := 0
  members : List CMember := []
  /-- A CCANCEL or fault is settling, and the chunks that had started, which still complete or fail (R276). -/
  settling : Bool := false
  started : List Nat := []
  /-- `CGATH`: the index of each row whose first chunk has started (R274). -/
  idx : SMap Nat := []
  /-- Fault-buffer entries chunks are parked on: (member, chunk, tower, index). -/
  waits : List (Nat × Nat × Nat × Nat) := []
  /-- A multicast chunk as its engine read it, while a member still has to receive it (R279). -/
  held : SMap Nat := []
  /-- Replies of `CCANCEL`, written after the settling step (R277). -/
  reply : List Ev.Reply := []
  deriving DecidableEq, Repr

/-- A line of a core's L1: page writable, ASID, the listed bytes as filled (R99 to R101, R136). -/
structure L1Line where
  wr : Bool
  asid : Nat
  data : Memory
  /-- Its place in the array: 128 lines to each 16 KiB block (R99). -/
  slot : Nat := 0
  /-- Replacement: priority (0 stream, 1 normal, 2 keep) and recency (R235; log 7). -/
  pri : Nat := 1
  used : Nat := 0
  deriving DecidableEq, Repr

/-- A cached page-table entry: level, the VA bits above it, the entry and its address (R91). -/
structure TlbEntry where
  asid : Nat
  level : Nat
  /-- The VA bits above those the level translates: va / 2^(16 + 13 × level). -/
  va : Nat
  pte : DWord
  pa : Nat
  deriving DecidableEq, Repr

/-- A line of a core's code cache (R120). -/
structure CodeLine where
  asid : Nat
  /-- VA of the 64-byte line. -/
  va : Nat
  data : Memory
  deriving DecidableEq, Repr

/-- A core (R5, R150). -/
structure Core where
  /-- Accumulator elements: tile × 1024 + row × 32 + column (R289). -/
  acc : SMap Word := []
  /-- ASID tags of the tiles (R290). -/
  accTag : SMap Nat := []
  l1 : SMap L1Line := []
  code : List CodeLine := []
  copies : SMap CopyOp := []
  /-- Use counts of the copy table's entries, kept when an entry is free (R271). -/
  copyGen : SMap Nat := []
  /-- Rounds of the package in which the core has had no cycle of its own, and how far it is behind in the next one: its
  clock is that of X0, or of X1 for core B (R15, R434; log 4). -/
  lag : Nat := 0
  phase : Nat := 0
  /-- Cycles of the core at the last power-up of the layer, and groups started since (R172). -/
  cycle0 : Nat := 0
  started : Nat := 0
  /-- Warp that last issued in each quadrant (R159). -/
  last : SMap Nat := []
  /-- Each quadrant's S pipe: the cycle of its last word, and the first in which it is free again (R212). -/
  pipeS : SMap (Nat × Nat) := []
  /-- Counter of the L1 lines' recency. -/
  clock : Nat := 0
  /-- Stream (group) that last issued (R311). -/
  lastStream : Nat := 0
  deriving DecidableEq, Repr

/-- A weight-buffer entry (R291, R292). -/
structure WEntry where
  tag : WTag
  /-- Source VA and context of the fill; the group that asked for it. -/
  va : DWord
  sva : DWord
  ctx : Nat
  gid : Nat
  /-- Where the fill reads: the tile's targets and the scales'. -/
  parts : List (List (Target × Nat))
  /-- The values and metadata, from offset 0, and the scales, from offset 0x2000. -/
  data : Memory := []
  filling : Bool := true
  /-- First cycle in which the fill may finish, and the step in which its word issued (R91). -/
  readyAt : Nat := 0
  born : Nat := 0
  unmatchable : Bool := false
  /-- The first entry of the tile; itself when it is the first. -/
  first : Nat
  deriving DecidableEq, Repr

/-- A contributor of an engine operation: the operation and its stacked row (R304, R305). -/
structure Contrib where
  mop : Mop
  row : Nat
  deriving DecidableEq, Repr

/-- A slot of Kennel (R303, R304). -/
structure KSlot where
  key : List Nat
  members : List Contrib
  rows : Nat
  deadline : Nat
  born : Nat
  deriving DecidableEq, Repr

/-- An operation ready at, or inside, the engine (R307, R296). -/
structure EOp where
  members : List Contrib
  cls : Nat
  born : Nat
  /-- Layers present in its sample, set at entry. -/
  layers : Nat := 0
  resultAt : Nat := 0
  /-- Stages that run from a cycle on, each of so many cycles (R287). -/
  stageAt : Nat := 0
  stages : Nat := 0
  iv : Nat := 0
  /-- First cycle from which it has been ready without a break, 0 for none (R307). -/
  since : Nat := 0
  /-- A layer failed under it: it enters again before any later operation of its streams (R297). -/
  again : Bool := false
  deriving DecidableEq, Repr

/-- A column: vertical FIFO and matrix engine (R169, R285). -/
structure Column where
  up : List (List Word) := []
  down : List (List Word) := []
  /-- Entries that each direction (0 UP, 1 DOWN) has taken and given up in this cycle (R259). -/
  fresh : SMap Nat := []
  gone : SMap Nat := []
  /-- Groups (core A's, core B's) that hold the FIFO. -/
  holders : Option (Nat × Nat) := none
  wbuf : SMap WEntry := []
  kennel : SMap KSlot := []
  ready : SMap EOp := []
  flying : SMap EOp := []
  /-- Cycle and interval of the last entry; interval 0 before any (R287). -/
  lastEntry : Nat := 0
  lastI : Nat := 0
  /-- Core that supplied the last entry, plus 1; 0 before any. -/
  lastCore : Nat := 0
  nextId : Nat := 0
  deriving DecidableEq, Repr

/-- An entry of a fault buffer (R96). -/
structure FbEntry where
  va : DWord
  asid : Nat
  kind : Nat
  reason : Nat
  level : Nat
  src : Nat
  waiters : Nat
  ptepa : Nat
  stamp : Nat
  deriving DecidableEq, Repr

/-- An entry of a lost-line log (R106): line number, source, stamp. -/
structure LostEntry where
  line : Nat
  src : Nat
  stamp : Nat
  /-- Bytes of the line written since, one bit each. -/
  mask : Nat := 0
  deriving DecidableEq, Repr

/-- A ring log in the layout of TLSTAT: entries as dwords, oldest overwritten (R390, R428, R440). -/
structure Log where
  entries : SMap (List DWord) := []
  head : Nat := 0
  lost : Nat := 0
  seq : Nat := 0
  /-- Entries written and not read since. -/
  unread : List Nat := []
  deriving DecidableEq, Repr

/-- What a bank knows of a cached line (R92, R111, R115). -/
structure LineMeta where
  dirty : Bool := false
  ro : Bool := true
  reads : Nat := 0
  /-- Banks that hold a replica, with the way that holds it (R111). -/
  replicas : List (Nat × Nat) := []
  used : Nat := 0
  /-- The way of its home bank that holds it (R103), and its replacement priority (R235; log 7). -/
  way : Nat := 0
  pri : Nat := 1
  deriving DecidableEq, Repr

/-- A finish-scope entry (R363). -/
structure FScope where
  count : Nat
  /-- The continuation, its arena record and its launch. -/
  cont : Task
  va : DWord
  launch : Nat
  parent : DWord
  asid : Nat
  deriving DecidableEq, Repr

/-- A task waiting in a spawn queue: launch, record VA in the arena, record, scope (R354). -/
structure Spawned where
  launch : Nat
  va : DWord
  task : Task
  scope : DWord
  deriving DecidableEq, Repr

/-- A gang being reserved (R358). -/
structure GangRes where
  launch : Nat
  /-- Pass index, 64 for a spawned task. -/
  pass : Nat
  cls : Nat
  shape : Shape
  members : List Nat
  /-- Members reserved, from the first. -/
  reserved : Nat
  /-- Cycles in which the first and the current reservation began. -/
  started : Nat
  since : Nat
  deriving DecidableEq, Repr

/-- A tower's stacked memory engine and graph engine. -/
structure Tower where
  fb : SMap FbEntry := []
  fullcnt : Nat := 0
  lost : SMap LostEntry := []
  /-- Lost lines that found the log full (R106). -/
  unlogged : List Nat := []
  fatal : Bool := false
  trapLog : Log := {}
  /-- Physical banks (column × 2 + die) in home-bank order (R102). -/
  homes : List Nat := List.range 64
  /-- Columns no longer enabled; columns whose removal is under way (R4, R117). -/
  gone : List Nat := []
  retiring : List Nat := []
  /-- Banks lost without a spare; banks being evacuated (column × 2 + die). -/
  lostBanks : List Nat := []
  evac : List Nat := []
  /-- Columns that a spare site takes over once their groups have ended. -/
  respare : List Nat := []
  spares : Nat := 2
  /-- Physical site of each logical column, from the blob's map, and sites that may not be used (R3, R4). -/
  sites : SMap Nat := []
  badSites : List Nat := []
  /-- Ways each context holds: context and way numbers, the same in every bank (R103). -/
  ways : SMap (List Nat) := []
  /-- Contents of the scratch ways: bank × 2^23 + way × 2^19 + offset. -/
  ringMem : Memory := []
  lines : SMap LineMeta := []
  clock : Nat := 0
  /-- Cache dies shut down (layer codes 1, 2) and being shut down. -/
  dieOff : List Nat := []
  /-- Loop stations whose ports are down (banks); the cycle of each station's last flit; and the cycle in
  which a flit came to a station that is down (R112). -/
  portDown : List Nat := []
  portIdle : SMap Nat := []
  portWait : SMap Nat := []
  /-- The read-count window, of 1,024 cycles, that each bank's counts belong to (R111). -/
  windows : SMap Nat := []
  lastref : Nat := 0
  wrerr : Nat := 0
  reexec : Nat := 0
  succerr : Nat := 0
  gerrva : DWord := 0
  scopes : SMap FScope := []
  scopeGen : SMap Nat := []
  /-- Spawn queues by class (R354). -/
  spawn : SMap (List Spawned) := []
  gangs : List GangRes := []
  /-- Queues (launch, pass) whose gang was cancelled, and the cycle. -/
  gangHold : List (Nat × Nat × Nat) := []
  /-- Queues (launch, pass) whose gang was cancelled at its limit: they come behind the other heads until one of these
  has been placed (R358). -/
  gangLate : List (Nat × Nat) := []
  /-- First cycle in which the tower may dispatch again (R354), and whether a head could start as the previous cycle
  ended (R373). -/
  dispatched : Nat := 0
  mayDispatch : Bool := false
  /-- Messages to and from the other tower: next number to send and to take, modulo 2^32 (R149, R423). -/
  mirrorOut : Nat := 0
  mirrorIn : Nat := 0
  deriving DecidableEq, Repr

/-- A pass descriptor (R345). -/
structure Pass where
  entry : DWord
  gridw : Nat
  gridh : Nat
  tsize : Nat
  cls : Nat
  gang : Nat
  shape : Nat
  present : Bool
  head : Nat
  recarg : Bool
  mask0 : DWord
  mask1 : DWord
  ins : List (Nat × Nat)
  outs : List Nat
  argoff : Nat
  split : Nat
  cardrow : Nat
  user0 : DWord
  user1 : DWord
  deriving DecidableEq, Repr

/-- A resource descriptor (R346). -/
structure Res where
  transient : Bool
  overflow : Bool
  hostvis : Bool
  tsize : Nat
  gridw : Nat
  gridh : Nat
  slots : Nat
  slotbytes : Nat
  ovfslots : Nat
  deriving DecidableEq, Repr

/-- A stencil descriptor (R346). -/
structure Stencil where
  form : Nat
  x0 : Int
  x1 : Int
  y0 : Int
  y1 : Int
  deriving DecidableEq, Repr

/-- A graph record (R343). -/
structure Graph where
  passes : List Pass
  res : List Res
  stencils : List Stencil
  shapes : List Shape
  deriving DecidableEq, Repr

/-- State of a resource tile (R351). -/
inductive RTState where
  | idle | writing | ready | freed
  deriving DecidableEq, Repr

/-- Where a transient tile lives (R107, R108, R116). -/
inductive Place where
  | none
  /-- Tower and slot of the ring. -/
  | slot (tower n : Nat)
  /-- Slot of the overflow area. -/
  | ovf (n : Nat)
  /-- Physical address in the emergency area. -/
  | emerg (pa : Nat)
  deriving DecidableEq, Repr

/-- A resource tile (R351). -/
structure RTile where
  st : RTState := .idle
  lrc : Nat := 0
  lost : Bool := false
  place : Place := .none
  /-- The other tower's scoreboard has been told that it is READY (R365). -/
  seen : Bool := false
  deriving DecidableEq, Repr

/-- A consumer tile (R352). -/
inductive CTile where
  | waiting (n : Nat)
  | released
  | running
  | retired
  deriving DecidableEq, Repr

/-- A ring bound in a tower: the bank of each slot, its byte offset in the context's ways there, and those
ways by rank when it was placed; the slots in use (R107, R359). -/
structure Ring where
  tower : Nat
  places : List (Nat × Nat × List Nat)
  /-- Slots moved or lost: slot and the emergency address that replaces it. -/
  moved : SMap Nat := []
  used : List Nat := []
  lost : List Nat := []
  deriving DecidableEq, Repr

/-- A launch (R342). -/
structure Launch where
  ctx : Nat
  order : Nat
  graph : Graph
  argbase : DWord
  bind : DWord
  done : DWord
  codever : Nat
  classcap : Nat
  towers : Nat
  card : Nat
  seq : DWord
  arena : DWord
  arenasz : Nat
  /-- Pass classes as `GPRIO` leaves them in each tower, pass × 2 + tower; and those that take effect in the next
  scoreboard cycle (R369). -/
  classes : SMap Nat := []
  prios : SMap Nat := []
  /-- Resource tiles: resource × 2^24 + y × 2^12 + x. -/
  rts : SMap RTile := []
  /-- Consumer tiles: pass × 2^24 + y × 2^12 + x. -/
  cts : SMap CTile := []
  /-- Dispatch queues of the passes (tile keys), lowest tower first: pass × 2 + tower. -/
  queues : SMap (List Nat) := []
  /-- Rings: resource × 2 + tower. -/
  rings : SMap Ring := []
  /-- The binding table as acceptance reads it. -/
  binds : List DWord := []
  /-- Overflow slots in use: resource × 2^32 + slot. -/
  ovf : List Nat := []
  /-- Arena records in use. -/
  recs : List Nat := []
  /-- Cycle of the last dispatch from each queue (pass × 2 + tower), for R393. -/
  moved : SMap Nat := []
  /-- Consumer tiles to be re-executed, with the cycle they were marked in (R360). -/
  redo : SMap Nat := []
  /-- Passes whose retirement has scheduled its flip (R427). -/
  shown : List Nat := []
  /-- Towers whose scoreboards hold their part of it (R8, R149). -/
  parts : List Nat := [0, 1]
  /-- Completed, and kept for the continuations of its scopes. -/
  finished : Bool := false
  aborted : Bool := false
  /-- Towers that know of the abort (R8). -/
  heard : List Nat := []
  /-- Tasks outside the scoreboard not yet retired. -/
  extra : Nat := 0
  /-- Queue and count of the submission, for the second completion entry (R420). -/
  sub : Option (Nat × Nat) := none
  scope : DWord := 0
  deriving DecidableEq, Repr

/-- A context's block (R421, R87, R302, R382, R391, R393). -/
structure Ctx where
  valid : Bool := false
  sys : Bool := false
  asid : DWord := 0
  ptbase : DWord := 0
  privbase : DWord := 0
  ways0 : Nat := 0
  ways1 : Nat := 0
  ctxcfg : DWord := 1
  ctxprio : DWord := 0
  savepool : DWord := 0
  savecfg : DWord := 0
  cvtbase : DWord := 0
  mxshare : DWord := 0
  trapvec : DWord := 0
  emuvec : DWord := 0
  dismask : DWord := 0
  ctxst : DWord := 0
  deriving DecidableEq, Repr

/-- A group out of its core in a save record (R394, R395). -/
structure Saved where
  ctx : Nat
  gid : Nat
  /-- VA of the record. -/
  va : DWord
  block : Nat
  /-- What the record has no field for: the group's bookkeeping, the parks' destinations, the order of parks. -/
  group : Group
  warps : List Warp
  copies : List (Nat × CopyOp)
  /-- Scratch offsets of data-arrival words whose FAULT update is due at the restore (R280, R283). -/
  faults : List Nat := []
  /-- Entries of UP and DOWN saved with core A's group, and the pair that held its column (R171). -/
  up : List (List Word) := []
  down : List (List Word) := []
  holders : Option (Nat × Nat) := none
  /-- Replies that arrived since: index of the warp, register, value. -/
  replies : List (Nat × Nat × DWord) := []
  /-- Cycle of the save. -/
  at_ : Nat
  preempted : Bool
  deriving DecidableEq, Repr

/-- A submission queue (R418). -/
structure Queue where
  sqbase : DWord := 0
  log2sz : Nat := 4
  enable : Bool := false
  remote : Bool := false
  error : Bool := false
  asid : Nat := 0
  sqtail : Nat := 0
  sqhead : Nat := 0
  cqbase : DWord := 0
  cqhead : Nat := 0
  cqtail : Nat := 0
  deriving DecidableEq, Repr

/-- A display head (R426). -/
structure Head where
  surf : DWord := 0
  pend : DWord := 0
  hcfg : DWord := 0
  flips : Nat := 0
  drops : Nat := 0
  deriving DecidableEq, Repr

/-- A layer's VF block (R435). -/
structure VfBlock where
  /-- VFPTi as written; a point not listed reads the blob's value (log 42). -/
  pts : SMap DWord := []
  ofs : Nat := 0
  pmax : Nat := 15
  pmin : Nat := 0
  vmax : Nat := 480
  fmax : Nat := 3400
  point : Nat := 0
  mv : Nat := 0
  mhz : Nat := 0
  why : Nat := 0
  /-- The point, voltage and frequency of the transition under way, if one is (R436). -/
  goal : Option (Nat × Nat × Nat) := none
  deriving DecidableEq, Repr

/-- The reply that a `PGREQ` waits for (R447). -/
structure PgWait where
  core : Nat
  slot : Nat
  gid : Nat
  d : Nat
  deriving DecidableEq, Repr

/-- A gate that waits for its saves, or an ungate that waits for it (R444). -/
structure Gating where
  /-- (tower × 32 + column) × 8 + layer code. -/
  key : Nat
  up : Bool
  reply : Option PgWait
  deriving DecidableEq, Repr

/-- The management core's registers and records (R432 to R442). -/
structure Mgmt where
  pwrLim : Nat := 500
  curLim : Nat := 400
  pwrMax : Nat := 680
  pwr : Nat := 0
  cur : Nat := 0
  tmax : Int := 0
  /-- OP, COL, TWR, LAYER as written; STATUS; BUSY. -/
  cmd : DWord := 0
  cmdStatus : Nat := 0
  busy : Bool := false
  /-- Warning level per layer code; critical level. -/
  warn : SMap Nat := []
  crit : SMap Nat := []
  /-- (tower × 32 + column) × 8 + layer code. -/
  temps : SMap Int := []
  vf : SMap VfBlock := []
  gated : List Nat := []
  failed : List Nat := []
  /-- Layers held gated by R439, and those of them that it gated itself. -/
  heldHot : List Nat := []
  hotGated : List Nat := []
  /-- Gates that wait for saves. -/
  gating : List Gating := []
  /-- `PGREQ` replies that wait for an ungate: layer key and reply. -/
  ungating : List (Nat × PgWait) := []
  /-- The MGCMD command that runs: OP, or 0 once it has ended; layer key or bank or die; and the status it will report. -/
  job : Option (Nat × Nat × Nat) := none
  /-- Package cycle of the next control step of R437. -/
  vfNext : Nat := 260000
  throttle : Log := {}
  /-- channel × 8 + counter. -/
  gddr : SMap Nat := []
  gddrSnap : SMap (List DWord) := []
  sruns : SMap Nat := []
  sskips : SMap Nat := []
  sva : SMap Nat := []
  svb : SMap Nat := []
  smx : SMap Nat := []
  slast : SMap (List DWord) := []
  /-- Cycles of a matrix layer's mismatches within the last second. -/
  smiss : SMap (List Nat) := []
  nonce : List DWord := [0, 0, 0, 0]
  attBusy : Bool := false
  /-- The nonce as a request found it. -/
  attNonce : List DWord := []
  report : List DWord := []
  signed : Bool := false
  identity : Bool := false
  /-- Towers whose X0 or P went critical, with the cycle (R439). -/
  hot : SMap Nat := []
  /-- The allow list of MAC addresses, by entry (R425). -/
  allow : SMap Nat := []
  en0 : Nat := 0
  en1 : Nat := 0
  deriving DecidableEq, Repr

/-- A frame that has been sent and not acknowledged (R366, R425): its port, KIND and number, the launch SEQ and the
resource tile that it names, and the cycles of its last and of its first sending. -/
structure EthSent where
  port : Nat
  kind : Nat := 1
  seq : Nat
  launch : DWord
  tile : Nat
  last : Nat
  first : Nat
  deriving DecidableEq, Repr

/-- Ethernet peers (R425, R366). -/
structure Eth where
  /-- Next number expected from each source, by MAC address; the last that has been acknowledged to it; and the next
  number to send through each port. -/
  rx : SMap Nat := []
  acks : SMap Nat := []
  tx : SMap Nat := []
  unacked : List EthSent := []
  /-- READY changes of launches that this card has not accepted yet: launch SEQ and tile (R366). -/
  early : List (Nat × Nat) := []
  /-- Stream data received, per port. -/
  stream : SMap (List Byte) := []
  /-- Bit n: port n has a grandmaster. -/
  grandmaster : Nat := 0
  deriving DecidableEq, Repr

/-- MSI-X: the function mask, table entries (address, data, mask), and pending bits (R415; log 37). -/
structure Msix where
  fmask : Bool := false
  table : SMap (DWord × DWord) := []
  pending : List Nat := []
  deriving DecidableEq, Repr

/-- The issue in progress, which a word's meaning reads (log 3). -/
structure Issue where
  /-- The issuer: a matrix stream (true) or a warp. -/
  stream : Bool := false
  core : Nat := 0
  slot : Nat := 0
  gid : Nat := 0
  lanes : Word := 0
  base : Nat := 0
  /-- Address of the chain group's first word, its PFX included. -/
  gpc : DWord := 0
  /-- Address of this word. -/
  wpc : DWord := 0
  /-- Address of the packet. -/
  pkt : DWord := 0
  /-- Address of the chain group that follows. -/
  next : DWord := 0
  word : Word := 0
  pfx : Option Pfx := none
  /-- The warp as it stood before the group issued (R51); none for a group of one word. -/
  snap : Option Warp := none
  /-- The words of the group that the issue left out (R182, R139). -/
  sup : List DWord := []
  /-- Only ask what the word raises. -/
  probe : Bool := false
  raised : Option Raise := none
  deriving DecidableEq, Repr

/-- The heartbeat (R138, R425). -/
structure Clock where
  hb0 : Nat := 0
  hb1 : Nat := 0
  running : Bool := false
  /-- Cycle of the next tick, and of the last. -/
  nextTick : Nat := 0
  lastTick : Nat := 0
  /-- Correction in ppm, at most 200 either way, and the part of a cycle carried on, in thousand-millionths. -/
  ppm : Int := 0
  part : Int := 0
  deriving DecidableEq, Repr

/-- What no instruction word changes: the heartbeat, bring-up and the driver's attachment. -/
structure Env where
  clk : Clock := {}
  /-- Last bring-up step completed, failed step, READY, 802.1AS lock (R432). -/
  step : Nat := 0
  failStep : Nat := 0
  ready : Bool := false
  locked : Bool := false
  /-- The package is off or halted, and its fault output is asserted (R429, R439). -/
  off : Bool := false
  fault : Bool := false
  /-- ATTACH.PROTO and ATTACHED (R416). -/
  proto : Nat := 0
  attached : Bool := false
  deriving DecidableEq, Repr

/-- A `CFLUSH` whose walk waits on a fault-buffer entry (R122): what is left of its range, and the reply to come. -/
structure Walking where
  ctx : Nat
  tower : Nat
  entry : Nat
  va : DWord
  left : Nat
  mode : Nat
  lines : Nat
  reply : Ev.Reply
  /-- The frame that an abort delivers. -/
  frame : Halt
  deriving DecidableEq, Repr

/-- A `TLBINV` that has dropped its entries and waits, until every access that used one has performed (R91, R120):
its operands, the step in which it took effect, and its reply. -/
structure Inval where
  a : DWord
  b : DWord
  tick : Nat
  reply : Ev.Reply
  deriving DecidableEq, Repr

/-- The layers as they stood at the end of the previous cycle (R338): those gated, those that a gate awaits, and the
frequency of each VF block. -/
structure LayerView where
  gated : List Nat := []
  gating : List Nat := []
  mhz : SMap Nat := []
  deriving DecidableEq, Repr

/-- Everything else. -/
structure Dev where
  mem : Memory := []
  /-- core × 64 + slot. -/
  warps : SMap Warp := []
  groups : SMap Group := []
  nextGid : Nat := 0
  cores : SMap Core := []
  cols : SMap Column := []
  towers : SMap Tower := []
  launches : SMap Launch := []
  nextLaunch : Nat := 0
  ctxs : SMap Ctx := []
  saved : List Saved := []
  walking : List Walking := []
  /-- `TLBINV` commands that wait (R91). -/
  invals : List Inval := []
  queues : SMap Queue := []
  heads : SMap Head := []
  linkLog : Log := {}
  eth : Eth := {}
  msix : Msix := {}
  /-- The base set in BAR2CFG, and the size of BAR2 as a power of two (R412). -/
  bar2 : DWord := 0
  bar2Size : Nat := 28
  /-- Bytes of the emergency area in use (R114, R117). -/
  emerg : Nat := 0
  mgmt : Mgmt := {}
  /-- The layers at the end of the previous cycle (R338). -/
  seen : LayerView := {}
  uciUp : Bool := true
  /-- Page-table entries cached anywhere in the package (R91). -/
  tlb : List TlbEntry := []
  /-- Cycle count of the package, whose clock is the fastest column's (R15; log 4); the cores that have no cycle of their
  own in this one; and the quadrants and streams that have issued in it. -/
  now : Nat := 0
  asleep : List Nat := []
  turn : List Nat := []
  /-- Retirements of this cycle have begun: nothing lands any more before them (R353). -/
  swept : Bool := false
  /-- Lanes that have issued in this cycle, by warp. -/
  took : SMap Word := []
  cur : Issue := {}
  /-- Events in flight and inputs of the outside world, oldest first (log 3). -/
  agenda : List Ev.Event := []
  /-- The table of choices: tick × 16 + kind (log 3). -/
  choice : SMap Nat := []
  tick : Nat := 0
  /-- Counter of the free values (log 44). -/
  free : Nat := 0
  /-- The last value a host access was answered with, and whether as Unsupported Request. -/
  hostData : Nat := 0
  hostUr : Bool := false
  deriving DecidableEq, Repr

/-- The state of the machine. -/
structure State where
  env : Env
  dev : Dev
  deriving DecidableEq, Repr

/-- The package right after its supply rises: every register at its reset value, bring-up ahead
(R429). -/
def State.reset : State :=
  { env := {}
    dev := { agenda := [.powerOn] } }

end Sys2Proof.Machine
end

