-- ==== Sys2Proof/Machine/Props.lean ====
section
/-! DEFINITION.  What each instruction names: its pipe (R49), the registers it reads and writes (R54 to
R56), what a prefix may supply (R61, R184, R211, R236), its `DISMASK` group (R391) and level (R70). -/

namespace Sys2Proof.Machine

/-- Pipes (R49). -/
inductive Pipe where
  | I | F | S | M | B | U | E | none
  deriving DecidableEq, Repr

/-- What an instruction names.  A vector operand is a register field with its count of registers. -/
structure Props where
  cls : Nat := 8
  pipe : Pipe := .none
  vd : List (Nat × Nat) := []
  vs : List (Nat × Nat) := []
  sd : List Nat := []
  ss : List Nat := []
  /-- Predicate written. -/
  pd : Option Nat := .none
  /-- Predicates read, beside the prefix's MP (R191). -/
  ps : List Nat := []
  /-- A VFLT word: cycles until its result can be read, and cycles for which its pipe is busy (R212). -/
  lat : Nat := 0
  busy : Nat := 1
  /-- Special register written. -/
  srd : Option Nat := .none
  /-- Special register named. -/
  sreg : Option Nat := .none
  /-- Window increment of a call, whose link is a write (R50). -/
  link : Option Nat := .none
  /-- The prefix's RM is accepted: the word rounds. -/
  rnd : Bool := false
  /-- Registers at the prefix's c: 0 when none is accepted. -/
  cv : Nat := 0
  /-- The prefix's Z is accepted: the word writes a vector register. -/
  z : Bool := false
  /-- `DISMASK` bit of the word's group. -/
  grp : Option Nat := .none
  /-- XCMD engine. -/
  eng : Nat := 8
  /-- System level only. -/
  sys : Bool := false
  deriving DecidableEq, Repr

end Sys2Proof.Machine

namespace Sys2Proof

open Sys2Proof.Machine in
/-- The properties of each instruction; an event names no register. -/
def Instr.props (i : Instr) : Props :=
  match i with
  | .vaddS32 f => { cls := 0, pipe := .I, vd := [(f.d.toNat, 1)], ss := (if f.s.getLsbD 0 then [f.b.toNat] else []), vs := [(f.a.toNat, 1)] ++ (if f.s.getLsbD 0 then [] else [(f.b.toNat, 1)]), z := true }
  | .vsubS32 f => { cls := 0, pipe := .I, vd := [(f.d.toNat, 1)], ss := (if f.s.getLsbD 0 then [f.b.toNat] else []), vs := [(f.a.toNat, 1)] ++ (if f.s.getLsbD 0 then [] else [(f.b.toNat, 1)]), z := true }
  | .vmulS32 f => { cls := 0, pipe := .I, vd := [(f.d.toNat, 1)], ss := (if f.s.getLsbD 0 then [f.b.toNat] else []), vs := [(f.a.toNat, 1)] ++ (if f.s.getLsbD 0 then [] else [(f.b.toNat, 1)]), z := true }
  | .vmulhS32 f => { cls := 0, pipe := .I, vd := [(f.d.toNat, 1)], ss := (if f.s.getLsbD 0 then [f.b.toNat] else []), vs := [(f.a.toNat, 1)] ++ (if f.s.getLsbD 0 then [] else [(f.b.toNat, 1)]), z := true }
  | .vmulhZ32 f => { cls := 0, pipe := .I, vd := [(f.d.toNat, 1)], ss := (if f.s.getLsbD 0 then [f.b.toNat] else []), vs := [(f.a.toNat, 1)] ++ (if f.s.getLsbD 0 then [] else [(f.b.toNat, 1)]), z := true }
  | .vmadS32 f => { cls := 0, pipe := .I, vd := [(f.d.toNat, 1)], ss := (if f.s.getLsbD 0 then [f.b.toNat] else []), vs := [(f.a.toNat, 1)] ++ (if f.s.getLsbD 0 then [] else [(f.b.toNat, 1)]) ++ [(f.d.toNat, 1)], z := true, cv := 1 }
  | .vminS32 f => { cls := 0, pipe := .I, vd := [(f.d.toNat, 1)], ss := (if f.s.getLsbD 0 then [f.b.toNat] else []), vs := [(f.a.toNat, 1)] ++ (if f.s.getLsbD 0 then [] else [(f.b.toNat, 1)]), z := true }
  | .vmaxS32 f => { cls := 0, pipe := .I, vd := [(f.d.toNat, 1)], ss := (if f.s.getLsbD 0 then [f.b.toNat] else []), vs := [(f.a.toNat, 1)] ++ (if f.s.getLsbD 0 then [] else [(f.b.toNat, 1)]), z := true }
  | .vminZ32 f => { cls := 0, pipe := .I, vd := [(f.d.toNat, 1)], ss := (if f.s.getLsbD 0 then [f.b.toNat] else []), vs := [(f.a.toNat, 1)] ++ (if f.s.getLsbD 0 then [] else [(f.b.toNat, 1)]), z := true }
  | .vmaxZ32 f => { cls := 0, pipe := .I, vd := [(f.d.toNat, 1)], ss := (if f.s.getLsbD 0 then [f.b.toNat] else []), vs := [(f.a.toNat, 1)] ++ (if f.s.getLsbD 0 then [] else [(f.b.toNat, 1)]), z := true }
  | .vand f => { cls := 0, pipe := .I, vd := [(f.d.toNat, 1)], ss := (if f.s.getLsbD 0 then [f.b.toNat] else []), vs := [(f.a.toNat, 1)] ++ (if f.s.getLsbD 0 then [] else [(f.b.toNat, 1)]), z := true }
  | .vor f => { cls := 0, pipe := .I, vd := [(f.d.toNat, 1)], ss := (if f.s.getLsbD 0 then [f.b.toNat] else []), vs := [(f.a.toNat, 1)] ++ (if f.s.getLsbD 0 then [] else [(f.b.toNat, 1)]), z := true }
  | .vxor f => { cls := 0, pipe := .I, vd := [(f.d.toNat, 1)], ss := (if f.s.getLsbD 0 then [f.b.toNat] else []), vs := [(f.a.toNat, 1)] ++ (if f.s.getLsbD 0 then [] else [(f.b.toNat, 1)]), z := true }
  | .vandn f => { cls := 0, pipe := .I, vd := [(f.d.toNat, 1)], ss := (if f.s.getLsbD 0 then [f.b.toNat] else []), vs := [(f.a.toNat, 1)] ++ (if f.s.getLsbD 0 then [] else [(f.b.toNat, 1)]), z := true }
  | .vshl f => { cls := 0, pipe := .I, vd := [(f.d.toNat, 1)], ss := (if f.s.getLsbD 0 then [f.b.toNat] else []), vs := [(f.a.toNat, 1)] ++ (if f.s.getLsbD 0 then [] else [(f.b.toNat, 1)]), z := true }
  | .vshr f => { cls := 0, pipe := .I, vd := [(f.d.toNat, 1)], ss := (if f.s.getLsbD 0 then [f.b.toNat] else []), vs := [(f.a.toNat, 1)] ++ (if f.s.getLsbD 0 then [] else [(f.b.toNat, 1)]), z := true }
  | .vsar f => { cls := 0, pipe := .I, vd := [(f.d.toNat, 1)], ss := (if f.s.getLsbD 0 then [f.b.toNat] else []), vs := [(f.a.toNat, 1)] ++ (if f.s.getLsbD 0 then [] else [(f.b.toNat, 1)]), z := true }
  | .vaddi f => { cls := 0, pipe := .I, vd := [(f.d.toNat, 1)], vs := [(f.a.toNat, 1)], z := true }
  | .vmovi f => { cls := 0, pipe := .I, vd := [(f.d.toNat, 1)], z := true }
  | .vcmp f => { cls := 0, pipe := .I, pd := some f.p.toNat, vs := [(f.a.toNat, 1)] ++ (if f.s.getLsbD 0 then [] else [(f.b.toNat, 1)]), ss := (if f.s.getLsbD 0 then [f.b.toNat] else []) }
  | .vcmpi f => { cls := 0, pipe := .I, pd := some f.p.toNat, vs := [(f.a.toNat, 1)] }
  | .vsel f => { cls := 0, pipe := .I, vd := [(f.d.toNat, 1)], ss := (if f.s.getLsbD 0 then [f.b.toNat] else []), vs := [(f.a.toNat, 1)] ++ (if f.s.getLsbD 0 then [] else [(f.b.toNat, 1)]), z := true, ps := [1] }
  | .vclz f => { cls := 0, pipe := .I, vd := [(f.d.toNat, 1)], vs := [(f.a.toNat, 1)], z := true }
  | .vpopc f => { cls := 0, pipe := .I, vd := [(f.d.toNat, 1)], vs := [(f.a.toNat, 1)], z := true }
  | .vbrev f => { cls := 0, pipe := .I, vd := [(f.d.toNat, 1)], vs := [(f.a.toNat, 1)], z := true }
  | .vbins f => { cls := 0, grp := some 2, pipe := .I, vd := [(f.d.toNat, 1)], ss := (if f.s.getLsbD 0 then [f.b.toNat] else []), vs := [(f.a.toNat, 1)] ++ (if f.s.getLsbD 0 then [] else [(f.b.toNat, 1)]) ++ [(f.d.toNat, 1)], z := true, cv := 1 }
  | .vffcs f => { cls := 0, grp := some 2, pipe := .I, vd := [(f.d.toNat, 1), (f.a.toNat, 2)], vs := [(f.a.toNat, 2)], z := true }
  | .vplset f => { cls := 0, grp := some 2, pipe := .I, vd := [(f.d.toNat, 1)], ss := (if f.s.getLsbD 0 then [f.b.toNat] else []), vs := [(f.a.toNat, 1)] ++ (if f.s.getLsbD 0 then [] else [(f.b.toNat, 1)]), z := true }
  | .vextr f => { cls := 0, grp := some 2, pipe := .I, vd := [(f.d.toNat, 1)], ss := (if f.s.getLsbD 0 then [f.b.toNat] else []), vs := [(f.a.toNat, 1)] ++ (if f.s.getLsbD 0 then [] else [(f.b.toNat, 1)]), z := true }
  | .vshflIdx f => { cls := 0, grp := some 1, pipe := .I, vd := [(f.d.toNat, 1)], ss := (if f.s.getLsbD 0 then [f.b.toNat] else []), vs := [(f.a.toNat, 1)] ++ (if f.s.getLsbD 0 then [] else [(f.b.toNat, 1)]), z := true }
  | .vshflXor f => { cls := 0, grp := some 1, pipe := .I, vd := [(f.d.toNat, 1)], ss := (if f.s.getLsbD 0 then [f.b.toNat] else []), vs := [(f.a.toNat, 1)] ++ (if f.s.getLsbD 0 then [] else [(f.b.toNat, 1)]), z := true }
  | .vshflUp f => { cls := 0, grp := some 1, pipe := .I, vd := [(f.d.toNat, 1)], ss := (if f.s.getLsbD 0 then [f.b.toNat] else []), vs := [(f.a.toNat, 1)] ++ (if f.s.getLsbD 0 then [] else [(f.b.toNat, 1)]), z := true }
  | .vshflDn f => { cls := 0, grp := some 1, pipe := .I, vd := [(f.d.toNat, 1)], ss := (if f.s.getLsbD 0 then [f.b.toNat] else []), vs := [(f.a.toNat, 1)] ++ (if f.s.getLsbD 0 then [] else [(f.b.toNat, 1)]), z := true }
  | .vvote f => { cls := 0, grp := some 1, pipe := .I, vd := [(f.d.toNat, 1)], vs := [(f.a.toNat, 1)], z := true }
  | .vred f => { cls := 0, grp := some 1, pipe := .I, vd := [(f.d.toNat, 1)], vs := [(f.a.toNat, 1)], z := true }
  | .vscan f => { cls := 0, grp := some 1, pipe := .I, vd := [(f.d.toNat, 1)], vs := [(f.a.toNat, 1)], z := true }
  | .vmovV f => { cls := 0, pipe := .I, vd := [(f.d.toNat, 1)], vs := [(f.a.toNat, 1)], z := true }
  | .vmovS f => { cls := 0, pipe := .I, vd := [(f.d.toNat, 1)], ss := [f.b.toNat], z := true }
  | .vbcast f => { cls := 0, grp := some 1, pipe := .I, vd := [(f.d.toNat, 1)], vs := [(f.a.toNat, 1)], z := true }
  | .vlaneid f => { cls := 0, pipe := .I, vd := [(f.d.toNat, 1)], z := true }
  | .vmovs f => { cls := 0, grp := some 1, pipe := .I, sd := [f.d.toNat], vs := [(f.a.toNat, 1)] }
  | .vaddS64 f => { cls := 0, grp := some 0, pipe := .I, vd := [(f.d.toNat, 2)], ss := (if f.s.getLsbD 0 then [f.b.toNat] else []), vs := [(f.a.toNat, 2)] ++ (if f.s.getLsbD 0 then [] else [(f.b.toNat, 2)]), z := true }
  | .vmulWideS32 f => { cls := 0, grp := some 0, pipe := .I, vd := [(f.d.toNat, 2)], ss := (if f.s.getLsbD 0 then [f.b.toNat] else []), vs := [(f.a.toNat, 1)] ++ (if f.s.getLsbD 0 then [] else [(f.b.toNat, 1)]), z := true }
  | .vmadWideZ32 f => { cls := 0, grp := some 0, pipe := .I, vd := [(f.d.toNat, 2)], ss := (if f.s.getLsbD 0 then [f.b.toNat] else []), vs := [(f.a.toNat, 1)] ++ (if f.s.getLsbD 0 then [] else [(f.b.toNat, 1)]) ++ [(f.d.toNat, 2)], z := true, cv := 2 }
  | .vaddF32 f => { cls := 1, grp := some 3, pipe := .F, vd := [(f.d.toNat, 1)], ss := (if f.s.getLsbD 0 then [f.b.toNat] else []), vs := [(f.a.toNat, 1)] ++ (if f.s.getLsbD 0 then [] else [(f.b.toNat, 1)]), z := true, rnd := true, lat := 4 }
  | .vsubF32 f => { cls := 1, grp := some 3, pipe := .F, vd := [(f.d.toNat, 1)], ss := (if f.s.getLsbD 0 then [f.b.toNat] else []), vs := [(f.a.toNat, 1)] ++ (if f.s.getLsbD 0 then [] else [(f.b.toNat, 1)]), z := true, rnd := true, lat := 4 }
  | .vmulF32 f => { cls := 1, grp := some 3, pipe := .F, vd := [(f.d.toNat, 1)], ss := (if f.s.getLsbD 0 then [f.b.toNat] else []), vs := [(f.a.toNat, 1)] ++ (if f.s.getLsbD 0 then [] else [(f.b.toNat, 1)]), z := true, rnd := true, lat := 4 }
  | .vfmaF32 f => { cls := 1, grp := some 3, pipe := .F, vd := [(f.d.toNat, 1)], ss := (if f.s.getLsbD 0 then [f.b.toNat] else []), vs := [(f.a.toNat, 1)] ++ (if f.s.getLsbD 0 then [] else [(f.b.toNat, 1)]) ++ [(f.d.toNat, 1)], z := true, cv := 1, rnd := true, lat := 4 }
  | .vminF32 f => { cls := 1, grp := some 3, pipe := .F, vd := [(f.d.toNat, 1)], ss := (if f.s.getLsbD 0 then [f.b.toNat] else []), vs := [(f.a.toNat, 1)] ++ (if f.s.getLsbD 0 then [] else [(f.b.toNat, 1)]), z := true, lat := 4 }
  | .vmaxF32 f => { cls := 1, grp := some 3, pipe := .F, vd := [(f.d.toNat, 1)], ss := (if f.s.getLsbD 0 then [f.b.toNat] else []), vs := [(f.a.toNat, 1)] ++ (if f.s.getLsbD 0 then [] else [(f.b.toNat, 1)]), z := true, lat := 4 }
  | .vcmpF32 f => { cls := 1, grp := some 3, pipe := .F, pd := some f.p.toNat, vs := [(f.a.toNat, 1)] ++ (if f.s.getLsbD 0 then [] else [(f.b.toNat, 1)]), ss := (if f.s.getLsbD 0 then [f.b.toNat] else []), lat := 4 }
  | .vclassF32 f => { cls := 1, grp := some 3, pipe := .F, vd := [(f.d.toNat, 1)], vs := [(f.a.toNat, 1)], z := true, lat := 4 }
  | .vsgnj f => { cls := 1, grp := some 3, pipe := .F, vd := [(f.d.toNat, 1)], ss := (if f.s.getLsbD 0 then [f.b.toNat] else []), vs := [(f.a.toNat, 1)] ++ (if f.s.getLsbD 0 then [] else [(f.b.toNat, 1)]), z := true, lat := 4 }
  | .vrndF32 f => { cls := 1, grp := some 3, pipe := .F, vd := [(f.d.toNat, 1)], vs := [(f.a.toNat, 1)], z := true, rnd := true, lat := 4 }
  | .vaddH2 f => { cls := 1, grp := some 4, pipe := .F, vd := [(f.d.toNat, 1)], ss := (if f.s.getLsbD 0 then [f.b.toNat] else []), vs := [(f.a.toNat, 1)] ++ (if f.s.getLsbD 0 then [] else [(f.b.toNat, 1)]), z := true, rnd := true, lat := 4 }
  | .vmulH2 f => { cls := 1, grp := some 4, pipe := .F, vd := [(f.d.toNat, 1)], ss := (if f.s.getLsbD 0 then [f.b.toNat] else []), vs := [(f.a.toNat, 1)] ++ (if f.s.getLsbD 0 then [] else [(f.b.toNat, 1)]), z := true, rnd := true, lat := 4 }
  | .vfmaH2 f => { cls := 1, grp := some 4, pipe := .F, vd := [(f.d.toNat, 1)], ss := (if f.s.getLsbD 0 then [f.b.toNat] else []), vs := [(f.a.toNat, 1)] ++ (if f.s.getLsbD 0 then [] else [(f.b.toNat, 1)]) ++ [(f.d.toNat, 1)], z := true, cv := 1, rnd := true, lat := 4 }
  | .vaddB2 f => { cls := 1, grp := some 4, pipe := .F, vd := [(f.d.toNat, 1)], ss := (if f.s.getLsbD 0 then [f.b.toNat] else []), vs := [(f.a.toNat, 1)] ++ (if f.s.getLsbD 0 then [] else [(f.b.toNat, 1)]), z := true, rnd := true, lat := 4 }
  | .vmulB2 f => { cls := 1, grp := some 4, pipe := .F, vd := [(f.d.toNat, 1)], ss := (if f.s.getLsbD 0 then [f.b.toNat] else []), vs := [(f.a.toNat, 1)] ++ (if f.s.getLsbD 0 then [] else [(f.b.toNat, 1)]), z := true, rnd := true, lat := 4 }
  | .vfmaB2 f => { cls := 1, grp := some 4, pipe := .F, vd := [(f.d.toNat, 1)], ss := (if f.s.getLsbD 0 then [f.b.toNat] else []), vs := [(f.a.toNat, 1)] ++ (if f.s.getLsbD 0 then [] else [(f.b.toNat, 1)]) ++ [(f.d.toNat, 1)], z := true, cv := 1, rnd := true, lat := 4 }
  | .vdot2B2 f => { cls := 1, grp := some 4, pipe := .F, vd := [(f.d.toNat, 1)], ss := (if f.s.getLsbD 0 then [f.b.toNat] else []), vs := [(f.a.toNat, 1)] ++ (if f.s.getLsbD 0 then [] else [(f.b.toNat, 1)]) ++ [(f.d.toNat, 1)], z := true, cv := 1, rnd := true, lat := 4 }
  | .vdot4T8 f => { cls := 1, grp := some 4, pipe := .F, vd := [(f.d.toNat, 1)], ss := (if f.s.getLsbD 0 then [f.b.toNat] else []), vs := [(f.a.toNat, 1)] ++ (if f.s.getLsbD 0 then [] else [(f.b.toNat, 1)]) ++ [(f.d.toNat, 1)], z := true, cv := 1, rnd := true, lat := 4 }
  | .vcvtF32S32 f => { cls := 1, grp := some 5, pipe := .F, vd := [(f.d.toNat, 1)], vs := [(f.a.toNat, 1)], z := true, rnd := true, lat := 4 }
  | .vcvtS32F32 f => { cls := 1, grp := some 5, pipe := .F, vd := [(f.d.toNat, 1)], vs := [(f.a.toNat, 1)], z := true, rnd := true, lat := 4 }
  | .vcvtF32Z32 f => { cls := 1, grp := some 5, pipe := .F, vd := [(f.d.toNat, 1)], vs := [(f.a.toNat, 1)], z := true, rnd := true, lat := 4 }
  | .vcvtZ32F32 f => { cls := 1, grp := some 5, pipe := .F, vd := [(f.d.toNat, 1)], vs := [(f.a.toNat, 1)], z := true, rnd := true, lat := 4 }
  | .vcvtH2F32 f => { cls := 1, grp := some 5, pipe := .F, vd := [(f.d.toNat, 1)], ss := (if f.s.getLsbD 0 then [f.b.toNat] else []), vs := [(f.a.toNat, 1)] ++ (if f.s.getLsbD 0 then [] else [(f.b.toNat, 1)]), z := true, rnd := true, lat := 4 }
  | .vcvtF32H f => { cls := 1, grp := some 5, pipe := .F, vd := [(f.d.toNat, 2)], vs := [(f.a.toNat, 1)], z := true, lat := 4 }
  | .vcvtB2F32 f => { cls := 1, grp := some 5, pipe := .F, vd := [(f.d.toNat, 1)], ss := (if f.s.getLsbD 0 then [f.b.toNat] else []), vs := [(f.a.toNat, 1)] ++ (if f.s.getLsbD 0 then [] else [(f.b.toNat, 1)]), z := true, rnd := true, lat := 4 }
  | .vcvtF32B f => { cls := 1, grp := some 5, pipe := .F, vd := [(f.d.toNat, 2)], vs := [(f.a.toNat, 1)], z := true, lat := 4 }
  | .vcvtT8F32 f => { cls := 1, grp := some 5, pipe := .F, vd := [(f.d.toNat, 1)], ss := (if f.s.getLsbD 0 then [f.b.toNat] else []), vs := [(f.a.toNat, 4)] ++ (if f.s.getLsbD 0 then [] else [(f.b.toNat, 1)]), z := true, rnd := true, lat := 4 }
  | .vcvtF32T8 f => { cls := 1, grp := some 5, pipe := .F, vd := [(f.d.toNat, 4)], ss := (if f.s.getLsbD 0 then [f.b.toNat] else []), vs := [(f.a.toNat, 1)] ++ (if f.s.getLsbD 0 then [] else [(f.b.toNat, 1)]), z := true, rnd := true, lat := 4 }
  | .vcvtT6F32 f => { cls := 1, grp := some 5, pipe := .F, vd := [(f.d.toNat, 1)], ss := (if f.s.getLsbD 0 then [f.b.toNat] else []), vs := [(f.a.toNat, 5)] ++ (if f.s.getLsbD 0 then [] else [(f.b.toNat, 1)]), z := true, rnd := true, lat := 4 }
  | .vcvtF32T6 f => { cls := 1, grp := some 5, pipe := .F, vd := [(f.d.toNat, 5)], ss := (if f.s.getLsbD 0 then [f.b.toNat] else []), vs := [(f.a.toNat, 1)] ++ (if f.s.getLsbD 0 then [] else [(f.b.toNat, 1)]), z := true, rnd := true, lat := 4 }
  | .vbscale f => { cls := 1, grp := some 5, pipe := .F, vd := [(f.d.toNat, 1)], ss := (if f.s.getLsbD 0 then [f.b.toNat] else []), vs := [(f.a.toNat, 4)] ++ (if f.s.getLsbD 0 then [] else [(f.b.toNat, 1)]), z := true, lat := 8 }
  | .vcvtS8F32 f => { cls := 1, grp := some 5, pipe := .F, vd := [(f.d.toNat, 1)], ss := (if f.s.getLsbD 0 then [f.b.toNat] else []), vs := [(f.a.toNat, 4)] ++ (if f.s.getLsbD 0 then [] else [(f.b.toNat, 1)]), z := true, rnd := true, lat := 4 }
  | .vsin f => { cls := 1, grp := some 6, pipe := .S, vd := [(f.d.toNat, 1)], vs := [(f.a.toNat, 1)], z := true, rnd := true, lat := 7 + (8 + 2 * f.n.toNat), busy := 4 }
  | .vcos f => { cls := 1, grp := some 6, pipe := .S, vd := [(f.d.toNat, 1)], vs := [(f.a.toNat, 1)], z := true, rnd := true, lat := 7 + (8 + 2 * f.n.toNat), busy := 4 }
  | .vatan2 f => { cls := 1, grp := some 6, pipe := .S, vd := [(f.d.toNat, 1)], vs := [(f.a.toNat, 2)], z := true, rnd := true, lat := 7 + (8 + 2 * f.n.toNat), busy := 4 }
  | .vexp2 f => { cls := 1, grp := some 6, pipe := .S, vd := [(f.d.toNat, 1)], vs := [(f.a.toNat, 1)], z := true, rnd := true, lat := 7 + (8 + 2 * f.n.toNat), busy := 4 }
  | .vlog2 f => { cls := 1, grp := some 6, pipe := .S, vd := [(f.d.toNat, 1)], vs := [(f.a.toNat, 1)], z := true, rnd := true, lat := 7 + (8 + 2 * f.n.toNat), busy := 4 }
  | .vsqrt f => { cls := 1, grp := some 6, pipe := .S, vd := [(f.d.toNat, 1)], vs := [(f.a.toNat, 1)], z := true, rnd := true, lat := 7 + (8 + 2 * f.n.toNat), busy := 4 }
  | .vrsq f => { cls := 1, grp := some 6, pipe := .S, vd := [(f.d.toNat, 1)], vs := [(f.a.toNat, 1)], z := true, rnd := true, lat := 7 + 2 * (8 + 2 * f.n.toNat), busy := 4 }
  | .vrcp f => { cls := 1, grp := some 6, pipe := .S, vd := [(f.d.toNat, 1)], vs := [(f.a.toNat, 1)], z := true, rnd := true, lat := 7 + (8 + 2 * f.n.toNat), busy := 4 }
  | .vtanh f => { cls := 1, grp := some 6, pipe := .S, vd := [(f.d.toNat, 1)], vs := [(f.a.toNat, 1)], z := true, rnd := true, lat := 7 + 2 * (8 + 2 * f.n.toNat), busy := 4 }
  | .vsigm f => { cls := 1, grp := some 6, pipe := .S, vd := [(f.d.toNat, 1)], vs := [(f.a.toNat, 1)], z := true, rnd := true, lat := 7 + 2 * (8 + 2 * f.n.toNat), busy := 4 }
  | .vrbox f => { cls := 1, grp := some 7, pipe := .S, vd := [(f.d.toNat, 2)], ss := (if f.s.getLsbD 0 then (List.range 6).map (fun i => f.b.toNat + i) else []), vs := [(f.a.toNat, 8)] ++ (if f.s.getLsbD 0 then [] else [(f.b.toNat, 6)]), z := true, lat := 20, busy := 4 }
  | .vrtri f => { cls := 1, grp := some 7, pipe := .S, vd := [(f.d.toNat, 4)], ss := (if f.s.getLsbD 0 then (List.range 9).map (fun i => f.b.toNat + i) else []), vs := [(f.a.toNat, 8)] ++ (if f.s.getLsbD 0 then [] else [(f.b.toNat, 9)]), z := true, lat := 40, busy := 8 }
  | .ldZ8 f => { cls := 2, pipe := .M, vd := [(f.d.toNat, 1)], vs := [(f.a.toNat, 2)], z := true }
  | .ldS8 f => { cls := 2, pipe := .M, vd := [(f.d.toNat, 1)], vs := [(f.a.toNat, 2)], z := true }
  | .ldZ16 f => { cls := 2, pipe := .M, vd := [(f.d.toNat, 1)], vs := [(f.a.toNat, 2)], z := true }
  | .ldS16 f => { cls := 2, pipe := .M, vd := [(f.d.toNat, 1)], vs := [(f.a.toNat, 2)], z := true }
  | .ld32 f => { cls := 2, pipe := .M, vd := [(f.d.toNat, 1)], vs := [(f.a.toNat, 2)], z := true }
  | .ld64 f => { cls := 2, pipe := .M, vd := [(f.d.toNat, 2)], vs := [(f.a.toNat, 2)], z := true }
  | .ld128 f => { cls := 2, pipe := .M, vd := [(f.d.toNat, 4)], vs := [(f.a.toNat, 2)], z := true }
  | .st8 f => { cls := 2, pipe := .M, vs := [(f.a.toNat, 2), (f.d.toNat, 1)] }
  | .st16 f => { cls := 2, pipe := .M, vs := [(f.a.toNat, 2), (f.d.toNat, 1)] }
  | .st32 f => { cls := 2, pipe := .M, vs := [(f.a.toNat, 2), (f.d.toNat, 1)] }
  | .st64 f => { cls := 2, pipe := .M, vs := [(f.a.toNat, 2), (f.d.toNat, 2)] }
  | .st128 f => { cls := 2, pipe := .M, vs := [(f.a.toNat, 2), (f.d.toNat, 4)] }
  | .lds32 f => { cls := 2, pipe := .M, vd := [(f.d.toNat, 1)], vs := [(f.a.toNat, 1)], z := true }
  | .lds64 f => { cls := 2, pipe := .M, vd := [(f.d.toNat, 2)], vs := [(f.a.toNat, 1)], z := true }
  | .lds128 f => { cls := 2, pipe := .M, vd := [(f.d.toNat, 4)], vs := [(f.a.toNat, 1)], z := true }
  | .sts32 f => { cls := 2, pipe := .M, vs := [(f.a.toNat, 1), (f.d.toNat, 1)] }
  | .sts64 f => { cls := 2, pipe := .M, vs := [(f.a.toNat, 1), (f.d.toNat, 2)] }
  | .sts128 f => { cls := 2, pipe := .M, vs := [(f.a.toNat, 1), (f.d.toNat, 4)] }
  | .aaddS32 f => { cls := 2, grp := some 8, pipe := .M, vd := (if f.t.getLsbD 0 then [(f.d.toNat, 1)] else []), vs := [(f.a.toNat, 2)] ++ [(f.d.toNat, 1)], z := f.t.getLsbD 0 }
  | .aaddF32 f => { cls := 2, grp := some 8, pipe := .M, vd := (if f.t.getLsbD 0 then [(f.d.toNat, 1)] else []), vs := [(f.a.toNat, 2)] ++ [(f.d.toNat, 1)], z := f.t.getLsbD 0 }
  | .aminS32 f => { cls := 2, grp := some 8, pipe := .M, vd := (if f.t.getLsbD 0 then [(f.d.toNat, 1)] else []), vs := [(f.a.toNat, 2)] ++ [(f.d.toNat, 1)], z := f.t.getLsbD 0 }
  | .amaxS32 f => { cls := 2, grp := some 8, pipe := .M, vd := (if f.t.getLsbD 0 then [(f.d.toNat, 1)] else []), vs := [(f.a.toNat, 2)] ++ [(f.d.toNat, 1)], z := f.t.getLsbD 0 }
  | .aminZ32 f => { cls := 2, grp := some 8, pipe := .M, vd := (if f.t.getLsbD 0 then [(f.d.toNat, 1)] else []), vs := [(f.a.toNat, 2)] ++ [(f.d.toNat, 1)], z := f.t.getLsbD 0 }
  | .amaxZ32 f => { cls := 2, grp := some 8, pipe := .M, vd := (if f.t.getLsbD 0 then [(f.d.toNat, 1)] else []), vs := [(f.a.toNat, 2)] ++ [(f.d.toNat, 1)], z := f.t.getLsbD 0 }
  | .aand f => { cls := 2, grp := some 8, pipe := .M, vd := (if f.t.getLsbD 0 then [(f.d.toNat, 1)] else []), vs := [(f.a.toNat, 2)] ++ [(f.d.toNat, 1)], z := f.t.getLsbD 0 }
  | .aor f => { cls := 2, grp := some 8, pipe := .M, vd := (if f.t.getLsbD 0 then [(f.d.toNat, 1)] else []), vs := [(f.a.toNat, 2)] ++ [(f.d.toNat, 1)], z := f.t.getLsbD 0 }
  | .axor f => { cls := 2, grp := some 8, pipe := .M, vd := (if f.t.getLsbD 0 then [(f.d.toNat, 1)] else []), vs := [(f.a.toNat, 2)] ++ [(f.d.toNat, 1)], z := f.t.getLsbD 0 }
  | .axchg f => { cls := 2, grp := some 8, pipe := .M, vd := (if f.t.getLsbD 0 then [(f.d.toNat, 1)] else []), vs := [(f.a.toNat, 2)] ++ [(f.d.toNat, 1)], z := f.t.getLsbD 0 }
  | .acas f => { cls := 2, grp := some 8, pipe := .M, vd := (if f.t.getLsbD 0 then [(f.d.toNat, 1)] else []), vs := [(f.a.toNat, 2)] ++ [(f.d.toNat, 2)], z := f.t.getLsbD 0 }
  | .aaddS64 f => { cls := 2, grp := some 8, pipe := .M, vd := (if f.t.getLsbD 0 then [(f.d.toNat, 2)] else []), vs := [(f.a.toNat, 2)] ++ [(f.d.toNat, 2)], z := f.t.getLsbD 0 }
  | .affcs64 f => { cls := 2, grp := some 8, pipe := .M, vd := (if f.t.getLsbD 0 then [(f.d.toNat, 1)] else []), vs := [(f.a.toNat, 2)], z := f.t.getLsbD 0 }
  | .fence _ => { cls := 2, pipe := .M }
  | .fenceSc _ => { cls := 2, pipe := .M }
  | .waitw f => { cls := 2, pipe := .M, vd := [(f.d.toNat, 2)], vs := [(f.a.toNat, 2)], z := true }
  | .sarm f => { cls := 2, pipe := .M, vs := [(f.a.toNat, 1), (f.d.toNat, 1)] }
  | .swait f => { cls := 2, pipe := .M, pd := some f.p.toNat, vs := [(f.a.toNat, 2)] }
  | .sarr f => { cls := 2, pipe := .M, vs := [(f.a.toNat, 1), (f.d.toNat, 1)] }
  | .vfpush f => { cls := 2, grp := some 9, pipe := .M, vs := [(f.a.toNat, 1)] }
  | .vfpop f => { cls := 2, grp := some 9, pipe := .M, vd := [(f.d.toNat, 1)], z := true }
  | .vftry f => { cls := 2, grp := some 9, pipe := .M, vd := [(f.d.toNat, 1)], pd := some f.p.toNat, z := true }
  | .pref f => { cls := 2, pipe := .M, vs := [(f.a.toNat, 2)] }
  | .ldtxBl f => { cls := 2, grp := some 10, pipe := .M, vd := [(f.d.toNat, 1)], vs := [(f.a.toNat, 4)], z := true }
  | .ald32 f => { cls := 2, grp := some 8, pipe := .M, vd := [(f.d.toNat, 1)], vs := [(f.a.toNat, 2)], z := true }
  | .ast32 f => { cls := 2, grp := some 8, pipe := .M, vs := [(f.a.toNat, 2), (f.d.toNat, 1)] }
  | .bra f => { cls := 3, pipe := .B, ps := [f.p.toNat] }
  | .bru f => { cls := 3, pipe := .B, ps := [f.p.toNat] }
  | .jmpr f => { cls := 3, pipe := .B, vs := [(f.a.toNat, 2)] }
  | .call f => { cls := 3, pipe := .B, link := some f.i.toNat }
  | .callr f => { cls := 3, pipe := .B, vs := [(f.a.toNat, 2)], link := some f.i.toNat }
  | .ret _ => { cls := 3, pipe := .B, vs := [(0, 2)] }
  | .fork f => { cls := 3, grp := some 15, pipe := .B, vs := [(0, 4)], pd := some f.p.toNat, ps := [f.p.toNat] }
  | .fexit _ => { cls := 3, pipe := .B }
  | .jset f => { cls := 3, pipe := .B, ps := [f.m.toNat] }
  | .join f => { cls := 3, pipe := .B, ps := [f.m.toNat] }
  | .jdrop f => { cls := 3, pipe := .B, ps := [f.m.toNat] }
  | .yield _ => { cls := 3, pipe := .B }
  | .nopk _ => { cls := 3, pipe := .B }
  | .trap _ => { cls := 3, pipe := .B }
  | .brk _ => { cls := 3, pipe := .B }
  | .emuret _ => { cls := 3, pipe := .B }
  | .brw _ => { cls := 3, grp := some 14, pipe := .B }
  | .mma _ => { cls := 4, grp := some 11 }
  | .mmas _ => { cls := 4, grp := some 11 }
  | .mwld _ => { cls := 4, grp := some 11 }
  | .mzero _ => { cls := 4, grp := some 11 }
  | .mdrain _ => { cls := 4, grp := some 11 }
  | .mlacc _ => { cls := 4, grp := some 11 }
  | .mwait _ => { cls := 4, grp := some 11 }
  | .msig _ => { cls := 4, grp := some 11 }
  | .mli _ => { cls := 4, grp := some 11 }
  | .maddq _ => { cls := 4, grp := some 11 }
  | .mloop _ => { cls := 4, grp := some 11 }
  | .mbra _ => { cls := 4, grp := some 11 }
  | .mend => { cls := 4, grp := some 11 }
  | .mstat _ => { cls := 4, grp := some 11 }
  | .mprio _ => { cls := 4, grp := some 11 }
  | .mfence _ => { cls := 4, grp := some 11 }
  | .mldq _ => { cls := 4, grp := some 11 }
  | .cshape f => { cls := 5, grp := some 12, pipe := .E, sd := [f.d.toNat], ss := [f.a.toNat, f.b.toNat], eng := 0 }
  | .cget f => { cls := 5, grp := some 12, pipe := .E, sd := [f.d.toNat], ss := [f.a.toNat, f.b.toNat], eng := 0 }
  | .cput f => { cls := 5, grp := some 12, pipe := .E, sd := [f.d.toNat], ss := [f.a.toNat, f.b.toNat], eng := 0 }
  | .cgath f => { cls := 5, grp := some 12, pipe := .E, sd := [f.d.toNat], ss := [f.a.toNat, f.b.toNat], eng := 0 }
  | .cmcast f => { cls := 5, grp := some 12, pipe := .E, sd := [f.d.toNat], ss := [f.a.toNat, f.b.toNat], eng := 0 }
  | .cring f => { cls := 5, grp := some 12, pipe := .E, sd := [f.d.toNat], ss := [f.a.toNat, f.b.toNat], eng := 0 }
  | .cresume f => { cls := 5, grp := some 12, pipe := .E, sd := [f.d.toNat], ss := [f.a.toNat], eng := 0 }
  | .ccancel f => { cls := 5, grp := some 12, pipe := .E, sd := [f.d.toNat], ss := [f.a.toNat], eng := 0 }
  | .cstat f => { cls := 5, grp := some 12, pipe := .E, sd := [f.d.toNat], ss := [f.a.toNat], eng := 0 }
  | .tspawn f => { cls := 5, grp := some 13, pipe := .E, sd := [f.d.toNat], ss := [f.a.toNat, f.b.toNat], eng := 1 }
  | .tsucc f => { cls := 5, grp := some 13, pipe := .E, sd := [f.d.toNat], ss := [f.a.toNat, f.b.toNat], eng := 1 }
  | .fsopen f => { cls := 5, grp := some 13, pipe := .E, sd := [f.d.toNat], ss := [f.a.toNat, f.b.toNat], eng := 1 }
  | .fsclose f => { cls := 5, grp := some 13, pipe := .E, sd := [f.d.toNat], ss := [f.a.toNat, f.b.toNat], eng := 1 }
  | .fsadd f => { cls := 5, grp := some 13, pipe := .E, sd := [f.d.toNat], ss := [f.a.toNat, f.b.toNat], eng := 1 }
  | .tretire f => { cls := 5, grp := some 13, pipe := .E, sd := [f.d.toNat], ss := [f.a.toNat], eng := 1 }
  | .glaunch f => { cls := 5, grp := some 13, pipe := .E, sd := [f.d.toNat], ss := [f.a.toNat, f.b.toNat], eng := 1 }
  | .gprio f => { cls := 5, grp := some 13, pipe := .E, sd := [f.d.toNat], ss := [f.a.toNat, f.b.toNat], eng := 1 }
  | .telrd f => { cls := 5, pipe := .E, sd := [f.d.toNat], ss := [f.a.toNat], eng := 2 }
  | .pgreq f => { cls := 5, pipe := .E, sd := [f.d.toNat], ss := [f.a.toNat, f.b.toNat], eng := 2, sys := true }
  | .icinv f => { cls := 5, pipe := .E, sd := [f.d.toNat], ss := [f.a.toNat, f.b.toNat], eng := 3 }
  | .cflush f => { cls := 5, pipe := .E, sd := [f.d.toNat], ss := [f.a.toNat, f.b.toNat], eng := 3 }
  | .csplit f => { cls := 5, pipe := .E, sd := [f.d.toNat], ss := [f.a.toNat, f.b.toNat], eng := 3, sys := true }
  | .tlbinv f => { cls := 5, pipe := .E, sd := [f.d.toNat], ss := [f.a.toNat, f.b.toNat], eng := 3, sys := true }
  | .patch f => { cls := 5, pipe := .E, sd := [f.d.toNat], ss := [f.a.toNat, f.b.toNat], eng := 3 }
  | .sadd f => { cls := 7, pipe := .U, sd := [f.d.toNat], ss := [f.a.toNat, f.b.toNat] }
  | .ssub f => { cls := 7, pipe := .U, sd := [f.d.toNat], ss := [f.a.toNat, f.b.toNat] }
  | .smul f => { cls := 7, pipe := .U, sd := [f.d.toNat], ss := [f.a.toNat, f.b.toNat] }
  | .sand f => { cls := 7, pipe := .U, sd := [f.d.toNat], ss := [f.a.toNat, f.b.toNat] }
  | .sor f => { cls := 7, pipe := .U, sd := [f.d.toNat], ss := [f.a.toNat, f.b.toNat] }
  | .sxor f => { cls := 7, pipe := .U, sd := [f.d.toNat], ss := [f.a.toNat, f.b.toNat] }
  | .sshl f => { cls := 7, pipe := .U, sd := [f.d.toNat], ss := [f.a.toNat, f.b.toNat] }
  | .sshr f => { cls := 7, pipe := .U, sd := [f.d.toNat], ss := [f.a.toNat, f.b.toNat] }
  | .ssar f => { cls := 7, pipe := .U, sd := [f.d.toNat], ss := [f.a.toNat, f.b.toNat] }
  | .smin f => { cls := 7, pipe := .U, sd := [f.d.toNat], ss := [f.a.toNat, f.b.toNat] }
  | .smax f => { cls := 7, pipe := .U, sd := [f.d.toNat], ss := [f.a.toNat, f.b.toNat] }
  | .sminz f => { cls := 7, pipe := .U, sd := [f.d.toNat], ss := [f.a.toNat, f.b.toNat] }
  | .smaxz f => { cls := 7, pipe := .U, sd := [f.d.toNat], ss := [f.a.toNat, f.b.toNat] }
  | .saddi f => { cls := 7, pipe := .U, sd := [f.d.toNat], ss := [f.a.toNat] }
  | .sli f => { cls := 7, pipe := .U, sd := [f.d.toNat] }
  | .slih f => { cls := 7, pipe := .U, sd := [f.d.toNat], ss := [f.d.toNat] }
  | .scmp f => { cls := 7, pipe := .U, pd := some f.p.toNat, ss := [f.a.toNat, f.b.toNat] }
  | .sld64 f => { cls := 7, pipe := .U, sd := [f.d.toNat], ss := [f.a.toNat] }
  | .sst64 f => { cls := 7, pipe := .U, ss := [f.a.toNat, f.d.toNat] }
  | .sld32 f => { cls := 7, pipe := .U, sd := [f.d.toNat], ss := [f.a.toNat] }
  | .srd f => { cls := 7, pipe := .U, sd := [f.s.toNat], sreg := some f.n.toNat }
  | .swr f => { cls := 7, pipe := .U, ss := [f.s.toNat], srd := some f.n.toNat, sreg := some f.n.toNat }
  | .sxch f => { cls := 7, pipe := .U, ss := [f.s.toNat], srd := some f.n.toNat, sd := [f.s.toNat], sreg := some f.n.toNat }
  | .wbind f => { cls := 7, grp := some 14, pipe := .U, ss := [f.s.toNat] }
  | .wrd f => { cls := 7, grp := some 14, pipe := .U, sd := [f.s.toNat] }
  | .wrst f => { cls := 7, grp := some 14, pipe := .U, ss := [f.s.toNat] }
  | .sffcs f => { cls := 7, grp := some 2, pipe := .U, sd := [f.d.toNat, f.a.toNat], ss := [f.a.toNat] }
  | .splset f => { cls := 7, grp := some 2, pipe := .U, sd := [f.d.toNat], ss := [f.a.toNat, f.b.toNat] }
  | .sbins f => { cls := 7, grp := some 2, pipe := .U, sd := [f.d.toNat], ss := [f.a.toNat, f.b.toNat] ++ [f.d.toNat] }
  | .spopc f => { cls := 7, pipe := .U, sd := [f.d.toNat], ss := [f.a.toNat] }
  | .sclz f => { cls := 7, pipe := .U, sd := [f.d.toNat], ss := [f.a.toNat] }
  | .emurd f => { cls := 7, pipe := .U, sd := [f.d.toNat], ss := [f.a.toNat, f.b.toNat] }
  | .emuwr f => { cls := 7, pipe := .U, ss := [f.a.toNat, f.b.toNat, f.d.toNat] }
  | .accrd f => { cls := 7, pipe := .U, sd := [f.d.toNat], ss := [f.a.toNat, f.b.toNat] }
  | .accwr f => { cls := 7, pipe := .U, sd := [], ss := [f.a.toNat, f.b.toNat, f.d.toNat] }
  | .loadReturn _ => {}
  | .commandReply _ => {}
  | .fenceScComplete _ => {}
  | .watchdogExpiry _ => {}
  | .haltComplete _ => {}
  | .chunkComplete _ => {}
  | .copyFaultSettle _ => {}
  | .copyQuiesceTimeout _ => {}
  | .matrixOpDequeue _ => {}
  | .kennelDeadline _ => {}
  | .engineEntry _ => {}
  | .matrixResultWrite _ => {}
  | .weightFillComplete _ => {}
  | .drainRowPerform _ => {}
  | .msigArrival _ => {}
  | .taskDispatch _ => {}
  | .gangReservation _ => {}
  | .gangReservationTimeout _ => {}
  | .tileRetire _ => {}
  | .ucieMirrorMessage _ => {}
  | .reexecPlacementTimeout _ => {}
  | .preemptionTimeout _ => {}
  | .contextSave _ => {}
  | .contextRestore _ => {}
  | .starvationRestore _ => {}
  | .submissionConsume _ => {}
  | .sqDoorbell _ => {}
  | .attachWrite _ => {}
  | .ctxCsplitWrite _ => {}
  | .registerWrite _ => {}
  | .hostBar2Access _ => {}
  | .hostAtomicop _ => {}
  | .fbRelease _ => {}
  | .fbReleaseAll _ => {}
  | .fbAbort _ => {}
  | .lostLineEntryClear _ => {}
  | .flipsRead _ => {}
  | .gddrCounterRead _ => {}
  | .sentinelCounterRead _ => {}
  | .mgcmdGate _ => {}
  | .mgcmdUngate _ => {}
  | .mgcmdRetireBus _ => {}
  | .mgcmdShutdownLayer _ => {}
  | .mgcmdComplete => {}
  | .attestationRequest => {}
  | .attestationComplete => {}
  | .powerOn => {}
  | .heartbeatTick => {}
  | .timeSync _ => {}
  | .readCountWindow _ => {}
  | .lineReplication _ => {}
  | .loopPortPowerDown _ => {}
  | .loopPortWake _ => {}
  | .dirtyBudgetWriteback _ => {}
  | .cacheLayerShutdown _ => {}
  | .busEvacuation _ => {}
  | .columnRemoval _ => {}
  | .gddrTransferError _ => {}
  | .vfControlTick => {}
  | .vfTransitionComplete _ => {}
  | .sensorSample _ => {}
  | .thermalPowerDown _ => {}
  | .sentinelRun _ => {}
  | .ucieLinkDown => {}
  | .ethReadyMessage _ => {}
  | .ethLaunchRecord _ => {}
  | .ethCompletion _ => {}
  | .ethAck _ => {}
  | .ethStreamData _ => {}
  | .ethRetransmit _ => {}
  | .ethPeerTimeout _ => {}
  | .vblank _ => {}
  | .unassignedEncoding _ => {}
  | .hostReleasesReset => {}

end Sys2Proof
end

