-- ==== Sys2Proof/Machine/Windows.lean ====
section
/-! DEFINITION.  The operand windows OW0 to OW7 of a faulting word (R386), decoded by the operand format
of R54 that its opcode names, or by its class's principal format. -/

namespace Sys2Proof.Machine

/-- Operand formats of R54, the class-4 words by their layouts of R313. -/
inductive OFmt where
  | R | RS | I | L | P | PI | U | M | MA | F | Z | B | BC | BCR | BW | BJ | BT | BE | MMA | MI | X
  | SCL | SI | SM | SL | SLIH | SC | SR | SW | mtx (op : Nat)
  deriving DecidableEq, Repr

/-- The format that class and opcode name (R65 to R71); an unassigned opcode takes its class's
principal format (R386). -/
def ofmt (cls op : Nat) : OFmt :=
  match cls with
  | 0 => if op = 0x11 ∨ op = 0x25 then .I else if op = 0x12 then .L else if op = 0x13 then .P
    else if op = 0x14 then .PI else if 0x21 ≤ op ∧ op ≤ 0x23 then .RS else .R
  | 1 => if op = 6 then .P else if 0x20 ≤ op ∧ op ≤ 0x29 then .U else .R
  | 2 => if 0x12 ≤ op ∧ op ≤ 0x1E ∨ op = 0x2A ∨ op = 0x2B then .MA else if op = 0x1F then .F
    else if op = 0x20 then .Z else if 0x25 ≤ op ∧ op ≤ 0x27 then .R else .M
  | 3 => match op with
    | 0 | 1 | 6 => .B
    | 2 => .R
    | 3 => .BC
    | 4 => .BCR
    | 5 | 7 | 11 | 12 => .Z
    | 8 | 9 | 10 => .BJ
    | 13 | 14 => .BT
    | 15 => .BE
    | 16 => .BW
    | _ => .B
  | 4 => if op = 8 then .MI else if op ≤ 1 ∨ op > 0x10 then .MMA else .mtx op
  | 5 => .X
  | 7 => match op with
    | 0x0D => .SI
    | 0x0E => .SL
    | 0x0F => .SLIH
    | 0x10 => .SC
    | 0x11 | 0x12 | 0x13 => .SM
    | 0x14 | 0x15 | 0x16 => .SR
    | 0x17 | 0x18 | 0x19 => .SW
    | _ => .SCL
  | _ => .Z

/-- What a window holds of one operand field: KIND and raw value. -/
structure OField where
  kind : Nat := 0
  val : Nat := 0
  deriving DecidableEq, Repr

/-- The d, a and b fields of a word under its format, then immediate, S, scope, order, RET, N, H, p, cc
and sub (R386). -/
structure OView where
  d : OField := {}
  a : OField := {}
  b : OField := {}
  imm : Nat := 0
  s : Nat := 0
  scope : Nat := 0
  order : Nat := 0
  ret : Nat := 0
  n : Nat := 0
  h : Nat := 0
  p : Nat := 0
  cc : Nat := 0
  sub : Nat := 0
  deriving DecidableEq, Repr

/-- A signed field as a 64-bit two's-complement number. -/
def sextN (v w : Nat) : Nat := if v.testBit (w - 1) then 2 ^ 64 - 2 ^ w + v else v

/-- The fields of a word (R54, R313). -/
def oview (w : Word) : OView :=
  let g (lo n : Nat) := fieldN w lo n
  let vb : OField := if w.getLsbD 0 then ⟨8, g 1 7⟩ else ⟨1, g 1 7⟩
  let off17 := sextN (g 0 17) 17
  match ofmt (g 28 3) (g 22 6) with
  | .R => { d := ⟨if g 28 3 = 0 ∧ g 22 6 = 0x27 then 2 else 1, g 15 7⟩, a := ⟨if g 28 3 = 2 ∧ g 22 6 = 0x27 then 3 else 1, g 8 7⟩
            b := vb, s := g 0 1 }
  | .RS => { d := ⟨1, g 15 7⟩, a := ⟨1, g 8 7⟩, sub := g 4 4 }
  | .I => { d := ⟨1, g 15 7⟩, a := ⟨1, g 8 7⟩, imm := sextN (g 0 8) 8 }
  | .L => { d := ⟨1, g 15 7⟩, imm := sextN (g 0 15) 15 }
  | .P => { p := g 18 4, cc := g 15 3, a := ⟨1, g 8 7⟩, b := vb, s := g 0 1 }
  | .PI => { p := g 18 4, cc := g 15 3, a := ⟨1, g 8 7⟩, imm := sextN (g 0 8) 8 }
  | .U => { d := ⟨1, g 15 7⟩, a := ⟨1, g 8 7⟩, sub := g 4 4 }
  | .M => { d := ⟨if g 22 6 = 0x23 then 3 else if g 22 6 = 0x28 then 0 else 1, g 15 7⟩, a := ⟨1, g 8 7⟩, h := g 6 2, imm := g 0 5 }
  | .MA => { d := ⟨1, g 15 7⟩, a := ⟨1, g 8 7⟩, scope := g 5 3, order := g 3 2, ret := g 2 1 }
  | .F => { scope := g 19 3, order := g 17 2 }
  | .Z => {}
  | .B => { p := g 18 4, n := g 17 1, imm := off17 }
  | .BC => { imm := off17, sub := g 18 4 }
  | .BCR => { a := ⟨1, g 10 7⟩, sub := g 18 4 }
  | .BW => { d := ⟨7, g 19 3⟩, sub := g 17 2, imm := off17 }
  | .BJ => { d := ⟨6, g 19 3⟩, p := g 15 4 }
  | .BT => { imm := g 0 16 }
  | .BE => {}
  | .MMA => { d := ⟨5, g 12 10⟩, a := ⟨4, g 8 4⟩, b := ⟨4, g 4 4⟩, sub := g 0 4 }
  | .MI => { d := ⟨4, g 18 4⟩, imm := sextN (g 0 18) 18 }
  | .X => { d := ⟨2, g 12 6⟩, a := ⟨2, g 6 6⟩, b := ⟨2, g 0 6⟩ }
  | .SCL => { d := ⟨2, g 16 6⟩, a := ⟨2, g 10 6⟩, b := ⟨2, g 4 6⟩, sub := g 0 4 }
  | .SI => { d := ⟨2, g 16 6⟩, a := ⟨2, g 10 6⟩, imm := sextN (g 0 10) 10 }
  | .SM => { d := ⟨2, g 16 6⟩, a := ⟨2, g 10 6⟩, imm := sextN (g 0 10) 10 }
  | .SL => { d := ⟨2, g 16 6⟩, imm := sextN (g 0 16) 16 }
  | .SLIH => { d := ⟨2, g 16 6⟩, imm := g 0 16 }
  | .SC => { p := g 18 4, cc := g 15 3, a := ⟨2, g 9 6⟩, b := ⟨2, g 3 6⟩ }
  | .SR => { d := ⟨2, g 16 6⟩ }
  | .SW => { d := ⟨7, g 19 3⟩, a := ⟨2, g 10 6⟩ }
  | .mtx op =>
    match op with
    | 2 => { d := ⟨4, g 18 4⟩, a := ⟨4, g 14 4⟩, b := ⟨4, g 10 4⟩, sub := g 6 4, n := g 5 1 }
    | 3 => { d := ⟨5, g 12 10⟩ }
    | 4 => { d := ⟨5, g 12 10⟩, a := ⟨4, g 8 4⟩, b := ⟨4, g 4 4⟩ }
    | 5 => { d := ⟨5, g 12 10⟩, a := ⟨4, g 8 4⟩ }
    | 6 => { d := ⟨4, g 18 4⟩, a := ⟨4, g 14 4⟩, b := ⟨4, g 10 4⟩ }
    | 7 => { a := ⟨4, g 18 4⟩, scope := g 15 3 }
    | 9 => { d := ⟨4, g 18 4⟩, a := ⟨4, g 14 4⟩, b := ⟨4, g 10 4⟩, imm := sextN (g 0 10) 10 }
    | 10 => { d := ⟨4, g 18 4⟩, imm := off17 }
    | 11 => { a := ⟨4, g 18 4⟩, n := g 17 1, imm := off17 }
    | 13 => { d := ⟨4, g 18 4⟩ }
    | 14 => { sub := g 19 3 }
    | 15 => { scope := g 19 3 }
    | 16 => { d := ⟨4, g 18 4⟩, a := ⟨4, g 14 4⟩, imm := g 4 10 }
    | _ => {}

/-- The `DISMASK` group of class, opcode and engine (R391). -/
def dismaskGroup (cls op eng : Nat) : Option Nat :=
  match cls with
  | 0 => if 0x28 ≤ op ∧ op ≤ 0x2A then some 0
    else if 0x1D ≤ op ∧ op ≤ 0x23 ∨ op = 0x25 ∨ op = 0x27 then some 1
    else if 0x19 ≤ op ∧ op ≤ 0x1C then some 2 else none
  | 1 => if op ≤ 9 then some 3 else if op ≤ 0x11 then some 4 else if op ≤ 0x1F then some 5
    else if op ≤ 0x29 then some 6 else if op ≤ 0x2B then some 7 else none
  | 2 => if 0x12 ≤ op ∧ op ≤ 0x1E ∨ op = 0x2A ∨ op = 0x2B then some 8
    else if 0x25 ≤ op ∧ op ≤ 0x27 then some 9 else if op = 0x29 then some 10 else none
  | 3 => if op = 0x10 then some 14 else if op = 6 then some 15 else none
  | 4 => some 11
  | 5 => if eng = 0 then some 12 else if eng = 1 then some 13 else none
  | 7 => if 0x1A ≤ op ∧ op ≤ 0x1C then some 2 else if 0x17 ≤ op ∧ op ≤ 0x19 then some 14 else none
  | _ => none

/-- The window of one field: FIELD, KIND and PHYS (R386). -/
def owField (base : Nat) (f : OField) : DWord :=
  let phys := if f.kind = 1 then base * 16 + f.val else f.val
  BitVec.ofNat 64 (f.val % 256 + f.kind * 2 ^ 8 + phys % 512 * 2 ^ 12)

/-- OW0 to OW7 (R386): the word, its prefix, the frame's window base, the REASON, whether it is a
never-assigned word, and the resolved rounding mode. -/
def operandWindows (w : Word) (pfx : Option Pfx) (base reason : Nat) (never : Bool) (rm : Nat) : List DWord :=
  let cls := fieldN w 28 3
  let op := if cls = 5 then 0 else fieldN w 22 6
  let eng := if cls = 5 then fieldN w 25 3 else 0
  let func := if cls = 5 then fieldN w 18 7 else 0
  let gr := dismaskGroup cls op eng
  let v := oview w
  let pw : Nat := match pfx with
    | some p => p.word.toNat
    | none => 0
  let ow1 := cls + op * 2 ^ 3 + eng * 2 ^ 9 + func * 2 ^ 12 + reason * 2 ^ 19 + b2n never * 2 ^ 23 +
    b2n pfx.isSome * 2 ^ 24 + gr.getD 0 * 2 ^ 25 + b2n gr.isSome * 2 ^ 29
  let c : OField := match pfx with
    | some p => if p.cv then ⟨1, p.c.toNat⟩ else {}
    | none => {}
  let (mp, z, cv) := match pfx with
    | some p => (p.mp.toNat, b2n p.z, b2n p.cv)
    | none => (0, 0, 0)
  let ow7 := rm + mp * 2 ^ 3 + z * 2 ^ 7 + cv * 2 ^ 8 + v.s * 2 ^ 9 + v.scope * 2 ^ 10 + v.order * 2 ^ 13 +
    v.ret * 2 ^ 15 + v.n * 2 ^ 16 + v.h * 2 ^ 17 + v.p * 2 ^ 19 + v.cc * 2 ^ 23 + v.sub * 2 ^ 26 +
    b2n (w.getLsbD 31) * 2 ^ 30
  [BitVec.ofNat 64 (w.toNat + pw * 2 ^ 32), BitVec.ofNat 64 ow1, owField base v.d, owField base v.a,
   owField base v.b, owField base c, BitVec.ofNat 64 v.imm, BitVec.ofNat 64 ow7]

end Sys2Proof.Machine
end

