-- ==== Sys2Proof/Machine/Ops.lean ====
section
/-! DEFINITION.  The named operations over the state: reading and writing warps, groups, cores, columns
and towers; vector, scalar and predicate registers of the issue in progress; logs and interrupts; and
the Retriever's shared operations: a cause raised, the halt, entry into and return from a handler
level, delivery at system level (R376 to R390). -/

namespace Sys2Proof.Machine

/-- A meaning of an instruction word: it may read the environment and changes the device alone. -/
abbrev Op := Env → Dev → Dev

/-- A step whose effect is an `Op` always has a next state, and leaves the environment as it is. -/
def State.run (m : Op) (s : State) : Host.Outcome State Fault Refusal :=
  .next { s with dev := m s.env s.dev }

/-- The reading of a warp slot that no warp holds. -/
def noWarp : Warp := { gid := 0, idx := 0, copy := false, nregs := 0 }
/-- The reading of a shape, a task and a group that are not there. -/
def noShape : Shape :=
  { warps := 1, copies := 0, regs := 16, scratch := 0, stream := false, gang := 1, scode := 0 }
def noTask : Task :=
  { entry := 0, arg := 0, tx := 0, ty := 0, pass := 255, cls := 0, flags := 0, succ := 0, fscope := 4
    shape := 0, codever := 0, bind := 0, user0 := 0, user1 := 0 }
def noGroup : Group :=
  { core := 0, ctx := 0, shape := noShape, slots := [], task := noTask, taskVa := 0, launch := 0
    gang := [], gidx := 0, seq := 0 }

/-- Key of a warp. -/
def wkey (core slot : Nat) : Nat := core * 64 + slot

namespace Dev

def warp (d : Dev) (core slot : Nat) : Warp := d.warps.get (wkey core slot) noWarp
def setWarp (d : Dev) (core slot : Nat) (w : Warp) : Dev :=
  { d with warps := d.warps.set (wkey core slot) w }
def modWarp (d : Dev) (core slot : Nat) (f : Warp → Warp) : Dev := d.setWarp core slot (f (d.warp core slot))
def grp (d : Dev) (gid : Nat) : Group := d.groups.get gid noGroup
def setGrp (d : Dev) (gid : Nat) (g : Group) : Dev := { d with groups := d.groups.set gid g }
/-- The group changed by `f`, or nothing when the group is not resident. -/
def modGrp (d : Dev) (gid : Nat) (f : Group → Group) : Dev := { d with groups := d.groups.modify gid f }
def core (d : Dev) (c : Nat) : Core := d.cores.get c {}
def modCore (d : Dev) (c : Nat) (f : Core → Core) : Dev := { d with cores := d.cores.set c (f (d.core c)) }
def col (d : Dev) (c : Nat) : Column := d.cols.get c {}
def modCol (d : Dev) (c : Nat) (f : Column → Column) : Dev := { d with cols := d.cols.set c (f (d.col c)) }
def tower (d : Dev) (t : Nat) : Tower := d.towers.get t {}
def modTower (d : Dev) (t : Nat) (f : Tower → Tower) : Dev :=
  { d with towers := d.towers.set t (f (d.tower t)) }
def ctx (d : Dev) (k : Nat) : Ctx := d.ctxs.get k {}
def modCtx (d : Dev) (k : Nat) (f : Ctx → Ctx) : Dev := { d with ctxs := d.ctxs.set k (f (d.ctx k)) }
def queue (d : Dev) (q : Nat) : Queue := d.queues.get q {}
def modQueue (d : Dev) (q : Nat) (f : Queue → Queue) : Dev :=
  { d with queues := d.queues.set q (f (d.queue q)) }
def head (d : Dev) (h : Nat) : Head := d.heads.get h {}
def modHead (d : Dev) (h : Nat) (f : Head → Head) : Dev := { d with heads := d.heads.set h (f (d.head h)) }
def modLaunch (d : Dev) (l : Nat) (f : Launch → Launch) : Dev :=
  { d with launches := d.launches.modify l f }
def modMgmt (d : Dev) (f : Mgmt → Mgmt) : Dev := { d with mgmt := f d.mgmt }
def modStream (d : Dev) (gid : Nat) (f : Stream → Stream) : Dev :=
  d.modGrp gid (fun g => { g with stream := g.stream.map f })

/-- Cycles of a core's own clock (R15, R434; log 4). -/
def clk (d : Dev) (c : Nat) : Nat := d.now - (d.core c).lag
/-- Cycles of a column's arithmetic clock, that of X0 (R15). -/
def colClk (d : Dev) (k : Nat) : Nat := d.clk (k * 2)
/-- The frequency in MHz of a core's clock: of its layer, X0 or X1 (R434). -/
def coreMhz (d : Dev) (c : Nat) : Nat := (d.mgmt.vf.get (c / 2 * 4 + c % 2) {}).mhz
/-- The frequency of the package's cycle count: that of the fastest core; the nominal one before any layer has one. -/
def rate (d : Dev) : Nat :=
  match d.mgmt.vf.foldl (fun f p => if p.1 % 4 ≤ 1 then max f p.2.mhz else f) 0 with
  | 0 => 2600
  | f => f
/-- A time in nanoseconds in package cycles, rounded up (R15). -/
def ns (d : Dev) (n : Nat) : Nat := (n * d.rate + 999) / 1000
/-- A time in nanoseconds in cycles of a core's clock, rounded up (R15). -/
def coreNs (d : Dev) (c n : Nat) : Nat := (n * (if d.coreMhz c = 0 then 2600 else d.coreMhz c) + 999) / 1000

/-- The choice of a kind at this step (log 3): 0 stale or fresh reads, 1 translations, 2 code, 3 peer
probe, 4 an uncorrectable line, 5 a PCIe error completion, 6 which step. -/
def opt (d : Dev) (kind : Nat) : Nat := d.choice.get (d.tick * 16 + kind) 0

/-- The core and warp of the issue in progress. -/
def curWarp (d : Dev) : Warp := d.warp d.cur.core d.cur.slot
/-- The warp whose registers a word reads: as it stood before the group issued (R51). -/
def opW (d : Dev) : Warp := d.cur.snap.getD d.curWarp
def modCur (d : Dev) (f : Warp → Warp) : Dev := d.modWarp d.cur.core d.cur.slot f
def curGrp (d : Dev) : Group := d.grp d.cur.gid
def curCtx (d : Dev) : Ctx := d.ctx d.curGrp.ctx
def curAsid (d : Dev) : Nat := d.curCtx.asid.toNat
/-- The issuing group runs at user level (R421). -/
def user (d : Dev) : Bool := !d.curCtx.sys
/-- Tower of the issuing core (R5). -/
def curTower (d : Dev) : Nat := d.cur.core / 64

end Dev

/-! ### The vertical FIFO (R169, R259) -/

/-- Entries of a direction of a column: 0 UP, 1 DOWN. -/
def Column.dir (c : Column) (k : Nat) : List (List Word) := if k = 0 then c.up else c.down
def Column.setDir (c : Column) (k : Nat) (q : List (List Word)) : Column := if k = 0 then { c with up := q } else { c with down := q }
/-- Entries of a direction as it stood before this cycle (R170, R259). -/
def Column.stood (c : Column) (k : Nat) : Nat := (c.dir k).length + c.gone.get k 0 - c.fresh.get k 0
/-- The oldest entry, where one stood there before this cycle and has not been taken (R259). -/
def Column.front (c : Column) (k : Nat) : Option (List Word × List (List Word)) :=
  match c.dir k with
  | [] => none
  | en :: rest => if (c.dir k).length ≤ c.fresh.get k 0 then none else some (en, rest)
/-- A slot was free before this cycle and has not been taken (R259). -/
def Column.free (c : Column) (k : Nat) : Bool := decide ((c.dir k).length + c.gone.get k 0 < 16)
/-- The oldest entry goes. -/
def Column.take (c : Column) (k : Nat) : Column :=
  let c := c.setDir k (c.dir k).tail
  { c with gone := c.gone.set k (c.gone.get k 0 + 1) }
/-- An entry comes. -/
def Column.give (c : Column) (k : Nat) (en : List Word) : Column :=
  let c := c.setDir k (c.dir k ++ [en])
  { c with fresh := c.fresh.set k (c.fresh.get k 0 + 1) }

/-- The heartbeat of a tower (R138). -/
def Env.hb (e : Env) (tower : Nat) : Nat := if tower = 0 then e.clk.hb0 else e.clk.hb1

/-- The lanes of a set, ascending. -/
def lanesOf (m : Word) : List Nat := (List.range 32).filter (fun l => m.getLsbD l)
/-- The set of the lanes of a list. -/
def maskOf (ls : List Nat) : Word := ls.foldl (fun m l => m ||| (1#32 <<< l)) 0
/-- The lowest lane of a set; 0 of the empty set. -/
def lowLane (m : Word) : Nat := (lanesOf m).headD 0

/-! ### Registers -/

/-- A vector register of the allocation in one lane. -/
def Warp.phys (w : Warp) (reg lane : Nat) : Word := w.v.get (reg * 32 + lane) 0
/-- A field through a window base (R56). -/
def Warp.vr (w : Warp) (base field lane : Nat) : Word := w.phys (base * 16 + field) lane
/-- The warp with a register of one lane written. -/
def Warp.setPhys (w : Warp) (reg lane : Nat) (x : Word) : Warp :=
  { w with v := SMap.put w.v (reg * 32 + lane) x 0 }
/-- A scalar register; s0 reads 0 (R56, R63). -/
def Warp.sr (w : Warp) (n : Nat) : DWord := if n = 0 then 0 else w.s.get n 0
/-- A write of a scalar register; s0 discards it. -/
def Warp.setSr (w : Warp) (n : Nat) (x : DWord) : Warp :=
  if n = 0 then w else { w with s := SMap.put w.s n x 0 }
def Warp.fibre (w : Warp) (lane : Nat) : Fibre := w.fib.get lane {}
def Warp.setFibre (w : Warp) (lane : Nat) (f : Fibre) : Warp := { w with fib := w.fib.set lane f }
def Warp.modFibre (w : Warp) (lane : Nat) (f : Fibre → Fibre) : Warp := w.setFibre lane (f (w.fibre lane))
/-- A join mask. -/
def Warp.jm (w : Warp) (j : Nat) : Word := w.j.get j 0
def Warp.setJm (w : Warp) (j : Nat) (x : Word) : Warp := { w with j := SMap.put w.j j x 0 }
/-- A predicate of a fibre; p0 reads 1 (R63). -/
def Fibre.pred (f : Fibre) (p : Nat) : Bool := p == 0 || f.preds.getLsbD p
/-- A write of a predicate; p0 discards it. -/
def Fibre.setPred (f : Fibre) (p : Nat) (b : Bool) : Fibre :=
  if p = 0 then f
  else { f with preds := if b then f.preds ||| (1#16 <<< p) else f.preds &&& ~~~(1#16 <<< p) }
/-- The lanes that hold a fibre. -/
def Warp.liveMask (w : Warp) : Word := maskOf ((List.range 32).filter (fun l => (w.fibre l).live))
/-- A change of every lane of a set. -/
def Warp.onLanes (w : Warp) (m : Word) (f : Fibre → Fibre) : Warp :=
  (lanesOf m).foldl (fun w l => w.modFibre l f) w

namespace Dev

/-- The lanes of the batch in which predicate `p` is 1. -/
def withPred (d : Dev) (p : Nat) : Word :=
  maskOf ((lanesOf d.cur.lanes).filter (fun l => (d.opW.fibre l).pred p))
/-- MP of the prefix; 0 without one. -/
def mp (d : Dev) : Nat := match d.cur.pfx with
  | some p => p.mp.toNat
  | none => 0
/-- `active` of R185. -/
def active (d : Dev) : Word := if d.mp = 0 then d.cur.lanes else d.withPred d.mp
/-- Z of the prefix. -/
def zeroing (d : Dev) : Bool := match d.cur.pfx with
  | some p => p.z
  | none => false
/-- A(l) and its like: a vector field of the issuing batch (R185). -/
def vr (d : Dev) (field lane : Nat) : Word := d.opW.vr d.cur.base field lane
/-- A pair of vector fields (R63). -/
def vpair (d : Dev) (field lane : Nat) : DWord := pairWord (d.vr (field + 1) lane) (d.vr field lane)
/-- A scalar register as the word reads it. -/
def sr (d : Dev) (n : Nat) : DWord := d.opW.sr n
/-- B(l) (R185). -/
def bOp (d : Dev) (b : BitVec 7) (s : BitVec 1) (lane : Nat) : Word :=
  if s.getLsbD 0 then loWord (d.sr b.toNat) else d.vr b.toNat lane
/-- B(l) of a 64-bit operand (R185). -/
def bOp64 (d : Dev) (b : BitVec 7) (s : BitVec 1) (lane : Nat) : DWord :=
  if s.getLsbD 0 then d.sr b.toNat else d.vpair b.toNat lane
/-- The register of ACC(l): c when CV = 1, otherwise d (R185). -/
def accField (d : Dev) (dst : Nat) : Nat := match d.cur.pfx with
  | some p => if p.cv then p.c.toNat else dst
  | none => dst

/-- Writes registers field .. field + k - 1 of the lanes of `m` with the words `val lane` gives. -/
def putLanes (d : Dev) (m : Word) (field k : Nat) (val : Nat → Nat → Word) : Dev :=
  d.modCur (fun w => (lanesOf m).foldl (fun w l =>
    (List.range k).foldl (fun w j => w.setPhys (d.cur.base * 16 + field + j) l (val l j)) w) w)
/-- A vector result: `active` lanes written, the other lanes of the batch under Z (R185). -/
def putVec (d : Dev) (field k : Nat) (val : Nat → Nat → Word) : Dev :=
  let act := d.active
  let d' := d.putLanes act field k val
  if d.zeroing then d'.putLanes (d.cur.lanes &&& ~~~act) field k (fun _ _ => 0) else d'
/-- A predicate result for the lanes of `m` (R190). -/
def putPred (d : Dev) (m : Word) (p : Nat) (val : Nat → Bool) : Dev :=
  d.modCur (fun w => (lanesOf m).foldl (fun w l => w.modFibre l (fun f => f.setPred p (val l))) w)
/-- A scalar result. -/
def putSr (d : Dev) (n : Nat) (x : DWord) : Dev := d.modCur (fun w => w.setSr n x)
/-- The PC of the lanes of `m` becomes `t lane`. -/
def putPc (d : Dev) (m : Word) (t : Nat → DWord) : Dev :=
  d.modCur (fun w => (lanesOf m).foldl (fun w l => w.modFibre l (fun f => { f with pc := t l })) w)

/-! ### Logs and interrupts -/

/-- Adds an event to what is in flight. -/
def post (d : Dev) (i : Ev.Event) : Dev := { d with agenda := d.agenda ++ [i] }

/-- Signals an MSI-X vector: a pending bit while the vector or the function is masked, otherwise the message (R415; log
37). -/
def msi (d : Dev) (v : Nat) : Dev :=
  let (addr, ctl) := d.msix.table.get v (0, 0x100000000)
  if d.msix.fmask || ctl.getLsbD 32 then
    let p := if d.msix.pending.contains v then d.msix.pending else d.msix.pending ++ [v]
    { d with msix := { d.msix with pending := p } }
  else { d with mem := d.mem.writeN (0x8000000000000 + addr.toNat) 4 (ctl.toNat % 2 ^ 32) }

/-- An interrupt of a tower: that of tower 1 crosses UCIe to the host interface (R6). -/
def msiFrom (d : Dev) (t v : Nat) : Dev := if t = 1 ∧ !d.uciUp then d else d.msi v

end Dev

/-- A new entry of a ring log of `n` entries (R390). -/
def Log.push (l : Log) (n : Nat) (e : List DWord) : Log :=
  { l with
    entries := l.entries.set l.head e
    lost := if l.unread.contains l.head then min 255 (l.lost + 1) else l.lost
    unread := if l.unread.contains l.head then l.unread else l.unread ++ [l.head]
    head := (l.head + 1) % n
    seq := l.seq + 1 }

/-- An entry of the link error log, with its interrupt (R428). -/
def linkEntry (e : Env) (d : Dev) (source kind seq : Nat) (addr : DWord) : Dev :=
  let entry := [BitVec.ofNat 64 (e.hb 0), BitVec.ofNat 64 (source + kind * 8), BitVec.ofNat 64 seq, addr]
  ({ d with linkLog := d.linkLog.push 32 entry } : Dev).msi 68

/-- An entry of a source whose sequence number the spec does not give: a free value (R149, R428; log 44). -/
def linkOpen (e : Env) (d : Dev) (source kind : Nat) (addr : DWord) : Dev :=
  linkEntry e { d with free := d.free + 1 } source kind (Config.freeValue d.free).toNat addr

/-- The entry for a request that the link has lost; one to a scratch way has no physical address, and its field is a
free value (R424; logs 44, 76). -/
def lostRequest (e : Env) (d : Dev) (pa : Nat) : Dev :=
  if pa = 0 then linkOpen e { d with free := d.free + 1 } 1 4 (Config.freeValue d.free)
  else linkOpen e d 1 4 (BitVec.ofNat 64 pa)

/-- Code of a cause (R376). -/
def Cause.code : Cause → Nat
  | .none => 0 | .memXlate => 1 | .memProt => 2 | .memAlign => 3 | .memData => 4 | .arith => 5
  | .encoding => 6 | .emulate => 7 | .uniformity => 8 | .role => 9 | .regwin => 10 | .engineCopy => 11
  | .engineMatrix => 12 | .graph => 13 | .fifo => 14 | .soft => 15 | .debug => 16 | .hwerr => 17
  | .watchdog => 18 | .bind => 19

/-! ### Ending groups -/

/-- The lanes removed from all eight join masks (R168, rule 5). -/
def Warp.dropJoins (w : Warp) (m : Word) : Warp :=
  (List.range 8).foldl (fun w j => w.setJm j (w.jm j &&& ~~~m)) w

/-- Rules 3 and 4 of R168 for one mask: parked lanes that are no longer members are released, and the
lanes at one address are released when every member is parked there. -/
def Warp.releaseJoin (w : Warp) (j : Nat) (now_ : Nat := 0) : Warp :=
  let mem := w.jm j
  let parked := (List.range 32).filterMap (fun l => match (w.fibre l).park with
    | .join j' x => if j' = j then some (l, x) else none
    | _ => none)
  let go (l : Nat) (x : DWord) : Bool :=
    !mem.getLsbD l || (lanesOf mem).all (fun k => parked.any (fun p => p.1 == k && p.2 == x))
  parked.foldl (fun w p => if go p.1 p.2 then w.modFibre p.1 (fun f => { f with park := .running, wake := now_ }) else w) w

/-- Join release applied to every mask (R168). -/
def Warp.releaseJoins (w : Warp) (now_ : Nat := 0) : Warp := (List.range 8).foldl (fun w j => w.releaseJoin j now_) w

/-- A pin slot released: its generation moves on (R291). -/
def Pin.release (p : Pin) : Pin := if p.entries.isEmpty then p else { p with entries := [], gen := (p.gen + 1) % 65536 }

/-- The finished operations at the head of a stream leave it in stream order, each with its fold word
(R300). -/
def retireOps (st : Stream) : List Mop → Stream
  | [] => { st with out := [] }
  | m :: r =>
    match m.done with
    | none => { st with out := m :: r }
    | some none => retireOps st r
    | some (some w) => retireOps { st with fold := w, opseq := (st.opseq + 1) % 2 ^ 32 } r

/-- A group's uncommitted contributions leave Kennel: each slot keeps its deadline, and each contribution
enters arbitration alone (R306, R310). -/
def kennelLeave (d : Dev) (gid : Nat) : Dev :=
  let k := (d.grp gid).core / 2
  let c := d.col k
  let mine := c.kennel.flatMap (fun p => p.2.members.filter (fun m => m.mop.gid == gid))
  if mine.isEmpty then d
  else
    let now_ := d.colClk k
    d.modCol k (fun c =>
    let leave (s : KSlot) : KSlot :=
      let gone := (s.members.filter (fun m => m.mop.gid == gid)).foldl (fun n m => n + m.mop.arows.length) 0
      { s with members := s.members.filter (fun m => !(m.mop.gid == gid)), rows := s.rows - gone }
    let slots := (c.kennel.map (fun p => (p.1, leave p.2))).filter (fun p => !p.2.members.isEmpty)
    mine.foldl (fun (c : Column) m =>
      let o : EOp := { members := [{ m with row := 0 }], cls := m.mop.cls, born := now_ }
      { c with ready := c.ready.set c.nextId o, nextId := c.nextId + 1 }) { c with kennel := slots })

/-- Windows of R80: 0 translated, 1 scratch, 2 private, 3 transient, 4 none. -/
def windowOf (va : Nat) : Nat :=
  if va < 0xFFFFF00000000000 then 0
  else match va / 2 ^ 40 with
    | 0xFFFFFF => 1
    | 0xFFFFFE => 2
    | 0xFFFFF8 => 3
    | _ => 4

/-! ### Shapes and transfer words (R268, R269) -/

def xSoff (x : DWord) : Nat := fieldN x 0 19
def xSlot (x : DWord) : Nat := fieldN x 19 2
def xScope (x : DWord) : Nat := fieldN x 21 3
def xAoff (x : DWord) : Nat := fieldN x 24 19
def xXoff (x : DWord) : Nat := fieldN x 43 19

/-- A shape descriptor from its 64 bytes as a number, and whether it is malformed. -/
def shapeOf (v : Nat) : CShape :=
  { row := v % 2 ^ 20, count1 := v / 2 ^ 32 % 2 ^ 16, count2 := v / 2 ^ 48 % 2 ^ 16
    mstride1 := BitVec.ofNat 64 (v / 2 ^ 64), mstride2 := BitVec.ofNat 64 (v / 2 ^ 128)
    sstride1 := v / 2 ^ 192 % 2 ^ 32, sstride2 := v / 2 ^ 224 % 2 ^ 32 }
def shapeBad (v : Nat) : Bool :=
  let s := shapeOf v
  s.row == 0 || s.count1 == 0 || s.count2 == 0 || v / 2 ^ 20 % 2 ^ 12 != 0 || v / 2 ^ 256 != 0 ||
    decide (s.row * s.count1 * s.count2 > 2 ^ 28 - 1)

/-- The bytes of a transfer. -/
def CShape.total (s : CShape) : Nat := s.row * s.count1 * s.count2

/-- The scratch offset of a row, and the end of the highest row. -/
def rowScr (s : CShape) (soff i1 i2 : Nat) : Nat := soff + i1 * s.sstride1 + i2 * s.sstride2
def scrEnd (s : CShape) (soff : Nat) : Nat := rowScr s soff (s.count1 - 1) (s.count2 - 1) + s.row

/-- State codes of R278. -/
def CState.code : CState → Nat
  | .free => 0 | .queued => 1 | .running => 2 | .parked => 3 | .done => 4 | .faulted => 5 | .cancelled => 6

/-! ### Chunks (R272) -/

/-- The index of a row of a `CGATH`: as its first chunk read it, or as the list holds it now (R274). -/
def rowIdx (d : Dev) (o : CopyOp) (i1 : Nat) : Nat :=
  o.idx.get i1 ((d.grp o.gid).scratch.readN (xXoff o.xfer + 4 * i1) 4)

/-- The far-side address of a row. -/
def rowFar (d : Dev) (o : CopyOp) (i1 i2 : Nat) : DWord :=
  if o.func = 3 then o.far + BitVec.ofNat 64 (rowIdx d o i1) * o.shape.mstride1
  else o.far + BitVec.ofNat 64 i1 * o.shape.mstride1 + BitVec.ofNat 64 i2 * o.shape.mstride2

/-- Writes to the far side: `CPUT`, and `CRING` with DIR = 1. -/
def CopyOp.puts (o : CopyOp) : Bool := o.func == 2 || (o.func == 5 && o.xfer.getLsbD 43)

/-- Where the 128-byte boundaries of a row are counted from: the far side, or the scratch source of a
scratch-to-scratch put. -/
def rowBase (d : Dev) (o : CopyOp) (r : Nat) : Nat :=
  let i1 := r % o.shape.count1
  let i2 := r / o.shape.count1
  let far := (rowFar d o i1 i2).toNat
  if o.puts && windowOf far == 1 then rowScr o.shape (xSoff o.xfer) i1 i2 else far

/-- Chunks of a row. -/
def rowChunks (d : Dev) (o : CopyOp) (r : Nat) : Nat := (rowBase d o r % 128 + o.shape.row + 127) / 128
/-- Chunks of an operation. -/
def opChunks (d : Dev) (o : CopyOp) : Nat :=
  (List.range (o.shape.count1 * o.shape.count2)).foldl (fun n r => n + rowChunks d o r) 0

/-- Chunk `k` from row `r` on: row, first byte, length. -/
def chunkFind (d : Dev) (o : CopyOp) : Nat → Nat → Nat → Option (Nat × Nat × Nat)
  | 0, _, _ => none
  | n + 1, r, k =>
    let c := rowChunks d o r
    if k < c then
      let b := rowBase d o r % 128
      let lo := if k = 0 then 0 else 128 * k - b
      let hi := min o.shape.row (128 * (k + 1) - b)
      some (r, lo, hi - lo)
    else chunkFind d o n (r + 1) (k - c)
def chunkAt (d : Dev) (o : CopyOp) (k : Nat) : Option (Nat × Nat × Nat) :=
  chunkFind d o (o.shape.count1 * o.shape.count2) 0 k

/-- Far address, scratch offset and length of a chunk. -/
def chunkAddr (d : Dev) (o : CopyOp) (k : Nat) : Option (DWord × Nat × Nat) :=
  (chunkAt d o k).map (fun (r, lo, len) =>
    let i1 := r % o.shape.count1
    let i2 := r / o.shape.count1
    (rowFar d o i1 i2 + BitVec.ofNat 64 lo, rowScr o.shape (xSoff o.xfer) i1 i2 + lo, len))

/-- The operation once a chunk has arrived: DONE when every member that has not dropped out has every chunk (R273,
R449). -/
def copySettleState (d : Dev) (o : CopyOp) : CopyOp :=
  let total := opChunks d o
  let all := o.members.all (fun m => m.dropped || m.arrived.length == total)
  { o with state := if all then .done else if o.waits.isEmpty then .running else .parked }

/-- A chunk of an operation that waits on a fault-buffer entry belongs to a group: it issued the operation, or is the
member that the chunk is for (R282, R449). -/
def CopyOp.waitOf (o : CopyOp) (gid : Nat) (w : Nat × Nat × Nat × Nat) : Bool :=
  o.gid == gid || ((o.members[w.1]?).map (·.gid)) == some gid

/-- The chunks that an engine has read for some member still to come are kept; those that every other member has are
not (R279, R280). -/
def CopyOp.prune (o : CopyOp) (gid : Nat) : CopyOp :=
  { o with held := o.held.filter (fun h => o.members.any (fun m => m.gid != gid && !m.dropped && !m.arrived.contains h.1)) }

/-- A group ends: it drops out of an operation, which keeps nothing for it and then waits for the remaining members alone
(R449). -/
def CopyOp.dropMember (o : CopyOp) (d : Dev) (gid : Nat) : CopyOp :=
  if o.members.any (fun m => m.gid == gid && !m.dropped) then
    let ws := o.waits.filter (fun w => !(((o.members[w.1]?).map (·.gid)) == some gid))
    let o := ({ o with waits := ws, members := o.members.map (fun m => if m.gid = gid then { m with dropped := true } else m) } : CopyOp).prune gid
    if !o.settling && (o.state == .queued || o.state == .running || o.state == .parked) then copySettleState d o else o
  else o

/-- Waiters leave an entry of a fault buffer, which stays valid (R389, R394, R449). -/
def fbLeave (d : Dev) (t k : Nat) : Dev :=
  d.modTower t (fun x => { x with fb := x.fb.modify k (fun f => { f with waiters := f.waiters - 1 }) })

/-- Parked chunks of a group leave the fault buffer: of the operations it issued, if `own` says so, and of those it is a
member of (R282, R449). -/
def leaveChunks (d : Dev) (gid : Nat) (own : Bool) : Dev :=
  d.cores.foldl (fun d c => c.2.copies.foldl (fun d q =>
    (q.2.waits.filter (fun w => q.2.waitOf gid w && (own || q.2.gid != gid))).foldl (fun d w => fbLeave d w.2.2.1 w.2.2.2) d) d) d

/-- Parked batches and the stream of a group leave the fault buffer, each counted once; so does each batch of which lanes
wait on a bind slot (R96, R389, R394). -/
def leaveParked (d : Dev) (gid : Nat) : Dev :=
  let g := d.grp gid
  let ps := (g.waits.filter (fun w => !w.2.2.bind)).map (fun w => (w.1, w.2.1))
  let bs := g.slots.flatMap (fun s => ((d.warp g.core s).fib.filterMap (fun p => match p.2.park with
    | .bind t k va _ _ => if k < Config.fbEntries then some (t, k, p.2.pc, va) else none
    | _ => none)).eraseDups.map (fun x => (x.1, x.2.1)))
  (ps ++ bs).foldl (fun d w => fbLeave d w.1 w.2) d

/-- Frees the copy operations a group holds, and drops the group from operations it is a member of, those of saved
groups among them (R271, R449). -/
def dropCopies (d : Dev) (gid : Nat) : Dev :=
  let d := leaveChunks d gid true
  { d with
    cores := d.cores.map (fun p => (p.1, { p.2 with
      copies := (p.2.copies.filter (fun q => !(q.2.gid == gid))).map (fun q => (q.1, q.2.dropMember d gid)) }))
    saved := d.saved.map (fun s => { s with copies := s.copies.map (fun q => (q.1, q.2.dropMember d gid)) }) }

/-- A group drops out of the multicasts that others of its gang have issued (R449). -/
def dropMulticast (d : Dev) (gid : Nat) : Dev :=
  if (d.grp gid).gang.length < 2 then d
  else
    let d := leaveChunks d gid false
    let drop (q : Nat × CopyOp) : Nat × CopyOp := if q.2.gid = gid then q else (q.1, q.2.dropMember d gid)
    { d with
      cores := d.cores.map (fun p => (p.1, { p.2 with copies := p.2.copies.map drop }))
      saved := d.saved.map (fun s => { s with copies := s.copies.map drop }) }

/-- A group ends when no lane of its warps holds a fibre and its stream has ended with nothing
outstanding (R154, R333); not while a trap halts it.  It then drops out of the multicasts of its gang (R449). -/
def groupEnd (d : Dev) (gid : Nat) : Dev :=
  let g := d.grp gid
  let warps := g.slots.all (fun s => (d.warp g.core s).liveMask == 0)
  let strm := match g.stream with
    | some st => st.ended && st.queue.isEmpty && st.out.isEmpty && st.faults.isEmpty
    | none => true
  let trap := match g.halt with
    | some h => !h.save
    | none => false
  if warps && strm && !trap && !g.ended then (dropMulticast d gid).modGrp gid (fun g => { g with ended := true }) else d

/-- A stream's finished operations leave; after `MEND` the last of them releases the pins, and the group
may end (R300, R333). -/
def streamSettle (d : Dev) (gid : Nat) : Dev :=
  let d := d.modStream gid (fun st =>
    let st := retireOps st st.out
    if st.ended && st.queue.isEmpty && st.out.isEmpty then { st with pins := st.pins.map (fun p => (p.1, p.2.release)) } else st)
  groupEnd d gid

/-- A saved group ended at system level: it never comes back, and its tile retires with the cycle (R389). -/
def Saved.kill (s : Saved) : Saved := { s with group := { s.group with killed := true } }

/-- A group ended at system level: its fibres and stream stop, and it retires without outputs (R389). -/
def killGroup (d : Dev) (gid : Nat) : Dev :=
  let d := leaveParked d gid
  let g := d.grp gid
  let d := g.slots.foldl (fun d s => d.modWarp g.core s (fun w =>
    { w with fib := w.fib.map (fun p => (p.1, { p.2 with live := false, park := .running }))
             levels := [], emudepth := 0, stopped := false, fenceSc := none, fifoQ := [], j := [] })) d
  let d := kennelLeave (dropCopies d gid) gid
  let d : Dev := { d with saved := d.saved.map (fun s => if s.gid = gid then s.kill else s) }
  d.modGrp gid (fun g => { g with
    halt := none, killed := true, ended := true, saving := false, waits := [], owed := []
    stream := g.stream.map (fun st => { st with ended := true, queue := [], faults := [], park := .running }) })

/-- A message of a tower's graph engine to the other one, numbered in its sequence, while the link is up (R8, R149,
R423). -/
def mirrorSend (d : Dev) (m : Ev.Mirror) : Dev :=
  if !d.uciUp then d
  else (d.modTower m.src (fun t => { t with mirrorOut := (t.mirrorOut + 1) % 2 ^ 32 })).post
    (.ucieMirrorMessage { m with seq := (d.tower m.src).mirrorOut, sent := d.now })
def mirror (d : Dev) (src kind lid k : Nat) : Dev := mirrorSend d { src := src, seq := 0, kind := kind, launch := lid, a := k }

/-- A tower aborts a launch; the other one hears of it over UCIe (R8, R389, R450). -/
def abortLaunch (d : Dev) (t lid : Nat) : Dev :=
  match d.launches.find? lid with
  | none => d
  | some l =>
    if l.aborted then d
    else (mirror d t 10 lid 0).modLaunch lid (fun l => { l with aborted := true, heard := if d.uciUp then [t] else [0, 1] })

/-- A launch that both towers abort at once. -/
def Launch.abort (l : Launch) : Launch := { l with aborted := true, heard := [0, 1] }

/-- Delivery at system level: the trap-log entry and its interrupt, the gang's groups ended, the launch
aborted (R389, R390). -/
def systemDeliver (e : Env) (d : Dev) (gid slot : Nat) (stream : Bool) (c : Cause) (nest : Bool)
    (d0 d1 d2 : Nat) (tpc : DWord) : Dev :=
  let g := d.grp gid
  let t := g.core / 64
  let w := d.warp g.core slot
  let seq : DWord := match d.launches.find? g.launch with
    | some l => l.seq
    | none => 0
  let asid := (d.ctx g.ctx).asid.toNat % 2 ^ 16
  let w2 := asid + g.core * 2 ^ 16 + w.idx * 2 ^ 23 + b2n stream * 2 ^ 28 + b2n nest * 2 ^ 29 + c.code * 2 ^ 30
  let entry := [BitVec.ofNat 64 (e.hb t), seq, BitVec.ofNat 64 w2,
    BitVec.ofNat 64 (d0 % 2 ^ 32 + d1 % 2 ^ 32 * 2 ^ 32), BitVec.ofNat 64 (d2 % 2 ^ 32), tpc,
    BitVec.ofNat 64 (d.tower t).trapLog.seq, 0]
  let d := (d.modTower t (fun x => { x with trapLog := x.trapLog.push 64 entry })).msiFrom t (66 + t)
  let d := abortLaunch d t g.launch
  (if g.gang.isEmpty then [gid] else g.gang).foldl killGroup d

/-- HWERR, always at system level, with NEST where two levels are open (R377): the source and layer code of R381. -/
def hwerr (e : Env) (d : Dev) (gid src layer : Nat) (addr : Nat) : Dev :=
  let g := d.grp gid
  let slot := g.slots.headD 0
  systemDeliver e d gid slot false .hwerr (decide (2 ≤ (d.warp g.core slot).levels.length)) (src + layer * 16) (addr % 2 ^ 32) (addr / 2 ^ 32) 0

/-! ### Handler levels -/

/-- The word of EMUDEPTH for a stack of open levels (R385). -/
def depthWord (ls : List Level) : DWord :=
  let k1 := match ls.reverse[0]? with
    | some l => b2n l.trap
    | none => 0
  let k2 := match ls.reverse[1]? with
    | some l => b2n l.trap
    | none => 0
  let st := match ls.head? with
    | some l => b2n l.stream
    | none => 0
  BitVec.ofNat 64 (ls.length + k1 * 4 + k2 * 8 + st * 16)

/-- What a handler level is entered with: the frame of R383 and the word that faulted. -/
structure Frame where
  gid : Nat
  slot : Nat
  lanes : Word
  stream : Bool
  gpc : DWord
  wpc : DWord
  cause : Cause
  d0 : Nat
  d1 : Nat
  d2 : Nat
  ow : List DWord
  fromWord : Bool
  class4 : Bool
  streamPc : DWord
  deriving DecidableEq, Repr

/-- The registers R380 records in a warp of a halted group. -/
def recordCause (h : Frame) (g : Group) (origin : Bool) (oidx ogidx : Nat) (skid : Nat) (w : Warp) : Warp :=
  let tc := h.cause.code + oidx * 2 ^ 8 + b2n origin * 2 ^ 13 + b2n h.stream * 2 ^ 14 + ogidx * 2 ^ 16
  let _ := g
  { w with
    tcause := BitVec.ofNat 64 tc
    tdet0 := if origin then BitVec.ofNat 64 (h.d0 % 2 ^ 32) else 0
    tdet1 := if origin then BitVec.ofNat 64 (h.d1 % 2 ^ 32) else 0
    tdet2 := if origin then BitVec.ofNat 64 (h.d2 % 2 ^ 32) else 0
    tpc := if origin then h.gpc else w.lastPc
    tskid := BitVec.ofNat 64 skid
    skidGroups := 0, skidLast := 0, skidStop := false }

/-- The operand windows of a trap level: OW1.REASON is 0 there (R386). -/
def trapWindows (ow : List DWord) : List DWord := ow.set 1 (ow.getD 1 0 &&& ~~~(0x780000#64))

/-- EnterLevel (R383): the host's first group issues 8 cycles after the fault (that of a trap level, for which the halt has
waited already); `causes` are the cause registers as they stood before this level's cause, and
the level is entered in the frame's warp. -/
def enterLevel (e : Env) (d : Dev) (trap : Bool) (h : Frame) (causes : List DWord) : Dev :=
  let g := d.grp h.gid
  let w := d.warp g.core h.slot
  if w.levels.length ≥ 2 then systemDeliver e d h.gid h.slot h.stream h.cause true h.d0 h.d1 h.d2 h.gpc
  else
    let host : Word := if h.stream then 1 else h.lanes
    let hblk := fieldN w.emuctl 0 4
    if hblk > w.nregs / 16 then systemDeliver e d h.gid h.slot h.stream h.cause false h.d0 h.d1 h.d2 h.gpc
    else
      let hb := if hblk = 0 then (w.fibre (lowLane host)).base else w.nregs / 16 - hblk
      let vec := if trap then (d.ctx g.ctx).trapvec else (d.ctx g.ctx).emuvec
      let lv : Level :=
        { trap := trap, stream := h.stream, emupc := w.emupc, emumask := loWord w.emumask, ow := w.ow
          s56 := (List.range 8).map (fun i => w.sr (56 + i)), partn := w.partn, enables := fieldN w.rmode 16 5
          causes := causes, streamPc := h.streamPc, host := host
          lanes := (lanesOf host).map (fun l => (l, { w.fibre l with age := 0, barked := false }))
          fromWord := h.fromWord, wordAddr := h.wpc, class4 := h.class4 }
      let w := { w with
        levels := lv :: w.levels
        emudepth := depthWord (lv :: w.levels)
        emupc := h.gpc
        emumask := if h.stream then 0 else h.lanes.setWidth 64
        ow := if trap then trapWindows h.ow else h.ow
        partn := 0
        rmode := w.rmode &&& ~~~(0x1F0000#64) }
      let w := (lanesOf host).foldl (fun w l => w.setFibre l
        { live := true, pc := vec, base := hb, age := (w.fibre l).age, wake := if trap then 0 else d.clk g.core + 8
          barked := h.cause == .watchdog }) w
      d.setWarp g.core h.slot w

/-- The halt a frame asks for, from cycle `c`. -/
def Frame.halt (h : Frame) (c : Nat) : Halt :=
  { c := c, save := false, cause := h.cause, d0 := h.d0, d1 := h.d1, d2 := h.d2, ogid := h.gid
    oslot := h.slot, olanes := h.lanes, ostream := h.stream, gpc := h.gpc, wpc := h.wpc, ow := h.ow
    fromWord := h.fromWord, class4 := h.class4, streamPc := h.streamPc }

/-- The frame a halt was asked for. -/
def Halt.frame (h : Halt) : Frame :=
  { gid := h.ogid, slot := h.oslot, lanes := h.olanes, stream := h.ostream, gpc := h.gpc, wpc := h.wpc
    cause := h.cause, d0 := h.d0, d1 := h.d1, d2 := h.d2, ow := h.ow, fromWord := h.fromWord
    class4 := h.class4, streamPc := h.streamPc }

/-- The halt of R379 begins: the group's halt record, its siblings' skid counts cleared.  A trap comes
before a save that has reached the group. -/
def startHalt (d : Dev) (h : Frame) : Dev :=
  let g := d.grp h.gid
  (if g.gang.isEmpty then [h.gid] else g.gang).foldl (fun d k =>
    let gk := d.grp k
    let hl := h.halt (d.clk gk.core)
    let d := gk.slots.foldl (fun d s => d.modWarp gk.core s (fun w => { w with skidGroups := 0, skidLast := 0, skidStop := false })) d
    let d := d.modStream k (fun st => { st with skidStop := false })
    d.modGrp k (fun x => if (x.halt.map (fun y => y.save)).getD true then { x with halt := some hl } else x)) d

/-- A cause of a frame, delivered as R377 lays down. -/
def deliver (e : Env) (d : Dev) (h : Frame) : Dev :=
  let g := d.grp h.gid
  let w := d.warp g.core h.slot
  let c := d.ctx g.ctx
  let causes := [w.tcause, w.tdet0, w.tdet1, w.tdet2, w.tpc, w.tskid]
  if w.levels.length ≥ 2 then systemDeliver e d h.gid h.slot h.stream h.cause true h.d0 h.d1 h.d2 h.gpc
  else if h.cause = .hwerr then systemDeliver e d h.gid h.slot h.stream h.cause false h.d0 h.d1 h.d2 h.gpc
  else if h.cause = .emulate ∧ c.emuvec ≠ 0 then enterLevel e d false h causes
  else if c.trapvec = 0 then systemDeliver e d h.gid h.slot h.stream h.cause false h.d0 h.d1 h.d2 h.gpc
  else startHalt d h

/-- The oldest cause a group is owed is delivered, once no halt or open trap level stops its warp (R98). -/
def owedReady (d : Dev) (gid : Nat) : Bool :=
  match d.groups.find? gid with
  | none => false
  | some g =>
    match g.owed with
    | [] => false
    | h :: _ => g.halt.isNone && !g.saving && !g.killed && !(d.warp g.core h.oslot).stopped &&
        !(h.ostream && (g.stream.map (fun st => st.stopped)).getD false)
def owedDeliver (e : Env) (d : Dev) (gid : Nat) : Dev :=
  if !owedReady d gid then d
  else match (d.grp gid).owed with
    | [] => d
    | h :: r =>
      let d := d.modGrp gid (fun g => { g with owed := r })
      let d := d.modWarp (d.grp gid).core h.oslot (fun w => w.onLanes h.olanes (fun f =>
        if f.park = .halted then { f with park := .running } else f))
      let d := if h.ostream then d.modStream gid (fun st => if st.park = .halted then { st with park := .running } else st) else d
      deliver e d h.frame

/-- The halt of a group is complete: the registers of R380 are recorded in every warp, and in the
originating group the trap level is entered. -/
def completeHalt (e : Env) (d : Dev) (gid : Nat) : Dev :=
  let g := d.grp gid
  match g.halt with
  | none => d
  | some hl =>
    if hl.save then d
    else
      let fr := hl.frame
      let og := d.grp hl.ogid
      let ow := d.warp og.core hl.oslot
      let causes := [ow.tcause, ow.tdet0, ow.tdet1, ow.tdet2, ow.tpc, ow.tskid]
      let skid (w : Warp) : Nat :=
        min 12 w.skidGroups + (if w.skidGroups = 0 then 0 else min 64 (w.skidLast - hl.c)) * 16
      let mine (s : Nat) : Bool := gid == hl.ogid && s == hl.oslot
      let d1 := g.slots.foldl (fun d s => d.modWarp g.core s (fun w =>
        { recordCause fr g (mine s) ow.idx og.gidx (skid w) w with stopped := !(mine s) })) d
      let d2 := (d1.modGrp gid (fun x => { x with
        halt := (if x.saving then some { c := d.clk g.core, save := true } else none) })).modStream gid (fun st => { st with stopped := true, skidStop := false })
      if gid = hl.ogid then enterLevel e d2 true fr causes else d2

/-- A warp and a stream that a halt no longer stops. -/
def Warp.resume (w : Warp) : Warp := { w with stopped := false }
def Stream.resume (st : Stream) : Stream := { st with stopped := false }

/-- A trap level is open in a warp of some groups, saved ones included (R384). -/
def trapOpen (d : Dev) (ks : List Nat) : Bool :=
  let open_ (w : Warp) : Bool := w.levels.any (·.trap)
  ks.any (fun k => (d.grp k).slots.any (fun s => open_ (d.warp (d.grp k).core s))) ||
    d.saved.any (fun s => ks.contains s.gid && s.warps.any open_)

/-- Release of a group halt, unless an outer trap level is still open: every warp of the gang's groups, saved ones
included, may issue again, and a group that ended in its skid ends now (R154, R384, R387). -/
def releaseHalt (d : Dev) (gid : Nat) : Dev :=
  let g := d.grp gid
  let ks := if g.gang.isEmpty then [gid] else g.gang
  if trapOpen d ks then d
  else
  let d : Dev := { d with saved := d.saved.map (fun s => if ks.contains s.gid
    then { s with warps := s.warps.map Warp.resume, group := { s.group with stream := s.group.stream.map Stream.resume } } else s) }
  ks.foldl (fun d k =>
    let gk := d.grp k
    groupEnd ((gk.slots.foldl (fun d s => d.modWarp gk.core s Warp.resume) d).modStream k Stream.resume) k) d

/-- What leaving a level restores from its record in the warp (R387). -/
def Warp.restoreLevel (w : Warp) (lv : Level) : Warp :=
  let w := (List.range 8).foldl (fun w i => w.setSr (56 + i) (lv.s56.getD i 0)) w
  { w with
    partn := lv.partn
    rmode := (w.rmode &&& ~~~(0x1F0000#64)) ||| (BitVec.ofNat 64 lv.enables <<< 16)
    tcause := lv.causes.getD 0 0, tdet0 := lv.causes.getD 1 0, tdet1 := lv.causes.getD 2 0
    tdet2 := lv.causes.getD 3 0, tpc := lv.causes.getD 4 0, tskid := lv.causes.getD 5 0
    emupc := lv.emupc, emumask := lv.emumask.setWidth 64, ow := lv.ow
    levels := w.levels.tail, emudepth := depthWord w.levels.tail }

/-- The PC at which a stream frame resumes: that of its word, or where a save has withdrawn earlier operations, or the
fault was asynchronous, the oldest word not yet issued (R310, R387, R397). -/
def Level.resumePc (lv : Level) (here : DWord) : DWord :=
  if lv.fromWord && lv.streamPc == lv.wordAddr then here else lv.streamPc

/-- Lanes whose group at an address is issued again in full: no word of it is left out by an earlier `EMURET skip` (R182). -/
def Warp.unsuppress (w : Warp) (gpc : DWord) (lanes : Word) : Warp :=
  let less (x : Suppress) : Suppress := if x.gpc = gpc ∧ !x.fence then { x with lanes := x.lanes &&& ~~~lanes } else x
  { w with suppress := (w.suppress.map less).filter (fun x => x.lanes != 0) }

/-- `EMURET Y` (R182, R387): the innermost level of a warp ends and its frame resumes. -/
def leaveLevel (d : Dev) (gid slot : Nat) (retry : Bool) : Dev :=
  let g := d.grp gid
  let w := d.warp g.core slot
  match w.levels with
  | [] => d
  | lv :: _ =>
    let here := w.emupc
    let w1 := w.restoreLevel lv
    let w2 := lv.lanes.foldl (fun w p => w.setFibre p.1 p.2) w1
    let w3 := if lv.fromWord && !lv.stream then
        let w' := w2.onLanes lv.host (fun f => if f.live then { f with pc := here } else f)
        if retry then w'.unsuppress here lv.host
        else { w' with suppress := w'.suppress ++ [{ gpc := here, word := lv.wordAddr, lanes := lv.host }] }
      else w2
    let d := d.setWarp g.core slot w3
    let d := if lv.stream then d.modStream gid (fun st => { st with
        pc := lv.resumePc here
        skip := if lv.fromWord && !retry then some here else none }) else d
    groupEnd (if lv.trap then releaseHalt d gid else d) gid

/-- The innermost level, if its host fibres have all ended by `FEXIT`, ends with its frame (R387). -/
def levelEnd (d : Dev) (gid slot : Nat) : Dev :=
  let g := d.grp gid
  let w := d.warp g.core slot
  match w.levels with
  | [] => d
  | lv :: _ =>
    if (lanesOf lv.host).any (fun l => (w.fibre l).live) then d
    else
      let w1 := w.restoreLevel lv
      let w2 := if lv.stream then lv.lanes.foldl (fun w p => w.setFibre p.1 p.2) w1 else w1
      let d := d.setWarp g.core slot w2
      let d := if lv.stream then d.modStream gid (fun st => { st with park := .running, ended := true }) else d
      let d := if lv.trap then releaseHalt d gid else d
      if lv.stream then streamSettle d gid else d

/-- Levels whose host fibres have all ended by `FEXIT` end with their frames: the frame of an inner level may be all that
was left of an outer level's host (R387). -/
def levelFexit (d : Dev) (gid slot : Nat) : Dev := levelEnd (levelEnd d gid slot) gid slot

/-- The host lanes that may issue in a warp: those of the innermost trap or stream level, or all (R384). -/
def Warp.mayIssue (w : Warp) : Word :=
  match w.levels.find? (fun l => l.trap || l.stream) with
  | some l => l.host
  | none => 0xFFFFFFFF

/-- A batch belongs to the host of the innermost level (R384). -/
def Warp.inHost (w : Warp) (lanes : Word) : Bool :=
  match w.levels.head? with
  | some l => lanes &&& l.host == lanes
  | none => false

/-! ### Physical targets -/

/-- Size of the emergency area (R114). -/
def emergencyBytes : Nat := 2 ^ 30

/-- A physical address of memory: GDDR 7 below the emergency area, or the host aperture (R414). -/
def inGddr (pa : Nat) : Bool := decide (pa < Config.gddrBytes - emergencyBytes)
def inHostAp (pa : Nat) : Bool := decide (0x8000000000000 ≤ pa ∧ pa ≤ 0xFFEFFFFFFFFFF)
def inAlias (pa : Nat) : Bool := decide (0xFFF0000000000 ≤ pa ∧ pa < 0xFFF0000000000 + 0x4000000)

/-- The tower of a physical line (R102). -/
def homeTower (pa : Nat) : Nat :=
  b2n (((pa.testBit 12).xor (pa.testBit 21)).xor ((pa.testBit 30).xor (pa.testBit 39)))
/-- The home-bank number of a physical line among `n` banks (R102). -/
def homeBank (pa n : Nat) : Nat := ((pa / 2 ^ 13 % 64) ^^^ (pa / 2 ^ 25 % 64)) % (max n 1)
/-- The line number of R106 and of the line records: PA [51:7]. -/
def lineOf (pa : Nat) : Nat := pa / 128

/-- An access of an engine of tower `t` to a physical address that the lost link would carry: to a line of the other
tower, or from tower 1 to the host aperture (R6, R424). -/
def linkCut (d : Dev) (t pa : Nat) : Bool :=
  !d.uciUp && decide (t < 2) && ((inGddr pa && homeTower pa != t) || (inHostAp pa && t == 1))

/-- The log entry that names a line, if any (R106). -/
def lostAt (d : Dev) (pa : Nat) : Option (Nat × LostEntry) :=
  List.find? (fun (p : Nat × LostEntry) => p.2.line == lineOf pa) (d.tower (homeTower pa)).lost

/-- R105, R106: an uncorrectable line that an access consumed is dropped and logged; a full log is a
fatal memory error. -/
def loseLine (e : Env) (d : Dev) (pa src : Nat) : Dev :=
  let t := homeTower pa
  if (lostAt d pa).isSome then d
  else match SMap.free (d.tower t).lost Config.lostEntries with
    | some k => d.modTower t (fun x => { x with
        lines := x.lines.erase (lineOf pa)
        lost := x.lost.set k { line := lineOf pa, src := src, stamp := e.hb t } })
    | none =>
      (d.modTower t (fun x => { x with
        fatal := true
        unlogged := if x.unlogged.contains (lineOf pa) then x.unlogged else x.unlogged ++ [lineOf pa] })).msiFrom t 70

/-- A context with an access to an unlogged lost line ends with HWERR, SRC 3 (R106): its resident groups, its saved
ones, and its launches. -/
def endContext (e : Env) (d : Dev) (ctx pa : Nat) : Dev :=
  let d := d.groups.foldl (fun d p => if p.2.ctx = ctx ∧ !p.2.killed then hwerr e d p.1 3 0 pa else d) d
  { d with
    saved := d.saved.map (fun s => if s.ctx = ctx then s.kill else s)
    launches := d.launches.map (fun p => (p.1, if p.2.ctx = ctx then p.2.abort else p.2)) }

/-! ### What a word raises -/

/-- The batch stands again at its chain group. -/
def rewind (d : Dev) : Dev :=
  if d.cur.stream then d.modStream d.cur.gid (fun st => { st with pc := d.cur.wpc })
  else d.putPc d.cur.lanes (fun _ => d.cur.gpc)

/-- The resolved rounding mode of the issuing warp (R386, OW7). -/
def curRm (d : Dev) : Nat :=
  match d.cur.pfx with
  | some p => if p.rm = 0 then fieldN d.opW.rmode 0 3 else p.rm.toNat
  | none => fieldN d.opW.rmode 0 3

/-- The frame of the issue in progress for a cause. -/
def curFrame (d : Dev) (c : Cause) (d0 d1 d2 : Nat) : Frame :=
  let g := d.curGrp
  let slot := if d.cur.stream then g.slots.headD 0 else d.cur.slot
  let reason := if c = .emulate then d0 % 16 else 0
  { gid := d.cur.gid, slot := slot, lanes := if d.cur.stream then 0 else d.cur.lanes, stream := d.cur.stream
    gpc := d.cur.gpc, wpc := d.cur.wpc, cause := c, d0 := d0, d1 := d1, d2 := d2
    ow := operandWindows d.cur.word d.cur.pfx d.cur.base reason (c == .emulate && d0 / 256 % 2 == 1) (curRm d)
    fromWord := true, class4 := fieldN d.cur.word 28 3 == 4, streamPc := d.cur.gpc }

/-- An EMULATE cause with its detail (R381): REASON, the group, NEVER, the word and its prefix; `rank` is its row in
R72, or 5 where the word's own operation raises it. -/
def emulateAt (d : Dev) (rank reason : Nat) : Raise :=
  let w := d.cur.word
  let cls := fieldN w 28 3
  let gr := dismaskGroup cls (if cls = 5 then 0 else fieldN w 22 6) (if cls = 5 then fieldN w 25 3 else 0)
  let pw := match d.cur.pfx with
    | some p => p.word.toNat
    | none => 0
  .cause rank .emulate (reason + gr.getD 0 * 16 + (if reason = 9 then 256 else 0)) w.toNat pw w 0

/-- EMULATE of a word of the maps: a fate of R72, or with REASON 10 a rule of the word's own entry that the values
it meets break (R73). -/
def emulateRaise (d : Dev) (reason : Nat) : Raise := emulateAt d (if reason = 10 then 5 else 3) reason

/-- A cause after the fates of R72, with its detail. -/
def own (d : Dev) (c : Cause) (d0 d1 d2 : Nat) : Raise := .cause 5 c d0 d1 d2 d.cur.word 0

/-- An address in TDET1 and TDET2 (R381). -/
def ownAt (d : Dev) (c : Cause) (d0 : Nat) (addr : DWord) : Raise :=
  own d c d0 (loWord addr).toNat (hiWord addr).toNat

/-- R95, R96: a replayable fault joins an entry of a tower's fault buffer or takes the lowest-numbered free one
(log 68).  Answers the entry's index, or none when the buffer is full; `n` is what it adds to WAITERS. -/
def fbJoin (e : Env) (d : Dev) (t : Nat) (va : DWord) (asid kind reason level pte src : Nat) (n : Nat := 1) : Dev × Option Nat :=
  let tw := d.tower t
  let page (x : DWord) : Nat := if kind = 6 then x.toNat else x.toNat / 65536
  let same (f : FbEntry) : Bool :=
    f.asid == asid && page f.va == page va && (f.kind == 6) == (kind == 6) && f.reason == reason
  match List.find? (fun (p : Nat × FbEntry) => same p.2) tw.fb with
  | some (k, f) =>
    (d.modTower t (fun x => { x with fb := x.fb.set k { f with waiters := min 0xFFFF (f.waiters + n) } }), some k)
  | none =>
    match SMap.free tw.fb Config.fbEntries with
    | some k =>
      let f : FbEntry :=
        { va := va, asid := asid, kind := kind, reason := reason, level := level, src := src, waiters := 1
          ptepa := pte, stamp := e.hb t }
      let d' := d.modTower t (fun x => { x with fb := x.fb.set k f })
      (if tw.fb.isEmpty then d'.msiFrom t (64 + t) else d', some k)
    | none => (d.modTower t (fun x => { x with fullcnt := min 0xFFFFFFFF (x.fullcnt + 1) }), none)

/-- The batch or stream of the issue in progress parks on the entries of its faulted pages (R94); each
entry counts it once. -/
def parkReplay (e : Env) (d : Dev) (fs : List PFault) : Dev :=
  let t := d.curTower
  let asid := d.curAsid
  let page (f : PFault) : Nat × Nat := (f.va / 65536, f.reason)
  let once := fs.foldl (fun l f => if l.any (fun x => page x == page f) then l else l ++ [f]) []
  let (d, ks, full) := once.foldl (fun (acc : Dev × List (Nat × PFault) × Bool) f =>
    let (d, ks, full) := acc
    let (d, r) := fbJoin e d t (BitVec.ofNat 64 f.va) asid f.kind f.reason f.level f.pte d.cur.core
    match r with
    | some k => (d, ks ++ [(k, f)], full)
    | none => (d, ks, true)) (d, [], false)
  let d := rewind d
  let ids := ks.map (fun (x : Nat × PFault) => x.1)
  let ws := ks.map (fun (x : Nat × PFault) => (t, x.1, (curFrame d x.2.cause x.2.d0 x.2.d1 x.2.d2).halt 0))
  let d := d.modGrp d.cur.gid (fun g => { g with waits := g.waits ++ ws })
  if d.cur.stream then d.modStream d.cur.gid (fun st => { st with park := .replay t ids full })
  else d.modCur (fun w => w.onLanes d.cur.lanes (fun f => { f with park := .replay t ids full }))

/-- What a word raises is recorded when only asked for; otherwise it happens.  EMULATE of a batch
outside the host of an open level is held at issue (R384). -/
def takeRaise (e : Env) (d : Dev) (r : Raise) : Dev :=
  if d.cur.probe then { d with cur := { d.cur with raised := some r } }
  else
    match r with
    | .hold => rewind d
    | .replay fs => parkReplay e d fs
    | .cause _ c d0 d1 d2 _ pa =>
      if c = .emulate ∧ !d.cur.stream ∧ d.curWarp.levels ≠ [] ∧ d.curWarp.inHost d.cur.lanes = false then rewind d
      else
        let d := rewind d
        let d := if c = .memData ∧ d0 / 256 % 8 < 2 then loseLine e d pa (d0 / 256 % 8) else d
        let d := if c = .memData ∧ (d0 / 256 % 8 = 4 ∨ d0 / 256 % 8 = 5)
          then linkOpen e d 0 (d0 / 256 % 8 - 2) (BitVec.ofNat 64 pa) else d
        let d := if c = .hwerr ∧ d0 % 16 = 6 then lostRequest e d pa else d
        if c = .hwerr ∧ d0 % 16 = 3 then endContext e (loseLine e d (d1 + d2 * 2 ^ 32) 0) d.curGrp.ctx (d1 + d2 * 2 ^ 32)
        else deliver e d (curFrame d c d0 d1 d2)

/-! ### The guard of every word -/

/-- Role of the issuer for the words it may issue: 0 vector, 1 copy, 2 stream (R381). -/
def issuer (d : Dev) : Nat := if d.cur.stream then 2 else b2n d.curWarp.copy

/-- R167, R53, R384: the issuer may issue a word of this class and engine. -/
def roleOk (d : Dev) (p : Props) : Bool :=
  if d.cur.stream then p.cls == 4
  else if p.cls == 4 then false
  else if d.curWarp.inHost d.cur.lanes then true
  else if d.curWarp.copy then p.cls != 1
  else !(p.cls == 5 && p.eng == 0)

/-- ROLE with its detail (R381). -/
def roleRaise (d : Dev) : Raise :=
  let w := d.cur.word
  let cls := fieldN w 28 3
  .cause 2 .role (issuer d + cls * 4 + (if cls = 5 then 0 else fieldN w 22 6) * 32 +
    (if cls = 5 then fieldN w 25 3 else 0) * 2 ^ 11) w.toNat 0 w 0

/-- R61, R211, R236: the prefix is one the word accepts. -/
def pfxOk (d : Dev) (p : Props) : Bool :=
  match d.cur.pfx with
  | none => true
  | some x => x.rz == 0 && x.rm != 7 && (x.rm == 0 || p.rnd) && (!x.cv || decide (p.cv ≠ 0)) &&
      (!x.cv || decide (p.cv ≠ 2) || !x.c.getLsbD 0) && (!x.z || p.z)

/-- Special registers at system level only (R64, R87, R393, R302). -/
def sregSys (n : Nat) : Bool := n == 0x3A || decide (0x40 ≤ n ∧ n ≤ 0x48)

/-- The vector operands a word names, its prefix's c included. -/
def vecOperands (d : Dev) (p : Props) : List (Nat × Nat) :=
  p.vd ++ p.vs ++ (match d.cur.pfx with
    | some x => if x.cv then [(x.c.toNat, p.cv)] else []
    | none => [])

/-- REGWIN with its detail (R381). -/
def regwin (d : Dev) (lane reason reg : Nat) : Raise :=
  let f := d.opW.fibre lane
  own d .regwin (lane + reason * 32 + reg % 512 * 256) (f.base + f.depth * 16) 0

/-- R56: a register beyond the allocation. -/
def regwinCheck (d : Dev) (p : Props) : Option Raise :=
  match (vecOperands d p).find? (fun r => decide (d.cur.base * 16 + r.1 + r.2 > d.opW.nregs)) with
  | some r => some (regwin d (lowLane d.cur.lanes) 1 (d.cur.base * 16 + r.1))
  | none => none

/-- The checks every word meets before its own: ROLE, then the fates that give EMULATE, then REGWIN
(R72, R73, R391, R421). -/
def guard (d : Dev) (p : Props) : Option Raise :=
  if !roleOk d p then some (roleRaise d)
  else if (match p.grp with
    | some b => d.curCtx.dismask.getLsbD b
    | none => false) then some (emulateRaise d 2)
  else if !pfxOk d p then some (emulateRaise d 6)
  else if d.user && (p.sys || (match p.sreg with
    | some n => sregSys n
    | none => false)) then some (emulateRaise d 7)
  else if d.cur.stream then none
  else regwinCheck d p

/-- A word of a warp or stream: the guard, then the word's own checks, then its effect (R52, R73).  A
word of a longer chain group has met its checks before the group's first effect. -/
def word (p : Props) (chk : Env → Dev → Option Raise) (eff : Op) : Op := fun e d =>
  if d.cur.snap.isSome && !d.cur.probe then eff e d
  else match guard d p with
  | some r => takeRaise e d r
  | none =>
    match chk e d with
    | some r => takeRaise e d r
    | none => if d.cur.probe then d else eff e d

/-- A word with no check of its own. -/
def plain (p : Props) (eff : Dev → Dev) : Op := word p (fun _ _ => none) (fun _ d => eff d)

/-! ### Data-arrival words -/

/-- A dword of a group's scratch (R11). -/
def scr64 (g : Group) (off : Nat) : DWord := BitVec.ofNat 64 (g.scratch.readN off 8)

/-- GEN and FAULT of a data-arrival word (R253). -/
def dawGen (x : DWord) : Nat := fieldN x 56 6
def dawFault (x : DWord) : Bool := x.getLsbD 62

/-- R256: the fibres and the stream of a group that are parked on the dword at `off` re-evaluate. -/
def wakeOn (d : Dev) (gid off : Nat) : Dev :=
  let g := d.grp gid
  let x := scr64 g off
  let wakes (o gen : Nat) : Bool := o == off && (dawGen x != gen || dawFault x)
  let woken := g.slots.any (fun s => (d.warp g.core s).fib.any (fun p => match p.2.park with
    | .word o gen _ => wakes o gen
    | _ => false))
  -- The wake is the join of the operations that moved the word (R136, R142).
  let d := if woken then (d.modCore g.core (fun c => { c with l1 := c.l1.filter (fun p => !p.2.wr) })).modGrp gid (fun g => { g with wrote := false }) else d
  let d := g.slots.foldl (fun d s => d.modWarp g.core s (fun w =>
    w.fib.foldl (fun w p =>
      match p.2.park with
      | .word o gen dest =>
        if wakes o gen then
          let w := w.modFibre p.1 (fun f => { f with park := .running, age := 0, wake := d.clk g.core + 1 })
          match dest with
          | .pred q => w.modFibre p.1 (fun f => f.setPred q (dawFault x))
          | .pair r => (w.setPhys r p.1 (loWord x)).setPhys (r + 1) p.1 (hiWord x)
        else w
      | _ => w) w)) d
  d.modStream gid (fun st =>
    match st.park with
    | .mwait o gen qd =>
      if wakes o gen then
        { st with park := .running
                  wake := d.clk g.core + 1
                  q := if qd = 0 then st.q else SMap.put st.q qd (BitVec.ofNat 64 (b2n (dawFault x))) 0 }
      else st
    | _ => st)

/-- A write of `n` bytes of a group's scratch, with the waits it may end (R253). -/
def scrWrite (d : Dev) (gid off n v : Nat) : Dev :=
  let d := d.modGrp gid (fun g => { g with scratch := g.scratch.writeN off n v })
  let lo := off / 8 * 8
  let hi := (off + n - 1) / 8 * 8
  let d := wakeOn d gid lo
  if hi = lo then d else wakeOn d gid hi

/-- A data-arrival word from its fields (R253). -/
def dawMake (count target gen : Nat) (fault armed : Bool) : Nat :=
  count % 2 ^ 28 + target % 2 ^ 28 * 2 ^ 28 + gen % 64 * 2 ^ 56 + b2n fault * 2 ^ 62 + b2n armed * 2 ^ 63

/-- Arrive(w, n) on the value of a data-arrival word (R253). -/
def arriveWord (x : DWord) (n : Nat) : Nat :=
  let count := fieldN x 0 28
  let target := fieldN x 28 28
  let c := count + n
  if x.getLsbD 63 && decide (c ≥ target) then
    dawMake 0 target (dawGen x + 1) (dawFault x || decide (c > target)) false
  else
    dawMake (min c (2 ^ 28 - 1)) target (dawGen x) (dawFault x || decide (c > 2 ^ 28 - 1)) (x.getLsbD 63)

/-- An arrival of n units on a word of a group's scratch (R253); a group that is not resident is skipped. -/
def arrive (d : Dev) (gid off n : Nat) : Dev :=
  scrWrite d gid off 8 (arriveWord (scr64 (d.grp gid) off) n)

/-- The FAULT update of R276. -/
def setFault (d : Dev) (gid off : Nat) : Dev :=
  scrWrite d gid off 8 ((scr64 (d.grp gid) off).toNat ||| 2 ^ 62)

end Sys2Proof.Machine
end

