-- ==== Sys2Proof/Machine/Operands.lean ====
section
/-! DEFINITION.  The operand forms of vector and scalar words: which registers a format names, how a
result is written, and what a branch offset addresses (R46, R54 to R56, R185, R197). -/

namespace Sys2Proof.Machine

/-- A field of a format as a register number. -/
abbrev reg {n : Nat} (x : BitVec n) : Nat := x.toNat

/-- Format R with one 32-bit result in each lane: A and B (R185). -/
def vBinary (p : Props) (f : FmtR) (g : Word → Word → Word) : Op :=
  plain p (fun d => d.putVec (reg f.d) 1 (fun l _ => g (d.vr (reg f.a) l) (d.bOp f.b f.s l)))

/-- Format R with an addend: A, B and ACC (R185). -/
def vTernary (p : Props) (f : FmtR) (g : Word → Word → Word → Word) : Op :=
  plain p (fun d => d.putVec (reg f.d) 1 (fun l _ =>
    g (d.vr (reg f.a) l) (d.bOp f.b f.s l) (d.vr (d.accField (reg f.d)) l)))

/-- A word with one source register (R188). -/
def vUnary (p : Props) (dst src : Nat) (g : Word → Word) : Op :=
  plain p (fun d => d.putVec dst 1 (fun l _ => g (d.vr src l)))

/-- A pair result from a function of the lane (R189). -/
def vWide (p : Props) (dst : Nat) (g : Dev → Nat → DWord) : Op :=
  plain p (fun d => d.putVec dst 2 (fun l j => if j = 0 then loWord (g d l) else hiWord (g d l)))

/-- A compare that writes a predicate (R190). -/
def vCompare (p : Props) (dst : Nat) (g : Dev → Nat → Bool) : Op :=
  plain p (fun d => d.putPred d.active dst (g d))

/-- Tile size of the issuing warp (R164). -/
def tileSize (d : Dev) : Nat := 32 / 2 ^ fieldN d.opW.partn 0 3
/-- First lane of the tile of a lane (R165). -/
def tileBase (d : Dev) (l : Nat) : Nat := l / tileSize d * tileSize d
/-- The lanes of a set within one tile. -/
def tileLanes (d : Dev) (m : Word) (t : Nat) : List Nat := (lanesOf m).filter (fun l => l / tileSize d == t)

/-- A word that reads another lane of its tile (R186, R194). -/
def vLane (p : Props) (dst src : Nat) (from_ : Dev → Nat → Nat) : Op :=
  plain p (fun d => d.putVec dst 1 (fun l _ => d.vr src (from_ d l % 32)))

/-- A word that combines the active lanes of each tile (R196): `g` is given the tile's lanes and one of
them. -/
def vTile (p : Props) (dst : Nat) (g : Dev → List Nat → Nat → Word) : Op :=
  plain p (fun d => d.putVec dst 1 (fun l _ => g d (tileLanes d d.active (l / tileSize d)) l))

/-- Format SCL with a 64-bit result (R198). -/
def sBinary (p : Props) (f : FmtS) (g : DWord → DWord → DWord) : Op :=
  plain p (fun d => d.putSr (reg f.d) (g (d.sr (reg f.a)) (d.sr (reg f.b))))

/-- R166: the first active lane whose value differs from that of the lowest active lane of its tile,
with that lane. -/
def disagree (d : Dev) (val : Nat → Nat) : Option (Nat × Nat) :=
  (lanesOf d.active).findSome? (fun l =>
    match (tileLanes d d.active (l / tileSize d)).head? with
    | some r => if val l = val r then none else some (l, r)
    | none => none)

/-- UNIFORMITY with its detail (R381): operand position among the uniform operands. -/
def uniform (d : Dev) (pos : Nat) (val : Nat → Nat) : Option Raise :=
  match disagree d val with
  | some (l, r) => some (own d .uniformity (l + r * 32 + pos * 2 ^ 10) (val l % 2 ^ 32) (val r % 2 ^ 32))
  | none => none

/-- The uniformity of one tile's lanes. -/
def uniformIn (d : Dev) (ls : List Nat) (pos : Nat) (val : Nat → Nat) : Option Raise :=
  match ls with
  | [] => none
  | r :: _ => (ls.find? (fun l => val l != val r)).map (fun l =>
      own d .uniformity (l + r * 32 + pos * 2 ^ 10) (val l % 2 ^ 32) (val r % 2 ^ 32))

/-- The lowest active lane of each tile that has one. -/
def tileHeads (d : Dev) : List Nat :=
  (lanesOf d.active).filter (fun l => (tileLanes d d.active (l / tileSize d)).head? == some l)

/-- The first of a list of checks that raises. -/
def firstRaise (l : List (Option Raise)) : Option Raise := l.findSome? id

/-- The target of a branch offset: packets from the packet that holds the word (R46). -/
def branchTo {n : Nat} (d : Dev) (o : BitVec n) : DWord := d.cur.pkt + 12 * o.signExtend 64

/-- The address of a generic access of format M (R237). -/
def eaM (d : Dev) (a : BitVec 7) (o : BitVec 5) (size l : Nat) : DWord :=
  d.vpair (reg a) l + BitVec.ofNat 64 (o.toNat * size)

/-- The scratch offset of format MS, without wrap (R237). -/
def offMS (d : Dev) (a : BitVec 7) (o : BitVec 5) (size l : Nat) : Nat :=
  (d.vr (reg a) l).toNat + o.toNat * size

/-- A word from its bits in 8-bit steps. -/
def byteAt (w : Word) (j : Nat) : Nat := fieldN w (8 * j) 8
/-- A half of a word. -/
def halfAt (w : Word) (j : Nat) : Nat := fieldN w (16 * j) 16

end Sys2Proof.Machine
end

