-- ==== Sys2Proof/Machine/VMem.lean ====
section
/-! DEFINITION.  Addresses: windows (R80 to R86), page tables (R88 to R92), physical targets (R414), the
transient window (R84, R85, R348), and what an access finds there: bytes, lost lines (R105, R106), L1
copies (R100, R136) and line records (R111, R115). -/

namespace Sys2Proof.Machine

/-- Kinds of access (R90); `patch` is a write that needs EX in place of WR (R122). -/
inductive AKind where
  | read | write | atomic | fetch | patch
  deriving DecidableEq, Repr

/-- KIND of R381 and of a core's own fault-buffer entry (R96). -/
def AKind.code : AKind → Nat
  | .read => 0 | .write => 1 | .atomic => 2 | .fetch => 3 | .patch => 1

/-- Who makes an access. -/
structure Who where
  gid : Nat
  ctx : Nat
  core : Nat
  deriving DecidableEq, Repr

/-- Why an access cannot be made. -/
inductive MErr where
  /-- Invalid or malformed entry: level, its address, the translated address (R90). -/
  | xlate (malformed : Bool) (level pte : Nat) (tva : DWord)
  /-- Permission failure: by level of privilege, RPF, level, entry, address (R90). -/
  | perm (usr rpf : Bool) (level pte : Nat) (tva : DWord)
  /-- MEM_PROT with its REASON (R381). -/
  | prot (reason : Nat)
  /-- MEM_ALIGN with log2 of the alignment. -/
  | align (a : Nat)
  /-- GRAPH with its REASON and resource (R85). -/
  | graph (reason res : Nat)
  /-- MEM_DATA with SRC and physical address. -/
  | data (src pa : Nat)
  /-- HWERR SRC 3: a lost line that found the log full (R106). -/
  | unlogged (pa : Nat)
  /-- HWERR SRC 6: the access crosses UCIe, and the link is down (R6, R424; log 76). -/
  | link (pa : Nat)
  /-- The resource tile is being moved or re-produced (R109, R360). -/
  | moving
  deriving DecidableEq, Repr

/-- A replayable fault under CTXCFG.REPLAY = 1 (R93): address, REASON, LEVEL and PTEPA of its entry. -/
def MErr.replayable (x : MErr) : Option (Nat × Nat × Nat × Nat) :=
  match x with
  | .xlate false l p v => some (v.toNat, 0, l, p)
  | .perm _ true l p v => some (v.toNat, 1, l, p)
  | _ => none

/-- The delivered cause of a failed access: cause, TDET0, TDET1 and TDET2 (R381). -/
def MErr.cause (x : MErr) (lane kind : Nat) (va : DWord) : Cause × Nat × Nat × Nat :=
  let lo := (loWord va).toNat
  let hi := (hiWord va).toNat
  let lk := lane + kind * 32
  match x with
  | .xlate m l _ _ => (.memXlate, lk + b2n m * 256 + l * 512, lo, hi)
  | .perm u _ _ _ _ => (.memProt, lk + (if u then 2 else 1) * 256, lo, hi)
  | .prot r => (.memProt, lk + r * 256, lo, hi)
  | .align a => (.memAlign, lk + a * 256, lo, hi)
  | .graph r res => (.graph, lane + r * 32 + res * 256, lo, hi)
  | .data s _ => (.memData, lk + s * 256, lo, hi)
  | .unlogged pa => (.hwerr, 3, pa % 2 ^ 32, pa / 2 ^ 32)
  | .link pa => (.hwerr, 6, pa % 2 ^ 32, pa / 2 ^ 32)
  | .moving => (.none, 0, 0, 0)

/-! ### What an access meets -/

/-- What a read of `n` bytes at a physical address meets: a logged lost line, of SRC 3, or an unlogged one (R106, R381;
log 11), an uncorrectable error (choice 4), or a PCIe error completion (choice 5). -/
def readErr (d : Dev) (pa : Nat) : Option MErr :=
  if inGddr pa then
    match lostAt d pa with
    | some _ => some (.data 3 pa)
    | none =>
      if (d.tower (homeTower pa)).unlogged.contains (lineOf pa) then some (.unlogged pa)
      else match d.opt 4 with
        | 0 => none
        | k + 1 =>
          if SMap.free (d.tower (homeTower pa)).lost Config.lostEntries = none then some (.unlogged pa)
          else some (.data (k % 2) pa)
  else if inHostAp pa then (if d.opt 5 = 0 then none else some (.data 5 pa))
  else none

/-- A write meets only a PCIe error completion (R241, R414); an unlogged lost line ends its context. -/
def writeErr (d : Dev) (pa : Nat) : Option MErr :=
  if inHostAp pa && d.opt 5 != 0 then some (.data 5 pa)
  else if inGddr pa && (d.tower (homeTower pa)).unlogged.contains (lineOf pa) then some (.unlogged pa)
  else none

/-- The end of a group whose access the link has lost (R424). -/
def linkLost (e : Env) (d : Dev) (gid : Nat) (x : MErr) : Dev :=
  match x with
  | .link pa => hwerr e d gid 6 0 pa
  | _ => d

/-- What a failed access leaves in the logs (R105, R106, R414): the lost line, the link error, or the end of
the contexts that use an unlogged lost line. -/
def noteErr (e : Env) (d : Dev) (ctx : Nat) (x : MErr) : Dev :=
  match x with
  | .data s pa =>
    if s < 2 then loseLine e d pa s
    else if s = 4 ∨ s = 5 then linkOpen e d 0 (s - 2) (BitVec.ofNat 64 pa)
    else d
  | .unlogged pa => endContext e (loseLine e d pa 0) ctx pa
  | .link pa => lostRequest e d pa
  | _ => d

/-! ### Page tables -/

/-- R90: reserved bits, ORD or CP of 11, LEAF at L3 or missing at L0, PA below the page size, and the
fields of a non-leaf. -/
def malformed (e : DWord) (level : Nat) : Bool :=
  let pa := fieldN e 16 36
  e.getLsbD 63 || fieldN e 14 2 != 0 ||
  (if e.getLsbD 1 then
    level == 3 || fieldN e 8 2 == 3 || fieldN e 11 2 == 3 || pa % 2 ^ (13 * level) != 0
   else level == 0 || fieldN e 2 14 != 0 || fieldN e 52 12 != 0)

/-- The entry a walk uses at one level: memory's, or a cached one (choice 1, R91). -/
def pteAt (d : Dev) (asid level : Nat) (va : DWord) (ea sel : Nat) : DWord :=
  let memE := BitVec.ofNat 64 (d.mem.readN ea 8)
  let hits := d.tlb.filter (fun t => t.asid == asid && t.level == level && t.va == va.toNat / 2 ^ (16 + 13 * level) && t.pa == ea)
  if sel = 0 then memE
  else match hits[(sel - 1) % (max hits.length 1)]? with
    | some t => t.pte
    | none => memE

/-- A walk's answer: leaf, its level and address, and the entries read (level, address, contents). -/
structure Walk where
  leaf : DWord
  level : Nat
  ea : Nat
  seen : List (Nat × Nat × DWord)
  deriving DecidableEq, Repr

/-- The table walk of R90 from level `n - 1` down, with `t` the table's address. -/
def walkFrom (d : Dev) (asid : Nat) (va : DWord) (sel : Nat) : Nat → Nat → List (Nat × Nat × DWord) → Except MErr Walk
  | 0, _, _ => .error (.prot 1)
  | n + 1, t, seen =>
    let lo := 16 + 13 * n
    let idx := if n = 3 then va.toNat / 2 ^ 55 else va.toNat / 2 ^ lo % 8192
    let ea := t + 8 * idx
    if !(inGddr ea || inHostAp ea) then .error (.data 4 ea)
    else match readErr d ea with
      | some x => .error x
      | none =>
        let e := pteAt d asid n va ea sel
        if !e.getLsbD 0 then .error (.xlate false n ea va)
        else if malformed e n then .error (.xlate true n ea va)
        else if e.getLsbD 1 then .ok { leaf := e, level := n, ea := ea, seen := seen ++ [(n, ea, e)] }
        else walkFrom d asid va sel n (fieldN e 16 36 * 65536) (seen ++ [(n, ea, e)])

/-- The permission the leaf must give (R90, R122). -/
def leafAllows (e : DWord) (k : AKind) : Bool :=
  match k with
  | .read => e.getLsbD 4
  | .write => e.getLsbD 5
  | .atomic => e.getLsbD 4 && e.getLsbD 5
  | .fetch => e.getLsbD 6
  | .patch => e.getLsbD 6

/-- Translate (R90): the physical address, its page, and the leaf's A and D bits to set; `sel` is the
choice of cached entries. -/
def translate (d : Dev) (ctx : Nat) (va : DWord) (k : AKind) (sel : Nat) : Except MErr (Nat × Page × Bool × ADSet) :=
  let c := d.ctx ctx
  let asid := c.asid.toNat % 65536
  match walkFrom d asid va sel 4 (fieldN c.ptbase 12 40 * 4096) [] with
  | .error x => .error x
  | .ok w =>
    let e := w.leaf
    if !c.sys && !e.getLsbD 7 then .error (.perm true (e.getLsbD 13) w.level w.ea va)
    else if !leafAllows e k then .error (.perm false (e.getLsbD 13) w.level w.ea va)
    else
      let lo := 16 + 13 * w.level
      let pa := fieldN e 16 36 * 65536 / 2 ^ lo * 2 ^ lo + va.toNat % 2 ^ lo
      let dirty := k = .write ∨ k = .atomic ∨ k = .patch
      .ok (pa, { wr := e.getLsbD 5, ord := fieldN e 8 2, tso := e.getLsbD 10, cp := fieldN e 11 2 }, e.getLsbD 7,
        { va := va, ea := w.ea, bits := if dirty then 12 else 4 })

/-- The entries a translation reads may be cached when the choice says so (choice 1, bit 0 of a value
above 0; R91). -/
def cacheWalk (d : Dev) (ctx : Nat) (va : DWord) (sel : Nat) : Dev :=
  let c := d.ctx ctx
  let asid := c.asid.toNat % 65536
  if sel = 0 then d
  else match walkFrom d asid va 0 4 (fieldN c.ptbase 12 40 * 4096) [] with
    | .error _ => d
    | .ok w =>
      w.seen.foldl (fun d s =>
        let t : TlbEntry := { asid := asid, level := s.1, va := va.toNat / 2 ^ (16 + 13 * s.1), pte := s.2.2, pa := s.2.1 }
        if d.tlb.contains t then d else { d with tlb := d.tlb ++ [t] }) d

/-- A translated access of up to 8 bytes: its target.  An address that the machine computes (R82, R84, R107) and that lies
in the windows is not translated (R80; log 80). -/
def plainTarget (d : Dev) (ctx : Nat) (va : DWord) (k : AKind) (sel : Nat) : Except MErr (Target × List ADSet) :=
  if windowOf va.toNat ≠ 0 then .error (.prot 3)
  else match translate d ctx va k sel with
  | .error x => .error x
  | .ok (pa, pg, usr, ad) =>
    if inAlias pa then (if usr then .error (.prot 9) else .ok (.reg (pa - 0xFFF0000000000), [ad]))
    else if inGddr pa || inHostAp pa then .ok (.mem pa pg, [ad])
    else .error (.data 4 pa)

/-! ### The transient window -/

/-- Tile edge of a TSIZE code in pixels (R345). -/
def tileEdge (c : Nat) : Nat := 16 * 2 ^ c

/-- The mapped tile of R348 and the last tile it spans, on one axis. -/
def mapTile (sp sr x : Nat) : Nat × Nat :=
  if sp ≥ sr then (x * (sp / sr), x * (sp / sr) + sp / sr - 1) else (x / (sr / sp), x / (sr / sp))

/-- A rectangle of resource tiles: low and high bounds on both axes. -/
structure Rect where
  x0 : Int
  x1 : Int
  y0 : Int
  y1 : Int
  deriving DecidableEq, Repr

/-- A point lies in a rectangle. -/
def Rect.has (r : Rect) (x y : Int) : Bool := decide (r.x0 ≤ x ∧ x ≤ r.x1 ∧ r.y0 ≤ y ∧ y ≤ r.y1)
/-- Tiles of a rectangle, x fastest. -/
def Rect.tiles (r : Rect) : List (Nat × Nat) :=
  (List.range (r.y1 - r.y0 + 1).toNat).flatMap (fun (j : Nat) =>
    (List.range (r.x1 - r.x0 + 1).toNat).map (fun (i : Nat) => ((r.x0 + (i : Int)).toNat, (r.y0 + (j : Int)).toNat)))

/-- Cover (R348). -/
def cover (p : Pass) (x y : Nat) (r : Res) (st : Stencil) : Rect :=
  let (bx0, bx1) := mapTile (tileEdge p.tsize) (tileEdge r.tsize) x
  let (by0, by1) := mapTile (tileEdge p.tsize) (tileEdge r.tsize) y
  if st.form = 2 then { x0 := 0, x1 := r.gridw, y0 := 0, y1 := r.gridh }
  else
    let s : Stencil := if st.form = 1 then { form := 1, x0 := 0, x1 := 0, y0 := 0, y1 := 0 } else st
    { x0 := max (bx0 + s.x0) 0, x1 := min (bx1 + s.x1) r.gridw
      y0 := max (by0 + s.y0) 0, y1 := min (by1 + s.y1) r.gridh }

/-- Keys of resource tiles and of consumer tiles. -/
def rtKey (r x y : Nat) : Nat := r * 2 ^ 24 + y * 2 ^ 12 + x
def noPass : Pass :=
  { entry := 0, gridw := 0, gridh := 0, tsize := 0, cls := 0, gang := 0, shape := 0, present := false, head := 0
    recarg := false, mask0 := 0, mask1 := 0, ins := [], outs := [], argoff := 0, split := 0, cardrow := 0
    user0 := 0, user1 := 0 }
def noRes : Res :=
  { transient := false, overflow := false, hostvis := false, tsize := 0, gridw := 0, gridh := 0, slots := 0
    slotbytes := 0, ovfslots := 0 }
def noStencil : Stencil := { form := 1, x0 := 0, x1 := 0, y0 := 0, y1 := 0 }

/-- The byte key of offset `off` in a bank, counted through ways of the given numbers (R103). -/
def slotKey (bank : Nat) (ways : List Nat) (off : Nat) : Nat :=
  bank * 2 ^ 23 + (ways[off / 2 ^ 19]?).getD 0 * 2 ^ 19 + off % 2 ^ 19

/-- Where a byte of a placed tile is (R84, R107, R108, R116). -/
def placeTarget (d : Dev) (w : Who) (l : Launch) (res : Nat) (rs : Res) (pl : Place) (byte : Nat) (k : AKind)
    (sel : Nat) : Except MErr (Target × List ADSet) :=
  match pl with
  | .none => .error .moving
  | .slot t n =>
    match l.rings.find? (res * 2 + t) with
    | none => .error .moving
    | some r =>
      match r.moved.find? n with
      | some pa => .ok (.mem (pa + byte) {}, [])
      | none =>
        let (bank, off, ways) := (r.places[n]?).getD (0, 0, [])
        .ok (.ring t (slotKey bank ways (off + byte)), [])
  | .ovf n =>
    plainTarget d w.ctx ((l.binds[res]?).getD 0 + BitVec.ofNat 64 (n * rs.slotbytes + byte)) k sel
  | .emerg pa => .ok (.mem (pa + byte) {}, [])

/-- A transient access, ranked as R85 lays down. -/
def transTarget (d : Dev) (w : Who) (va : DWord) (size total : Nat) (k : AKind) (sel : Nat) :
    Except MErr (Target × List ADSet) :=
  let _ := size
  let g := d.grp w.gid
  let res := fieldN va 32 8
  let dx := (va.extractLsb' 28 4).toInt
  let dy := (va.extractLsb' 24 4).toInt
  let byte := fieldN va 0 24
  let wr := k != .read
  if dx = -8 ∨ dy = -8 then .error (.prot 7)
  else if g.task.pass = 255 then .error (.graph 6 res)
  else match d.launches.find? g.launch with
    | none => .error (.graph 6 res)
    | some l =>
      let p := (l.graph.passes[g.task.pass]?).getD noPass
      let rs := (l.graph.res[res]?).getD noRes
      let isOut := p.outs.contains res
      let ins := p.ins.filter (fun i => i.1 == res)
      if !isOut && ins.isEmpty then .error (.graph 1 res)
      else if !rs.transient then .error (.graph 7 res)
      else if byte + total > rs.slotbytes then .error (.prot 4)
      else if wr && !isOut then .error (.graph 4 res)
      else if wr && (dx != 0 || dy != 0) then .error (.graph 3 res)
      else if wr && g.trets.contains res then .error (.graph 5 res)
      else
        let bx : Int := (mapTile (tileEdge p.tsize) (tileEdge rs.tsize) g.task.tx).1 + dx
        let yy : Int := (mapTile (tileEdge p.tsize) (tileEdge rs.tsize) g.task.ty).1 + dy
        let inSt := ins.any (fun i =>
          (cover p g.task.tx g.task.ty rs ((l.graph.stencils[i.2]?).getD noStencil)).has bx yy)
        if !wr && !inSt then .error (.graph 2 res)
        else
          let t := l.rts.get (rtKey res bx.toNat yy.toNat) {}
          if t.st != .ready && !isOut then .error .moving
          else placeTarget d w l res rs t.place byte k sel

/-! ### The windows -/

/-- A group holds the warp slot that a private address names (R82). -/
def privHeld (d : Dev) (w : Who) (id : Nat) : Bool :=
  match d.warps.find? (wkey (id / 2048) (id / 32 % 64)) with
  | some x => (d.grp x.gid).ctx == w.ctx
  | none => false

/-- The tower of a register block: that of the memory engine, the graph engine or the trap log that holds it, or the
host interface's (R6, R413). -/
def regTower (o : Nat) : Nat :=
  if 0x1000000 ≤ o ∧ o < 0x1080000 then (o - 0x1000000) / 0x40000
  else if 0x1800000 ≤ o ∧ o < 0x1880000 then (o - 0x1800000) / 0x40000
  else if 0x1C00000 ≤ o ∧ o < 0x1C80000 then (o - 0x1C00000) / 0x40000
  else 0

/-- The tower that an access to a target goes to; none of a core's own scratch (R6, R102). -/
def Target.tower (t : Target) : Option Nat :=
  match t with
  | .mem pa _ => some (if inGddr pa then homeTower pa else 0)
  | .ring tw _ => some tw
  | .reg o => some (regTower o)
  | _ => none

/-- The physical address of a target, for the logs. -/
def Target.pa (t : Target) : Nat :=
  match t with
  | .mem pa _ => pa
  | .reg o => 0xFFF0000000000 + o
  | _ => 0

/-- An event of up to 8 bytes within an access of `total` bytes that begins at `va0`: its target, before the way to
it is considered (R80 to R86). -/
def resolveAt (d : Dev) (w : Who) (va0 : DWord) (total : Nat) (off size : Nat) (k : AKind) (sel : Nat) :
    Except MErr (Target × List ADSet) :=
  let a0 := va0.toNat
  let win := windowOf a0
  let va := va0 + BitVec.ofNat 64 off
  if win = 4 then .error (.prot 3)
  else if a0 + total > 2 ^ 64 ∨ windowOf (a0 + total - 1) ≠ win then .error (.prot 6)
  else match win with
    | 0 => plainTarget d w.ctx va k sel
    | 1 =>
      if a0 % 2 ^ 40 + total > (d.grp w.gid).shape.scratch then .error (.prot 4)
      else .ok (.scr (a0 % 2 ^ 40 + off), [])
    | 2 =>
      let id := fieldN va 20 20
      if id / 2 ^ 18 ≠ 0 then .error (.prot 4)
      else if !privHeld d w id then .error (.prot 5)
      else plainTarget d w.ctx ((d.ctx w.ctx).privbase + BitVec.ofNat 64 (va.toNat % 2 ^ 40)) k sel
    | _ =>
      match transTarget d w va0 size total k sel with
      | .error x => .error x
      | .ok _ => transTarget d w va size (total - off) k sel

/-- An event's target (R80 to R86); an access to the other tower crosses UCIe (R6). -/
def resolve (d : Dev) (w : Who) (va0 : DWord) (total : Nat) (off size : Nat) (k : AKind) (sel : Nat) :
    Except MErr (Target × List ADSet) :=
  match resolveAt d w va0 total off size k sel with
  | .error x => .error x
  | .ok r => if !d.uciUp && (r.1.tower.getD (w.core / 64)) != w.core / 64 then .error (.link r.1.pa) else .ok r

/-- What an access to a resolved target meets beside its address: MEM_DATA and its like. -/
def targetErr (d : Dev) (k : AKind) (t : Target) : Option MErr :=
  match t, k with
  | .mem pa _, .read => readErr d pa
  | .mem pa _, .fetch => readErr d pa
  | .mem pa _, _ => writeErr d pa
  | .fail s pa, _ => some (.data s pa)
  | _, _ => none

/-! ### Bytes -/

/-- The bytes a target holds in memory. -/
def tgtRead (d : Dev) (gid : Nat) (t : Target) (n : Nat) : Nat :=
  match t with
  | .scr off => (d.grp gid).scratch.readN off n
  | .mem pa _ => d.mem.readN pa n
  | .ring tw key => (d.tower tw).ringMem.readN key n
  | .reg _ => 0
  | .fail _ _ => 0

/-- A page whose lines the L1 may hold (R92, R414). -/
def l1Page (pa : Nat) (pg : Page) : Bool := inGddr pa && pg.cp != 2 && !pg.tso && pg.ord != 0

/-- The line of a scratch way that holds a byte, numbered apart from the lines of memory (R84). -/
def ringLine (tw key : Nat) : Nat := 2 ^ 45 + tw * 2 ^ 27 + key / 128

/-- The number under which an L1 holds the line of a target, if it may hold one at all. -/
def Target.line (t : Target) : Option Nat :=
  match t with
  | .mem pa _ => some (lineOf pa)
  | .ring tw key => some (ringLine tw key)
  | _ => none

/-- The target's byte address: physical, or in the scratch ways. -/
def Target.byte (t : Target) : Nat :=
  match t with
  | .mem pa _ => pa
  | .ring _ key => key
  | _ => 0

/-- A target whose line the L1 may hold, with WR of its page: a cached page, or a ring slot of the transient window (R84,
R92). -/
def Target.cached (t : Target) : Option Bool :=
  match t with
  | .mem pa pg => if l1Page pa pg then some pg.wr else none
  | .ring _ _ => some true
  | _ => none

/-- The bytes of a target's line. -/
def lineBytes (d : Dev) (t : Target) : Memory :=
  match t with
  | .mem pa _ => d.mem.slice (pa / 128 * 128) 128
  | .ring tw key => (d.tower tw).ringMem.slice (key / 128 * 128) 128
  | _ => []

/-- The bank of its tower, column × 2 + die, that is the home of a line (R102). -/
def Tower.bankOf (t : Tower) (line : Nat) : Nat := (t.homes[homeBank (line * 128) t.homes.length]?).getD 0

/-- A flit at a loop station: the idle count restarts, and at a station that is down the flit waits for its
ports (R112). -/
def Tower.flit (t : Tower) (bank now_ : Nat) : Tower :=
  { t with
    portIdle := t.portIdle.set bank now_
    portWait := if t.portDown.contains bank && (t.portWait.find? bank).isNone then t.portWait.set bank now_ else t.portWait }

/-- WARN and CRIT of a layer code as temperatures (R432). -/
def warnOf (d : Dev) (code : Nat) : Int := (BitVec.ofNat 16 (d.mgmt.warn.get code 0x02F8)).toInt
def critOf (d : Dev) (code : Nat) : Int := (BitVec.ofNat 16 (d.mgmt.crit.get code 0x0348)).toInt

/-- The dirty budget of a cache die in lines: 48 MiB, or half at or above its warning level (R115, R439). -/
def dirtyBudget (d : Dev) (t die : Nat) : Nat :=
  if d.mgmt.temps.any (fun p => p.1 / 256 == t && p.1 % 8 == 1 + die && decide (warnOf d (1 + die) ≤ p.2)) then 196608 else 393216

/-- The dirty lines of a die. -/
def Tower.dirtyOn (t : Tower) (die : Nat) : List (Nat × LineMeta) :=
  t.lines.filter (fun p => p.2.dirty && t.bankOf p.1 % 2 == die)

/-- The least recently used of some lines. -/
def lruLine : List (Nat × LineMeta) → Option Nat
  | [] => none
  | p :: r => some (r.foldl (fun (b : Nat × LineMeta) q => if q.2.used < b.2.used then q else b) p).1

/-- Dirty lines of a die written back, the least recently used first, until fewer than `budget` are left
(R115); `n` bounds them. -/
def Tower.cleanTo (t : Tower) (die budget : Nat) : Nat → Tower
  | 0 => t
  | n + 1 =>
    let ds := t.dirtyOn die
    if ds.length < budget then t
    else match lruLine ds with
      | some k => Tower.cleanTo { t with lines := t.lines.modify k (fun m => { m with dirty := false }) } die budget n
      | none => t

/-- A write that would raise a die's dirty total above its budget waits until it fits (R115). -/
def Tower.room (t : Tower) (line budget : Nat) : Tower :=
  if (t.lines.get line {}).dirty then t
  else t.cleanTo (t.bankOf line % 2) budget ((t.dirtyOn (t.bankOf line % 2)).length + 1 - budget)

/-- The ways of a bank that act as cache (R103). -/
def Tower.cacheWays (t : Tower) : List Nat :=
  (List.range 16).filter (fun w => !t.ways.any (fun p => p.2.contains w))

/-- Lines of 128 bytes in a way of 512 KiB (R103). -/
def wayLines : Nat := 4096

/-- Lines and replicas that a way of a bank holds. -/
def Tower.wayUse (t : Tower) (bank way : Nat) : Nat :=
  (t.lines.filter (fun p => (p.2.way == way && t.bankOf p.1 == bank) || p.2.replicas.contains (bank, way))).length

/-- The line of a bank that is replaced: the lowest priority, then the least recently used (R235; log 7). -/
def Tower.victim (t : Tower) (bank : Nat) : Option (Nat × LineMeta) :=
  (t.lines.filter (fun p => t.bankOf p.1 == bank)).foldl (fun (b : Option (Nat × LineMeta)) p => match b with
    | none => some p
    | some q => if p.2.pri < q.2.pri ∨ p.2.pri = q.2.pri ∧ p.2.used < q.2.used then some p else some q) none

/-- A place for one more line in a bank: a cache way with room, or that of the line replaced, which is written
back; none in a bank that has stopped allocating (R7, R103, R116, R117). -/
def Tower.place (t : Tower) (bank : Nat) : Option (Tower × Nat) :=
  if t.evac.contains bank || t.lostBanks.contains bank || t.dieOff.contains (1 + bank % 2) then none
  else match t.cacheWays.find? (fun w => decide (t.wayUse bank w < wayLines)) with
    | some w => some (t, w)
    | none => (t.victim bank).map (fun p => ({ t with lines := t.lines.erase p.1 }, p.2.way))

/-- The least number of columns between two columns of a tower, around the loop. -/
def colDist (a b : Nat) : Nat := min ((a + 32 - b) % 32) ((b + 32 - a) % 32)

/-- The bank that serves a read by a core of the same tower: the nearest of the home bank and the replicas, the
home bank on a tie (R111; log 7). -/
def servingBank (col home : Nat) (reps : List (Nat × Nat)) : Nat :=
  (reps.map (·.1)).foldl (fun b r => if colDist (r / 2) col < colDist (b / 2) col then r else b) home

/-- The flits of a message between a core's column and a bank: at the bank's station, and, from another column,
at the station of the core's column on the bank's die (R110, R112). -/
def Tower.flits (t : Tower) (tw : Nat) (src : Option Nat) (bank now_ : Nat) : Tower :=
  let t := t.flit bank now_
  match src with
  | some c => if c / 64 = tw ∧ c / 2 % 32 ≠ bank / 2 then t.flit (c / 2 % 32 * 2 + bank % 2) now_ else t
  | none => t

/-- The line record after a read that reaches the banks, from a core or an engine: counted in its window at the
home bank, filled under allocate (R92, R111); a bypass read writes a present line back and drops it. -/
def noteRead (d : Dev) (pa : Nat) (pg : Page) (src : Option Nat := none) (pri : Nat := 1) : Dev :=
  if inGddr pa then
    d.modTower (homeTower pa) (fun t =>
      let line := lineOf pa
      let home := t.bankOf line
      match t.lines.find? line with
      | some m =>
        let at_ := match src with
          | some c => if c / 64 = homeTower pa then servingBank (c / 2 % 32) home m.replicas else home
          | none => home
        let t := t.flits (homeTower pa) src at_ d.now
        if pg.cp = 2 then { t with lines := t.lines.erase line }
        else { t with
          lines := t.lines.set line { m with reads := m.reads + b2n (at_ == home), used := t.clock, pri := pri }
          clock := t.clock + 1 }
      | none =>
        let t := t.flits (homeTower pa) src home d.now
        if pg.cp = 0 then
          match t.place home with
          | some (t, w) => { t with
              lines := t.lines.set line { reads := 1, used := t.clock, way := w, pri := pri }, clock := t.clock + 1 }
          | none => t
        else t)
  else d

/-- The line record after a write: replicas gone before it performs, dirty under allocate, or when the
line was present under no-allocate (R92, R111, R115). -/
def noteWrite (d : Dev) (pa : Nat) (pg : Page) (src : Option Nat := none) (pri : Nat := 1) : Dev :=
  if inGddr pa then
    d.modTower (homeTower pa) (fun t =>
      let line := lineOf pa
      let home := t.bankOf line
      let t := t.flits (homeTower pa) src home d.now
      let dirtied (t : Tower) (m : LineMeta) : Tower := { t with
        lines := t.lines.set line { m with dirty := true, ro := false, replicas := [], used := t.clock, pri := pri }
        clock := t.clock + 1 }
      if pg.cp = 2 then { t with lines := t.lines.erase line }
      else
        let budget := dirtyBudget d (homeTower pa) (home % 2)
        match t.lines.find? line with
        | some m => dirtied (t.room line budget) m
        | none =>
          if pg.cp = 0 then
            match t.place home with
            | some (t, w) => dirtied (t.room line budget) { way := w }
            | none => t
          else t)
  else d

/-- The bytes of a line that a write covers, as a mask of 128 bits. -/
def lineMask (pa n : Nat) : Nat := (2 ^ n - 1) * 2 ^ (pa % 128)

/-- R106, R241: a write into a logged line is merged, and the entry goes when every byte was written. -/
def mergeLost (d : Dev) (pa n : Nat) : Dev :=
  match lostAt d pa with
  | none => d
  | some (k, x) =>
    let m := x.mask ||| lineMask pa n
    d.modTower (homeTower pa) (fun t =>
      { t with lost := if m = 2 ^ 128 - 1 then t.lost.erase k else t.lost.set k { x with mask := m } })

/-- A write of `n` bytes of physical memory (R126), with the line's records. -/
def physWrite (d : Dev) (pa n v : Nat) (pg : Page) (src : Option Nat := none) (pri : Nat := 1) : Dev :=
  mergeLost (noteWrite { d with mem := d.mem.writeN pa n v } pa pg src pri) pa n

/-- An access to the scratch ways by a core, or by an engine of its, passes the loop (R112). -/
def noteRing (d : Dev) (tw key : Nat) (src : Option Nat) : Dev :=
  d.modTower tw (fun t => t.flits tw src (key / 2 ^ 23) d.now)

/-- A and D set in an entry (R90): a write of its line, which is not allocated for it (R111; log 81). -/
def setAD (d : Dev) (a : ADSet) : Dev :=
  let e := d.mem.readN a.ea 8
  if e ||| a.bits = e then d else physWrite d a.ea 8 (e ||| a.bits) { cp := 1 }

/-- The entries that a walk reads from memory, counted at their banks (R111; log 81). -/
def walkNote (d : Dev) (ctx : Nat) (va : DWord) (sel : Nat) : Dev :=
  let c := d.ctx ctx
  let asid := c.asid.toNat % 65536
  match walkFrom d asid va sel 4 (fieldN c.ptbase 12 40 * 4096) [] with
  | .error _ => d
  | .ok w => w.seen.foldl (fun x s =>
      if sel ≠ 0 ∧ d.tlb.any (fun t => t.asid == asid && t.level == s.1 && t.va == va.toNat / 2 ^ (16 + 13 * s.1) && t.pa == s.2.1) then x
      else noteRead x s.2.1 { cp := 1 }) d

/-- What translating an access leaves behind: its walks counted, entries that may be cached, and A and D bits (R90, R91,
R111). -/
def touch (d : Dev) (ctx : Nat) (ads : List ADSet) : Dev :=
  ads.foldl (fun x a => setAD (cacheWalk (walkNote x ctx a.va (d.opt 1)) ctx a.va (d.opt 1)) a) d

/-- A core's own copy of a line follows its stores, whose hint sets its priority (R136, R235). -/
def l1Store (d : Dev) (core : Nat) (t : Target) (n v pri : Nat) : Dev :=
  match t.line with
  | none => d
  | some k => match (d.core core).l1.find? k with
    | none => d
    | some l => d.modCore core (fun c => { c with l1 := c.l1.set k { l with data := l.data.writeN t.byte n v, pri := pri } })

/-- A core's copy of a line is dropped (R136). -/
def l1Forget (d : Dev) (core line : Nat) : Dev :=
  if ((d.core core).l1.find? line).isNone then d
  else d.modCore core (fun c => { c with l1 := c.l1.erase line })
def l1Drop (d : Dev) (core pa : Nat) : Dev := l1Forget d core (lineOf pa)
/-- A core's copy of a target's line is dropped. -/
def l1Lose (d : Dev) (core : Nat) (t : Target) : Dev :=
  match t.line with
  | some k => l1Forget d core k
  | none => d

/-- R136: the L1 drops every line of a page with WR = 1. -/
def l1DropWr (d : Dev) (core : Nat) : Dev :=
  if (d.core core).l1.isEmpty then d
  else d.modCore core (fun c => { c with l1 := c.l1.filter (fun p => !p.2.wr) })

/-- The ASID of an accessor. -/
def Who.asid (w : Who) (d : Dev) : Nat := (d.ctx w.ctx).asid.toNat % 65536

/-- Where a cached load finds its line. -/
inductive L1From where
  /-- The core's own copy. -/
  | own (l : L1Line)
  /-- A peer core's copy of a line of a read-only page (R101). -/
  | peer (l : L1Line)
  /-- The home bank: a copy that the core still holds has been replaced. -/
  | home
  deriving DecidableEq, Repr

/-- Where a cached load finds its line (choices 0 and 3; log 7): the core's own copy, unless the choice says that
it was replaced; otherwise that of the peer its predictor names, on an RC or UO page with WR = 0 (R101); otherwise
the home bank. -/
def l1From (d : Dev) (w : Who) (t : Target) : L1From :=
  match t.cached, t.line with
  | some wr, some k =>
    let held (c : Nat) : Option L1Line := ((d.core c).l1.find? k).filter (fun l => l.asid == w.asid d)
    (match (if d.opt 0 % 2 = 1 then held w.core else none) with
    | some l => .own l
    | none =>
      match (if d.opt 3 ≠ 0 ∧ wr = false then held (d.opt 3 - 1) else none) with
      | some l => .peer l
      | none => .home)
  | _, _ => .home

/-- What a cached load reads. -/
def l1Read (d : Dev) (w : Who) (t : Target) (n : Nat) : Nat :=
  match l1From d w t with
  | .own l | .peer l => l.data.readN t.byte n
  | .home => tgtRead d w.gid t n

/-- The blocks of a core's array that serve as L1 (R99). -/
def l1Blocks (d : Dev) (core : Nat) : List Nat :=
  let held := (d.groups.filter (fun p => p.2.core == core)).flatMap (fun p => p.2.blocks)
  (List.range 32).filter (fun b => !held.contains b)

/-- The first number from `k` on that is not listed, of `n`. -/
def firstUnused (used : List Nat) : Nat → Nat → Option Nat
  | 0, _ => none
  | n + 1, k => if used.contains k then firstUnused used n (k + 1) else some k

/-- A place in the L1 for one more line: one in use by none, or that of the line replaced, which is the one of
the lowest priority, then the least recently used (R99, R235; log 7). -/
def l1Place (blocks : List Nat) (l1 : SMap L1Line) : Option (SMap L1Line × Nat) :=
  let used := l1.map (fun p => p.2.slot)
  match blocks.findSome? (fun b => firstUnused used 128 (b * 128)) with
  | some k => some (l1, k)
  | none =>
    (l1.foldl (fun (b : Option (Nat × L1Line)) p => match b with
      | none => some p
      | some q => if p.2.pri < q.2.pri ∨ p.2.pri = q.2.pri ∧ p.2.used < q.2.used then some p else some q) none).map
      (fun v => (l1.erase v.1, v.2.slot))

/-- A line of which the core holds no copy is kept with the given bytes. -/
def l1Keep (d : Dev) (w : Who) (line : Nat) (wr : Bool) (data : Memory) (pri : Nat) : Dev :=
  let l1 := (d.core w.core).l1.erase line
  match l1Place (l1Blocks d w.core) l1 with
  | none => d
  | some (l1, k) => d.modCore w.core (fun c => { c with
      l1 := l1.set line { wr := wr, asid := w.asid d, data := data, slot := k, pri := pri, used := c.clock }
      clock := c.clock + 1 })

/-- What a load leaves in the L1: the copy it used; or, from a peer or the home bank, its own copy gone, or the line
received in its place when the choice says that it is kept (choice 0, bit 1; R100, R101).  A load that the L1 may not
serve leaves no older copy behind (R127). -/
def l1Fill (d : Dev) (w : Who) (t : Target) (pri : Nat) : Dev :=
  match t.cached, t.line with
  | some wr, some k =>
    let keep := d.opt 0 / 2 % 2 == 1
    (match l1From d w t with
    | .own l => d.modCore w.core (fun c => { c with
        l1 := c.l1.set k { l with wr := l.wr || wr, used := c.clock, pri := pri }, clock := c.clock + 1 })
    | .peer l => if keep then l1Keep d w k wr l.data pri else l1Forget d w.core k
    | .home => if keep then l1Keep d w k wr (lineBytes d t) pri else l1Forget d w.core k)
  | _, _ => l1Lose d w.core t

/-- The value of a load's event. -/
def loadValue (d : Dev) (w : Who) (t : Target) (n : Nat) : Nat := l1Read d w t n

/-- A read that reaches the banks or the scratch ways (R111, R112). -/
def bankNote (d : Dev) (t : Target) (src : Option Nat) (pri : Nat := 1) : Dev :=
  match t with
  | .mem pa pg => noteRead d pa pg src pri
  | .ring tw key => noteRing d tw key src
  | _ => d

/-- What a load's event leaves behind: only a read that the L1 and its peers do not serve reaches the banks. -/
def loadNote (d : Dev) (w : Who) (t : Target) (pri : Nat := 1) : Dev :=
  l1Fill (match l1From d w t with
    | .home => bankNote d t (some w.core) pri
    | _ => d) w t pri

/-- A load's event misses the L1: the line it waits for (R100). -/
def l1Miss (d : Dev) (w : Who) (t : Target) : Option Nat :=
  if t.cached.isNone then none
  else match l1From d w t with
    | .own _ => none
    | _ => t.line

/-- The L1 misses of a core that are outstanding: those whose data is on its way (R100). -/
def missesOut (d : Dev) (core : Nat) : Nat :=
  d.agenda.foldl (fun n e => match e with
    | .loadReturn p => if p.core = core then n + p.misses else n
    | _ => n) 0

end Sys2Proof.Machine
end

