-- ==== Sys2Proof/Machine/Regs.lean ====
section
/-! DEFINITION.  The registers of BAR0 (R413) and the context registers (R421): what a read returns, and
which step a write starts.  The register alias of R414 reaches the same registers. -/

namespace Sys2Proof.Machine

/-! ### Context registers (R87, R302, R382, R391, R393, R421) -/

/-- Bits of a context register that a write keeps; every other bit is reserved or read-only. -/
def ctxMask (n : Nat) : DWord :=
  match n with
  | 0x18 | 0x19 => 0xFFFFFFFFFFFFFFFF
  | 0x2C => 0xFFFF
  | 0x3A => 0xFF03
  | 0x40 => 0xFFFF
  | 0x41 => 0x000FFFFFFFFFF000
  | 0x42 => 0xFFFFFFFFFFF00000
  | 0x44 => 1
  | 0x45 => 7
  | 0x46 | 0x48 => 0xFFFFFFFFFFFFF000
  | 0x47 => 0xFFFFFFFF
  | _ => 0

/-- CSPLIT as a core of tower `t` reads it (R87). -/
def csplitWord (c : Ctx) (t : Nat) : DWord :=
  BitVec.ofNat 64 ((if t = 0 then c.ways0 else c.ways1) + c.ways0 * 256 + c.ways1 * 4096)

/-- A context register by its special-register number. -/
def ctxGet (c : Ctx) (t n : Nat) : DWord :=
  match n with
  | 0x18 => c.trapvec
  | 0x19 => c.emuvec
  | 0x2C => c.dismask
  | 0x3A => c.mxshare
  | 0x40 => c.asid
  | 0x41 => c.ptbase
  | 0x42 => c.privbase
  | 0x43 => csplitWord c t
  | 0x44 => c.ctxcfg
  | 0x45 => c.ctxprio
  | 0x46 => c.savepool
  | 0x47 => c.savecfg
  | 0x48 => c.cvtbase
  | _ => 0

/-- A context register written with its reserved bits cleared; 0x43 is read-only. -/
def ctxSet (c : Ctx) (n : Nat) (v : DWord) : Ctx :=
  let x := v &&& ctxMask n
  match n with
  | 0x18 => { c with trapvec := x }
  | 0x19 => { c with emuvec := x }
  | 0x2C => { c with dismask := x }
  | 0x3A => { c with mxshare := x }
  | 0x40 => { c with asid := x }
  | 0x41 => { c with ptbase := x }
  | 0x42 => { c with privbase := x }
  | 0x44 => { c with ctxcfg := x }
  | 0x45 => { c with ctxprio := x }
  | 0x46 => { c with savepool := x }
  | 0x47 => { c with savecfg := x }
  | 0x48 => { c with cvtbase := x }
  | _ => c

/-- The special-register number behind an offset of a context block (R421). -/
def ctxRegAt (r : Nat) : Option Nat :=
  match r with
  | 0x08 => some 0x40
  | 0x10 => some 0x41
  | 0x18 => some 0x42
  | 0x20 => some 0x43
  | 0x28 => some 0x44
  | 0x30 => some 0x45
  | 0x38 => some 0x46
  | 0x40 => some 0x47
  | 0x48 => some 0x48
  | 0x50 => some 0x3A
  | 0x58 => some 0x18
  | 0x60 => some 0x19
  | 0x68 => some 0x2C
  | _ => none

/-- CTXCTL.IDLE: no group of the context is resident or saved, and no launch of it is held (R421). -/
def ctxIdle (d : Dev) (k : Nat) : Bool :=
  !(d.groups.any (fun p => p.2.ctx == k)) && !(d.saved.any (fun s => s.ctx == k)) &&
    !(d.launches.any (fun p => p.2.ctx == k && !p.2.finished))

/-- The valid context whose ASID is `a`. -/
def ctxOfAsid (d : Dev) (a : Nat) : Option Nat :=
  (List.find? (fun (p : Nat × Ctx) => p.2.valid && p.2.asid.toNat == a) d.ctxs).map (·.1)

/-! ### Logs -/

/-- The status register of a ring log (R390, R428, R440). -/
def Log.status (l : Log) : DWord := BitVec.ofNat 64 (l.head + l.lost * 256)
/-- A dword of an entry. -/
def Log.dword (l : Log) (i w : Nat) : DWord := ((l.entries.get i [])[w]?).getD 0
/-- The log once an entry has been read. -/
def Log.sawRead (l : Log) (i : Nat) : Log := { l with unread := l.unread.filter (fun j => !(j == i)) }
/-- LOST under a W1C write (R13). -/
def Log.clearLost (l : Log) (v : DWord) : Log :=
  { l with lost := (BitVec.ofNat 8 l.lost &&& ~~~(v.extractLsb' 8 8)).toNat }

/-! ### Blocks -/

/-- Dwords of a fault-buffer record (R96). -/
def fbDword (f : FbEntry) (w : Nat) : DWord :=
  match w with
  | 0 => f.va
  | 1 => BitVec.ofNat 64 (f.asid + f.kind * 2 ^ 16 + f.reason * 2 ^ 20 + f.level * 2 ^ 21 + 2 ^ 23 +
      f.src * 2 ^ 24 + f.waiters * 2 ^ 32)
  | 2 => BitVec.ofNat 64 f.ptepa
  | _ => BitVec.ofNat 64 f.stamp

/-- FBSTAT (R97). -/
def fbStat (t : Tower) : DWord :=
  BitVec.ofNat 64 (t.fb.length + b2n (t.fb.length == Config.fbEntries) * 2 ^ 13 + t.fullcnt * 2 ^ 16)

/-- Launches of a tower (R341, R372). -/
def launchesOf (d : Dev) (t : Nat) : Nat := (d.launches.filter (fun p => p.2.towers.testBit t && !p.2.finished)).length

/-- GSTAT (R372). -/
def gstat (d : Dev) (t : Nat) : DWord :=
  let tw := d.tower t
  BitVec.ofNat 64 (launchesOf d t + tw.lastref * 2 ^ 8 + tw.wrerr * 2 ^ 16 + tw.reexec * 2 ^ 32 + tw.succerr * 2 ^ 48)

/-- SQCFG (R418). -/
def sqcfg (q : Queue) : DWord :=
  BitVec.ofNat 64 (q.log2sz + b2n q.enable * 32 + b2n q.remote * 64 + b2n q.error * 128 + q.asid * 65536)

/-- Signed 16-bit code of a temperature (R438). -/
def tempCode (t : Int) : Nat := (t % 65536).toNat

/-- The VF block of a layer, keyed (tower × 32 + column) × 4 + layer code − 3 (R435). -/
def vfBlock (d : Dev) (k : Nat) : VfBlock := d.mgmt.vf.get k {}
/-- VFPTi as written, or the blob's value (R14, R435; log 42). -/
def vfpt (d : Dev) (k i : Nat) : DWord :=
  match (vfBlock d k).pts.find? i with
  | some v => v
  | none => BitVec.ofNat 64 (Config.blobField (k * 16 + i)) &&& 0x0FFF03FF
/-- VFSTAT (R435). -/
def vfstat (v : VfBlock) : DWord := BitVec.ofNat 64 (v.point + v.mv * 16 + v.mhz * 65536 + v.why * 2 ^ 28)

/-- BOOTSTAT (R432). -/
def bootstat (e : Env) (d : Dev) : DWord :=
  BitVec.ofNat 64 (e.step + e.failStep * 16 + b2n e.ready * 256 + b2n e.locked * 512 + d.mgmt.en0 * 2 ^ 32 + d.mgmt.en1 * 2 ^ 40)

/-- TLIMn (R432). -/
def tlim (d : Dev) (n : Nat) : DWord := BitVec.ofNat 64 (d.mgmt.warn.get n 0x02F8 + d.mgmt.crit.get n 0x0348 * 65536)

/-- Dwords of the management block (R432 to R442). -/
def mgmtRead (e : Env) (d : Dev) (o : Nat) : Option DWord :=
  let m := d.mgmt
  if o < 0x1000 then
    match o with
    | 0x0000 => some (bootstat e d)
    | 0x0008 => some (BitVec.ofNat 64 (m.pwrLim + m.curLim * 2 ^ 16 + m.pwrMax * 2 ^ 32))
    | 0x0010 => some (BitVec.ofNat 64 (m.pwr + m.cur * 2 ^ 16 + tempCode m.tmax * 2 ^ 32))
    | 0x0018 => some (m.cmd ||| BitVec.ofNat 64 (m.cmdStatus * 2 ^ 32 + b2n m.busy * 2 ^ 63))
    | _ => if 0x20 ≤ o ∧ o < 0x20 + 8 * 7 then some (tlim d ((o - 0x20) / 8)) else none
  else if o < 0x1020 then some ((m.nonce[(o - 0x1000) / 8]?).getD 0)
  else if o = 0x1020 then some (if m.attBusy then 1 else 0)
  else if o < 0x1040 then none
  else if o < 0x1060 then some (if m.identity then Config.identityKey ((o - 0x1040) / 8) else 0)
  else if o < 0x1100 then none
  else if o < 0x1180 then some ((m.report[(o - 0x1100) / 8]?).getD 0)
  else if o < 0x1180 + 7856 then
    some (if m.signed then Config.signature (m.report.map (·.toNat)) ((o - 0x1180) / 8) else 0)
  else if o < 0x10000 then none
  else if o < 0x20000 then
    let k := (o - 0x10000) / 0x100
    let v := vfBlock d k
    match o % 0x100 with
    | 0x80 => some (BitVec.ofNat 64 (v.ofs + v.pmax * 2 ^ 8 + v.pmin * 2 ^ 12))
    | 0x88 => some (BitVec.ofNat 64 (v.vmax + v.fmax * 2 ^ 16))
    | 0x90 => some (vfstat v)
    | r => if r < 0x80 then some (vfpt d k (r / 8)) else none
  else if o < 0x20000 + 64 * 8 * 8 then
    let k := (o - 0x20000) / 8
    if k % 8 = 7 then none else some (BitVec.ofNat 64 (tempCode (m.temps.get k 0)))
  else if o = 0x30000 then some m.throttle.status
  else if 0x30100 ≤ o ∧ o < 0x30100 + 32 * 64 then some (m.throttle.dword ((o - 0x30100) / 32) (o % 32 / 8))
  else if 0x40000 ≤ o ∧ o < 0x40000 + 0x100 * 64 then
    let k := (o - 0x40000) / 0x100
    let r := o % 0x100
    if r < 0x28 then some (BitVec.ofNat 64 (m.gddr.get (k * 8 + r / 8) 0))
    else if 0x40 ≤ r ∧ r < 0x40 + 0x20 * 5 ∧ r % 0x20 < 0x18 then
      some (((m.gddrSnap.get (k * 8 + (r - 0x40) / 0x20) [])[r % 0x20 / 8]?).getD 0)
    else none
  else if 0x50000 ≤ o ∧ o < 0x50000 + 0x40 * 64 then
    let k := (o - 0x50000) / 0x40
    match o % 0x40 with
    | 0x00 => some (BitVec.ofNat 64 (m.sruns.get k 0 + m.sskips.get k 0 * 2 ^ 32))
    | 0x08 => some (BitVec.ofNat 64 (m.sva.get k 0 + m.svb.get k 0 * 2 ^ 16 + m.smx.get k 0 * 2 ^ 32))
    | 0x10 => some (((m.slast.get k [])[0]?).getD 0)
    | 0x18 => some (((m.slast.get k [])[1]?).getD 0)
    | _ => none
  else none

/-- A 64-bit register at an 8-byte aligned BAR0 offset; none where no block assigns one (R413, R417). -/
def regRead (e : Env) (d : Dev) (o : Nat) : Option DWord :=
  if o = 0x08 then some 0x01000101
  else if o = 0x10 then some (BitVec.ofNat 64 (e.proto + b2n e.attached * 256))
  else if o < 0x100000 then none
  else if o < 0x101000 then
    let q := d.queue ((o - 0x100000) / 0x40)
    match o % 0x40 with
    | 0x00 => some q.sqbase
    | 0x08 => some (sqcfg q)
    | 0x10 => some (BitVec.ofNat 64 (q.sqhead * 2 ^ 32))
    | 0x18 => some q.cqbase
    | 0x20 => some (BitVec.ofNat 64 (q.cqhead + q.cqtail * 2 ^ 32))
    | _ => none
  else if o < 0x200000 then none
  else if o = 0x200000 then some d.linkLog.status
  else if 0x200100 ≤ o ∧ o < 0x200100 + 32 * 32 then some (d.linkLog.dword ((o - 0x200100) / 32) (o % 32 / 8))
  else if o < 0x201000 then none
  else if o < 0x201400 then
    let h := d.head ((o - 0x201000) / 0x100)
    match o % 0x100 with
    | 0x00 => some h.surf
    | 0x08 => some h.pend
    | 0x10 => some h.hcfg
    | 0x18 => some (BitVec.ofNat 64 (h.flips + h.drops * 2 ^ 32))
    | _ => none
  else if o < 0x300000 then none
  else if o < 0x310000 then
    let k := (o - 0x300000) / 0x100
    let c := d.ctx k
    match o % 0x100 with
    | 0x00 => some (BitVec.ofNat 64 (b2n c.valid + b2n c.sys * 2 + b2n (ctxIdle d k) * 4))
    | 0x70 => some c.ctxst
    | r => (ctxRegAt r).map (fun n => ctxGet c 0 n)
  else if o < 0x1000000 then none
  else if o < 0x1080000 then
    let t := (o - 0x1000000) / 0x40000
    let r := o % 0x40000
    if r = 0 then some (fbStat (d.tower t))
    else if r = 8 then some 0
    else if 0x1000 ≤ r ∧ r < 0x1000 + 32 * 4096 then
      some (match (d.tower t).fb.find? ((r - 0x1000) / 32) with
        | some f => fbDword f (r % 32 / 8)
        | none => 0)
    else if 0x30000 ≤ r ∧ r < 0x30000 + 16 * 64 then
      some (match (d.tower t).lost.find? ((r - 0x30000) / 16) with
        | some x => if r % 16 = 0 then BitVec.ofNat 64 (1 + x.src * 2 + x.line * 128) else BitVec.ofNat 64 x.stamp
        | none => 0)
    else none
  else if o < 0x1800000 then none
  else if o < 0x1880000 then
    let t := (o - 0x1800000) / 0x40000
    if o % 0x40000 = 0 then some (gstat d t)
    else if o % 0x40000 = 8 then some (d.tower t).gerrva
    else none
  else if o < 0x1C00000 then none
  else if o < 0x1C80000 then
    let t := (o - 0x1C00000) / 0x40000
    let r := o % 0x40000
    if r = 0 then some (d.tower t).trapLog.status
    else if 0x1000 ≤ r ∧ r < 0x1000 + 64 * 64 then
      some ((d.tower t).trapLog.dword ((r - 0x1000) / 64) (r % 64 / 8))
    else none
  else if o < 0x2000000 then none
  else if o < 0x3000000 then mgmtRead e d (o - 0x2000000)
  else if 0x3FF0000 ≤ o ∧ o < 0x3FF0000 + 16 * 72 then
    let (a, c) := d.msix.table.get ((o - 0x3FF0000) / 16) (0, 0x100000000)
    some (if o % 16 = 0 then a else c)
  else if o = 0x3FF8000 ∨ o = 0x3FF8008 then
    let base := if o = 0x3FF8000 then 0 else 64
    some (BitVec.ofNat 64 (d.msix.pending.foldl (fun x v => if base ≤ v ∧ v < base + 64 then x + 2 ^ (v - base) else x) 0))
  else none

/-- A read of `n` bytes within one register. -/
def regReadN (e : Env) (d : Dev) (o n : Nat) : Option Nat :=
  (regRead e d (o / 8 * 8)).map (fun v => v.toNat / 2 ^ (8 * (o % 8)) % 2 ^ (8 * n))

/-- A register whose read clears it, with the event that reads it (R13): heads, GDDR 7 counters and
sentinel counters. -/
def regClears (o : Nat) (p : Ev.ReadClear) : Option Ev.Event :=
  let r := o / 8 * 8
  if 0x201000 ≤ r ∧ r < 0x201400 ∧ r % 0x100 = 0x18 then
    some (.flipsRead { p with idx := (r - 0x201000) / 0x100, off := 0x18 })
  else if 0x2040000 ≤ r ∧ r < 0x2044000 ∧ r % 0x100 < 0x28 then
    some (.gddrCounterRead { p with idx := (r - 0x2040000) / 0x100, off := r % 0x100 })
  else if 0x2050000 ≤ r ∧ r < 0x2051000 ∧ r % 0x40 < 0x10 then
    some (.sentinelCounterRead { p with idx := (r - 0x2050000) / 0x40, off := r % 0x40 })
  else none

/-- The step that a write of a register starts (R13, R418, R421, R97, R106, R432, R433). -/
def regWriteStep (o n : Nat) (v : DWord) (host : Bool) : Ev.Event :=
  let r := o / 8 * 8
  let w := v.toNat * 2 ^ (8 * (o % 8)) % 2 ^ 64
  let generic : Ev.Event := .registerWrite { off := o, value := v, size := n, host := host }
  if r = 0x10 then .attachWrite { idx := o, value := v, size := n }
  else if 0x100000 ≤ r ∧ r < 0x101000 ∧ r % 0x40 = 0x10 ∧ o % 8 < 4 then
    .sqDoorbell { idx := (r - 0x100000) / 0x40, value := BitVec.ofNat 64 (w % 2 ^ 32), size := n }
  else if 0x300000 ≤ r ∧ r < 0x310000 ∧ r % 0x100 = 0x20 ∧ o % 8 = 0 then
    .ctxCsplitWrite { idx := (r - 0x300000) / 0x100, value := BitVec.ofNat 64 w, size := n }
  else if 0x1000000 ≤ r ∧ r < 0x1080000 ∧ r % 0x40000 = 8 then
    let t := (r - 0x1000000) / 0x40000
    if w.testBit 17 then .fbAbort { tower := t, index := w % 4096, all := w.testBit 16 }
    else if w.testBit 16 then .fbReleaseAll { tower := t }
    else .fbRelease { tower := t, index := w % 4096 }
  else if 0x1000000 ≤ r ∧ r < 0x1080000 ∧ 0x30000 ≤ r % 0x40000 ∧ r % 0x40000 < 0x30400 ∧ r % 16 = 0 ∧ w % 2 = 1 then
    .lostLineEntryClear { tower := (r - 0x1000000) / 0x40000, index := (r % 0x40000 - 0x30000) / 16 }
  else if r = 0x2000018 ∧ o % 8 = 0 ∧ 4 ≤ n then
    let m : Ev.MgOp := { tower := w / 2 ^ 13 % 2, layer := w / 2 ^ 16 % 8, column := w / 2 ^ 8 % 32 }
    match w % 8 with
    | 1 => .mgcmdGate m
    | 2 => .mgcmdUngate m
    | 3 => .mgcmdRetireBus m
    | 4 => .mgcmdShutdownLayer m
    | _ => generic
  else if r = 0x2001020 ∧ o % 8 = 0 ∧ w % 2 = 1 then .attestationRequest
  else generic

/-- Marks a log entry read when a dword of it is read (R390). -/
def regSawRead (d : Dev) (o : Nat) : Dev :=
  let r := o / 8 * 8
  if 0x200100 ≤ r ∧ r < 0x200500 then { d with linkLog := d.linkLog.sawRead ((r - 0x200100) / 32) }
  else if 0x1C00000 ≤ r ∧ r < 0x1C80000 ∧ 0x1000 ≤ r % 0x40000 ∧ r % 0x40000 < 0x2000 then
    d.modTower ((r - 0x1C00000) / 0x40000) (fun t => { t with trapLog := t.trapLog.sawRead ((r % 0x40000 - 0x1000) / 64) })
  else if 0x2030100 ≤ r ∧ r < 0x2030900 then
    d.modMgmt (fun m => { m with throttle := m.throttle.sawRead ((r - 0x2030100) / 32) })
  else d

end Sys2Proof.Machine
end

