-- ==== Sys2Proof/Machine/Access.lean ====
section
/-! DEFINITION.  Accesses of a word to memory: their checks over every lane (R94, R238), and what a
load, a store and an atomic perform (R131, R136, R240, R247). -/

namespace Sys2Proof.Machine

/-- One access of a lane: `total` bytes at `va`, or at a scratch offset for a scratch form. -/
structure Acc where
  lane : Nat
  va : DWord
  total : Nat
  /-- Offset of a scratch form (format MS), without wrap. -/
  scr : Option Nat := none
  /-- The lower event has performed before a save (PIDX.HALF, R392). -/
  half : Bool := false
  /-- Replacement priority of its line: 0 stream, 1 normal, 2 keep (R235). -/
  pri : Nat := 1
  deriving DecidableEq, Repr

/-- The events of an access: offset and size (R124). -/
def Acc.parts (a : Acc) : List (Nat × Nat) :=
  if a.total ≤ 8 then [(0, a.total)]
  else ((List.range (a.total / 8)).map (fun i => (8 * i, 8))).drop (b2n a.half)

/-- Log2 of the required alignment (R237). -/
def Acc.logAlign (a : Acc) : Nat := Nat.log2 (min a.total 8)

/-- The accessor of the issue in progress. -/
def Dev.who (d : Dev) : Who := { gid := d.cur.gid, ctx := d.curGrp.ctx, core := d.cur.core }

/-- The target of one event of an access. -/
def accTarget (d : Dev) (w : Who) (k : AKind) (a : Acc) (p : Nat × Nat) : Except MErr (Target × List ADSet) :=
  match a.scr with
  | some o => if o + a.total > (d.grp w.gid).shape.scratch then .error (.prot 4) else .ok (.scr (o + p.1), [])
  | none => resolve d w a.va a.total p.1 p.2 k (d.opt 1)

/-- The replacement priority that an H field asks for (R235). -/
def hintPri (h : BitVec 2) : Nat := if h = 1 then 0 else if h = 2 then 2 else 1

/-- What an access still has to perform: its events with the targets found for them (R94). -/
abbrev APlan := List ((Nat × Nat) × Target × List ADSet)

/-- The plan of an access. -/
def accPlan (d : Dev) (w : Who) (k : AKind) (a : Acc) : APlan :=
  a.parts.filterMap (fun p => match accTarget d w k a p with
    | .ok (t, ads) => some (p, t, ads)
    | .error _ => none)

/-- A register access that no register answers, or an atomic on a register (R414; log 46). -/
def regErr (e : Env) (d : Dev) (k : AKind) (t : Target) (n : Nat) : Option MErr :=
  match t with
  | .reg o => if k = .atomic ∨ (regReadN e d o n).isNone then some (.data 5 (0xFFF0000000000 + o)) else none
  | _ => none

/-- A store never raises MEM_DATA (R241, R260; log 11). -/
def storeErr (k : AKind) (x : MErr) : Option MErr :=
  match x with
  | .data _ _ => if k = .write then none else some x
  | _ => some x

/-- The errors of an access, in the order of R73 and R238: alignment, or each event's own. -/
def accErrs (e : Env) (d : Dev) (w : Who) (k : AKind) (a : Acc) : List MErr :=
  let at_ := match a.scr with
    | some o => o
    | none => a.va.toNat
  if at_ % 2 ^ a.logAlign ≠ 0 then [.align a.logAlign]
  else a.parts.filterMap (fun p =>
    match accTarget d w k a p with
    | .error x => storeErr k x
    | .ok (t, _) =>
      match targetErr d k t with
      | some x => storeErr k x
      | none => (regErr e d k t p.2).bind (storeErr k))

/-- The physical address of a failed access, for the logs. -/
def MErr.pa : MErr → Nat
  | .data _ pa => pa
  | .unlogged pa => pa
  | .link pa => pa
  | _ => 0

/-- What the accesses of a word raise: the delivered fault of the lowest lane; otherwise the pages on
which the batch parks (R94, R238). -/
def raiseOf (d : Dev) (kind : Nat) (fs : List (Acc × MErr)) : Option Raise :=
  let replay := d.curCtx.ctxcfg.getLsbD 0
  let delivered (x : MErr) : Bool := x != .moving && !(replay && x.replayable.isSome)
  match fs.find? (fun p => delivered p.2) with
  | some (a, x) =>
    let va := match a.scr with
      | some o => BitVec.ofNat 64 o
      | none => a.va
    let (c, d0, d1, d2) := x.cause a.lane kind va
    some (.cause 5 c d0 d1 d2 d.cur.word x.pa)
  | none =>
    if fs.isEmpty then none
    else if fs.any (fun p => p.2 == .moving) then some .hold
    else some (.replay (fs.filterMap (fun p => p.2.replayable.map (fun (va, r, l, pte) =>
      let at_ := match p.1.scr with
        | some o => BitVec.ofNat 64 o
        | none => p.1.va
      let (c, d0, d1, d2) := p.2.cause p.1.lane kind at_
      ⟨va, kind, r, l, pte, c, d0, d1, d2⟩))))

/-- The L1 misses of a word's loads: one for each line (R100). -/
def missLines (d : Dev) (as : List Acc) : List Nat :=
  (as.flatMap (fun a => (accPlan d d.who .read a).filterMap (fun x => l1Miss d d.who x.2.1))).eraseDups

/-- A miss that finds all 320 trackers of the core in use holds the batch (R100). -/
def missHold (d : Dev) (n : Nat) : Option Raise := if 320 < missesOut d d.cur.core + n then some .hold else none

/-- The checks of a word's accesses (R238), and for a read a tracker for each miss (R100). -/
def memCheck (e : Env) (d : Dev) (k : AKind) (as : List Acc) : Option Raise :=
  match raiseOf d k.code (as.flatMap (fun a => (accErrs e d d.who k a).map (fun x => (a, x)))) with
  | some r => some r
  | none => if k = .read then missHold d (missLines d as).length else none

/-! ### Loads -/

/-- One event of a load: the value; a register that a read clears answers in a step of its own (R13). -/
def readPart (e : Env) (d : Dev) (w : Who) (a : Acc) (x : (Nat × Nat) × Target × List ADSet) : Dev × Nat × Option Nat :=
  let (p, t, ads) := x
  let d := touch d w.ctx ads
  match t with
  | .reg o =>
    if (regClears o { idx := 0, off := 0 }).isSome then (d, 0, some o)
    else (regSawRead d o, (regReadN e d o p.2).getD 0, none)
  | _ => (loadNote d w t a.pri, loadValue d w t p.2, none)

/-- A load's value, its events in ascending order, and the events that a register read clears: their
offset and size in the access, and the register's offset. -/
def readPlan (e : Env) (d : Dev) (w : Who) (a : Acc) (ps : APlan) : Dev × Nat × List (Nat × Nat × Nat) :=
  ps.foldl (fun acc x =>
    let (d, v, r) := acc
    let (d, y, o) := readPart e d w a x
    (d, v + y * 2 ^ (8 * x.1.1), match o with
      | some o => r ++ [(x.1.1, x.1.2, o)]
      | none => r)) (d, 0, [])

/-- A load whose targets are those that its word's checks found, in the state `d0` (R94). -/
def readAcc (e : Env) (d0 d : Dev) (w : Who) (a : Acc) : Dev × Nat × List (Nat × Nat × Nat) :=
  readPlan e d w a (accPlan d0 w .read a)

/-- A read whose value the word itself uses: a register that the read clears answers now, and its clearing is a step
with no destination (R13). -/
def readNow (e : Env) (d0 d : Dev) (a : Acc) : Dev × Nat :=
  let (d1, v, rc) := readAcc e d0 d d0.who a
  rc.foldl (fun (x : Dev × Nat) y =>
    (match regClears y.2.2 { idx := 0, off := 0, lo := 8 * (y.2.2 % 8), bits := 8 * y.2.1 } with
      | some ev => x.1.post ev
      | none => x.1, x.2 + (regReadN e d0 y.2.2 y.2.1).getD 0 * 2 ^ (8 * y.1))) (d1, v)

/-! ### Bind slots (R403) -/

/-- The code-version table of a context: entry address and ID, where its STATE is not 0 (R401). -/
def cvtFind (d : Dev) (ctx id : Nat) : Option Nat :=
  let base := fieldN (d.ctx ctx).cvtbase 12 52 * 4096
  if base = 0 then none
  else ((List.range 64).map (fun i => base + 64 * i)).find? (fun a =>
    d.mem.readN a 4 == id && d.mem.readN (a + 4) 4 % 4 != 0)

/-- The address is the STATE word of a bind slot of the group's code version. -/
def isBindSlot (d : Dev) (gid : Nat) (va : DWord) : Bool :=
  let g := d.grp gid
  match cvtFind d g.ctx g.task.codever with
  | none => false
  | some a =>
    let base := d.mem.readN (a + 40) 8
    decide (base ≤ va.toNat ∧ va.toNat < base + 16 * d.mem.readN (a + 48) 4) && (va.toNat - base) % 16 == 0

/-- The frame of a lane's bind wait: what the lane receives if its entry is aborted (R403). -/
def isBindFrame (slot lane : Nat) (h : Halt) : Bool := h.bind && h.oslot == slot && h.olanes == 1#32 <<< lane
def bindFrame (g : Group) (slot lane : Nat) : Option Halt :=
  (g.waits.find? (fun w => isBindFrame slot lane w.2.2)).map (·.2.2)
/-- The lane's bind wait is over. -/
def bindClear (d : Dev) (gid slot lane : Nat) : Dev :=
  d.modGrp gid (fun g => { g with waits := g.waits.filter (fun w => !isBindFrame slot lane w.2.2) })

/-- A lane waits on an entry of the fault buffer that an access of its `ALD.32` has joined or created, or, under
the number past the last, for any release of the tower's (R95); `fr` is what it receives if the entry is aborted. -/
def bindWait (d : Dev) (core slot lane : Nat) (va : DWord) (reg order : Nat) (fr : Option Halt) (r : Option Nat) : Dev :=
  let gid := (d.warp core slot).gid
  let t := core / 64
  let k := r.getD Config.fbEntries
  let d := match fr with
    | some h => (bindClear d gid slot lane).modGrp gid (fun g => { g with waits := g.waits ++ [(t, k, { h with bind := true })] })
    | none => d
  d.modWarp core slot (fun w => w.modFibre lane (fun f => { f with park := .bind t k va reg order }))

/-- A lane waits for a bind slot, whose state word lies at `pa` (R403); `n` is 1 for the first lane of its batch that
waits for the slot, since WAITERS counts batches (R96). -/
def bindPark (e : Env) (d : Dev) (core slot lane : Nat) (va : DWord) (pa reg order : Nat) (fr : Option Halt) (n : Nat) : Dev :=
  let w := d.warp core slot
  let g := d.grp w.gid
  let c := d.ctx g.ctx
  let (d, r) := fbJoin e d (core / 64) va (c.asid.toNat % 65536) 6 0 0 pa core n
  bindWait d core slot lane va reg order
    (fr.map (fun h => { h with cause := .bind, d0 := 2, d1 := (loWord va).toNat, d2 := (hiWord va).toNat })) r

/-- The lanes of every warp that wait on an entry of a fault buffer for a bind slot. -/
def bindWaiters (d : Dev) (t k : Nat) : List (Nat × Nat × Nat × DWord × Nat × Nat) :=
  d.warps.flatMap (fun p => p.2.fib.filterMap (fun q =>
    match q.2.park with
    | .bind t' k' va reg order =>
      if t' = t ∧ k' = k then some (p.1 / 64, p.1 % 64, q.1, va, reg, order) else none
    | _ => none))

/-- A lane's repeated `ALD.32` has read its value (R136). -/
def bindDone (d : Dev) (core slot lane reg v : Nat) : Dev :=
  let d := bindClear d (d.warp core slot).gid slot lane
  l1DropWr (d.modWarp core slot (fun w =>
    (w.setPhys reg lane (BitVec.ofNat 32 v)).modFibre lane (fun f => { f with park := .running, age := 0 }))) core

/-- A lane's repeated `ALD.32` meets an error (R93, R98): its page's entry, or its delivered cause. -/
def bindFails (e : Env) (d : Dev) (core slot lane : Nat) (va : DWord) (reg order n : Nat) (y : MErr) : Dev :=
  let w := d.warp core slot
  let g := d.grp w.gid
  let fr := bindFrame g slot lane
  let (c, d0, d1, d2) := y.cause lane 0 va
  let fr' := fr.map (fun h => { h with cause := c, d0 := d0, d1 := d1, d2 := d2 })
  if y = .moving then bindWait d core slot lane va reg order fr none
  else match (if (d.ctx g.ctx).ctxcfg.getLsbD 0 then y.replayable else none) with
    | some (tva, reason, level, pte) =>
      let (d, r) := fbJoin e d (core / 64) (BitVec.ofNat 64 tva) ((d.ctx g.ctx).asid.toNat % 65536) 0 reason level pte core n
      bindWait d core slot lane va reg order fr' r
    | none =>
      let d := bindClear (noteErr e d g.ctx y) w.gid slot lane
      let d := d.modGrp w.gid (fun g => { g with owed := g.owed ++ (fr'.map (fun h => { h with bind := false })).toList })
      d.modWarp core slot (fun w => w.modFibre lane (fun f => { f with park := .halted }))

/-- The waiters of a released entry perform their `ALD.32` again, as any load does (R98, R403): a lane that reads BINDING
again, or whose access faults again, takes a new entry; one whose fault is delivered receives its cause. -/
def bindRetry (e : Env) (d : Dev) (ws : List (Nat × Nat × Nat × DWord × Nat × Nat)) : Dev :=
  (ws.foldl (fun (acc : Dev × List (Nat × DWord × DWord)) x =>
    let (d, seen) := acc
    let (core, slot, lane, va, reg, order) := x
    let w := d.warp core slot
    let g := d.grp w.gid
    let who : Who := { gid := w.gid, ctx := g.ctx, core := core }
    let me := (wkey core slot, (w.fibre lane).pc, va)
    let n := if seen.contains me then 0 else 1
    let r : Except MErr (Target × List ADSet) := match resolve d who va 4 0 4 .read (d.opt 1) with
      | .error y => .error y
      | .ok (t, ads) => match (targetErr d .read t).or (regErr e d .read t 4) with
        | some y => .error y
        | none => .ok (t, ads)
    match r with
    | .error y => (bindFails e d core slot lane va reg order n y, seen ++ [me])
    | .ok (t, ads) =>
      let d := touch d g.ctx ads
      match t with
      | .reg o =>
        let d := match regClears o { idx := 0, off := 0, lo := 8 * (o % 8), bits := 32 } with
          | some ev => d.post ev
          | none => regSawRead d o
        (bindDone d core slot lane reg ((regReadN e d o 4).getD 0), seen)
      | _ =>
        let d := bankNote (l1Lose d core t) t (some core)
        let v := tgtRead d w.gid t 4
        if v = 1 ∧ isBindSlot d w.gid va = true ∧ t.line.isSome = true then
          (bindPark e d core slot lane va t.byte reg order (bindFrame g slot lane) n, seen ++ [me])
        else (bindDone d core slot lane reg v, seen)) (d, [])).1

/-- Any write to a bind slot's state word releases its entry (R403). -/
def bindWake (e : Env) (d : Dev) (pa n : Nat) : Dev :=
  (List.range 2).foldl (fun d t =>
    let hits := (d.tower t).fb.filter (fun p => p.2.kind == 6 && decide (p.2.ptepa < pa + n ∧ pa < p.2.ptepa + 4))
    hits.foldl (fun d p =>
      let ws := bindWaiters d t p.1 ++ bindWaiters d t Config.fbEntries
      bindRetry e (d.modTower t (fun x => { x with fb := x.fb.erase p.1 })) ws) d) d

/-! ### Writes -/

/-- A write of physical memory by anyone, with the bind slots it may release. -/
def memWrite (e : Env) (d : Dev) (pa n v : Nat) (pg : Page) (src : Option Nat := none) (pri : Nat := 1) : Dev :=
  bindWake e (physWrite d pa n v pg src pri) pa n

/-- A byte range of a tower's scratch ways written. -/
def ringWrite (d : Dev) (t key n v : Nat) : Dev :=
  d.modTower t (fun x => { x with ringMem := x.ringMem.writeN key n v })

/-- A write of a resolved target by a core (R136); the core keeps its own copy current, or drops it.  A register's
own step follows within the step of the word (R414; log 46). -/
def tgtWrite (e : Env) (d : Dev) (w : Who) (t : Target) (n v : Nat) (drop : Bool) (pri : Nat := 1) : Dev :=
  match t with
  | .scr o => scrWrite d w.gid o n v
  | .mem pa pg => memWrite e (if drop then l1Lose d w.core t else l1Store d w.core t n v pri) pa n v pg (some w.core) pri
  | .ring tw key => noteRing (ringWrite (if drop then l1Lose d w.core t else l1Store d w.core t n v pri) tw key n v) tw key (some w.core)
  | .reg o => if (regReadN e d o n).isSome then d.post (regWriteStep o n (BitVec.ofNat 64 v) false) else d
  | .fail _ _ => d

/-- A store's events in ascending order. -/
def writePlan (e : Env) (d : Dev) (w : Who) (a : Acc) (ps : APlan) (v : Nat) (drop : Bool) : Dev :=
  ps.foldl (fun d x =>
    tgtWrite e (touch d w.ctx x.2.2) w x.2.1 x.1.2
      (v / 2 ^ (8 * x.1.1) % 2 ^ (8 * x.1.2)) drop a.pri) d

/-- The events of a store, or of an atomic that returns nothing, that reach no memory: they are dropped, with the
entry of the log that names the address (R105, R241, R249, R414; log 11). -/
def lostParts (e : Env) (d0 d : Dev) (w : Who) (k : AKind) (a : Acc) : Dev :=
  a.parts.foldl (fun d p => match accTarget d0 w k a p with
    | .error x => noteErr e d w.ctx x
    | .ok _ => d) d

/-- A store whose targets are those that its word's checks found, in the state `d0` (R94). -/
def writeAcc (e : Env) (d0 d : Dev) (w : Who) (a : Acc) (v : Nat) (drop : Bool) : Dev :=
  writePlan e (lostParts e d0 d w .write a) w a (accPlan d0 w .write a) v drop

/-! ### Results that return -/

/-- The registers of a lane that a word of the issue in progress writes: register × 32 + lane. -/
def Dev.dest (d : Dev) (field j lane : Nat) : Nat := (d.cur.base * 16 + field + j) * 32 + lane

/-- The lanes of the batch that Z clears: their registers hold 0 with the result (R185). -/
def zeroed (d : Dev) (field k : Nat) : List (Nat × Word) :=
  if d.zeroing then
    (lanesOf (d.cur.lanes &&& ~~~d.active)).flatMap (fun l => (List.range k).map (fun j => (d.dest field j l, 0)))
  else []

/-- Data on its way to vector registers (R158, R240). -/
def postVec (d : Dev) (vec : List (Nat × Word)) (misses : Nat := 0) (due : Nat := 0) : Dev :=
  if vec.isEmpty then d
  else d.post (.loadReturn { core := d.cur.core, slot := d.cur.slot, vec := vec, misses := misses, due := due })

/-- Data on its way to a scalar register. -/
def postSca (d : Dev) (n : Nat) (v : DWord) (misses : Nat := 0) (due : Nat := 0) : Dev :=
  d.post (.loadReturn { core := d.cur.core, slot := d.cur.slot, sca := [(n, v)], misses := misses, due := due })

/-- The first cycle in which the data of some accesses may land: the sixth after the issue where one of them is in
the scratch window (R261). -/
def dueAt (d : Dev) (as : List Acc) : Nat :=
  if as.any (fun a => a.scr.isSome || windowOf a.va.toNat == 1) then d.clk d.cur.core + 6 else 0

/-- A word of a value. -/
def wordOf (v j : Nat) : Word := BitVec.ofNat 32 (v / 2 ^ (32 * j))

/-! ### Acquires and releases -/

/-- The group is in a gang of more than one core (R136). -/
def ganged (d : Dev) : Bool := decide (d.curGrp.gang.length > 1)

/-- The join of the group's engine operations on its core (R136, R142). -/
def joinedOps (d : Dev) (gid : Nat) : Dev :=
  let g := d.grp gid
  if g.wrote then (l1DropWr d g.core).modGrp gid (fun g => { g with wrote := false }) else d

/-- An acquire at a scope has performed on the issuing core (R136); at GRP scope it also is what joins the group's
engine operations that wrote memory (R142). -/
def acquired (d : Dev) (scope : Nat) : Dev :=
  if scope ≥ 2 ∨ scope = 1 ∧ ganged d then l1DropWr d d.cur.core else if scope = 1 then joinedOps d d.cur.gid else d

end Sys2Proof.Machine
end

