-- ==== Sys2Proof/Machine/Copy.lean ====
section
/-! DEFINITION.  The copy engine: the commands of XCMD engine 0, and the steps of its operations (R265 to
R284, R449). -/

namespace Sys2Proof.Machine

/-! ### Replies -/

/-- A command's reply on its way to s[dst]; s0 asks for none. -/
def postReply (d : Dev) (eng dst : Nat) (v : DWord) : Dev :=
  if dst = 0 then d
  else d.post (.commandReply { core := d.cur.core, slot := d.cur.slot, gid := d.cur.gid, d := dst, value := v, eng := eng })

/-- Bytes a member has received (R278). -/
def delivered (d : Dev) (o : CopyOp) (m : CMember) : Nat :=
  m.arrived.foldl (fun n k => n + (match chunkAt d o k with
    | some (_, _, len) => len
    | none => 0)) 0

/-- The status word (R278). -/
def copyStatus (d : Dev) (o : CopyOp) : DWord :=
  let live := o.members.filter (fun m => !m.dropped)
  let del := match live.map (delivered d o) with
    | [] => 0
    | x :: r => r.foldl min x
  BitVec.ofNat 64 (o.state.code + (if o.settling then 0 else o.reason) * 16 + del * 2 ^ 8 + o.shape.total * 2 ^ 36)

/-! ### Commands -/

/-- Accessor of an operation's far side. -/
def CopyOp.who (o : CopyOp) (core : Nat) : Who := { gid := o.gid, ctx := o.ctx, core := core }

/-- Rank of R85 of a transient error. -/
def transRank : MErr → Nat
  | .prot 7 => 1
  | .graph 6 _ => 2
  | .graph 1 _ => 3
  | .graph 7 _ => 4
  | .prot 4 => 5
  | .graph 4 _ => 6
  | .graph 3 _ => 7
  | .graph 5 _ => 8
  | .graph 2 _ => 9
  | _ => 10

/-- R85 over the far-side extent of a `CRING`: the error of the lowest rank, with its row's address. -/
def ringErr (d : Dev) (o : CopyOp) (core : Nat) : Option (MErr × DWord) :=
  let k : AKind := if o.puts then .write else .read
  let es := (List.range (o.shape.count1 * o.shape.count2)).filterMap (fun r =>
    let va := rowFar d o (r % o.shape.count1) (r / o.shape.count1)
    match transTarget d (o.who core) va o.shape.row o.shape.row k 0 with
    | .error x => if transRank x < 10 then some (x, va) else none
    | .ok _ => none)
  es.foldl (fun best x => match best with
    | some b => if transRank x.1 < transRank b.1 then some x else best
    | none => some x) none

/-- ENGINE_COPY with its detail (R381). -/
def engineCopy (d : Dev) (reason func : Nat) (v : DWord) : Raise :=
  own d .engineCopy (reason + func * 2 ^ 8) (loWord v).toNat (hiWord v).toNat

/-- A group has ended (R154). -/
def hasEnded (d : Dev) (gid : Nat) : Bool :=
  match d.groups.find? gid with
  | some g => g.ended
  | none => !d.saved.any (fun s => s.gid == gid)

/-- The operation that a transfer command asks for; a member of the mask that has ended is no part of it (R449). -/
def copyOp (d : Dev) (func : Nat) (far xfer : DWord) (sh : CShape) : CopyOp :=
  let g := d.curGrp
  let self : CMember := { gid := d.cur.gid, gidx := g.gidx }
  { gid := d.cur.gid, ctx := g.ctx, func := func, far := far, xfer := xfer, shape := sh, gen := 0, state := .queued
    members := if func = 4 then
        g.gang.zipIdx.filterMap (fun p => if xfer.getLsbD (43 + p.2) then some { gid := p.1, gidx := p.2, dropped := hasEnded d p.1 } else none) ++
          (if g.gang.isEmpty && xfer.getLsbD 43 then [self] else [])
      else [self] }

/-- The lowest reason of R270 that a transfer command meets. -/
def copyReason (d : Dev) (func : Nat) (far x : DWord) : Option Nat :=
  let g := d.curGrp
  let size := g.shape.scratch
  match g.cshapes.find? (xSlot x) with
  | none => some 1
  | some s =>
    let fin := scrEnd s (xSoff x)
    let a := xAoff x
    let zeros : Bool :=
      fieldN x 62 2 == 0 &&
      (match func with
        | 3 => true
        | 4 => fieldN x 51 11 == 0
        | 5 => fieldN x 44 18 == 0
        | _ => xXoff x == 0)
    let scopeOk := decide (1 ≤ xScope x ∧ xScope x ≤ 5)
    let trans := windowOf far.toNat == 3
    if fin > size ∨ a + 8 > size ∨ (func = 3 ∧ xXoff x + 4 * s.count1 > size) then some 2
    else if xSoff x < a + 8 ∧ a < fin then some 3
    else if a % 8 ≠ 0 ∨ (func = 3 ∧ xXoff x % 4 ≠ 0) then some 4
    else if !zeros || !scopeOk || (func == 3 && s.count2 != 1) || (trans != (func == 5)) then some 5
    else if func = 4 ∧ (fieldN x 43 8 = 0 ∨ fieldN x 43 8 ≥ 2 ^ max 1 g.gang.length) then some 7
    else none

/-- Entries of a group in any state but DONE, and the entry a transfer takes: the lowest that is free or
DONE (log 49). -/
def copyFree (d : Dev) : Option Nat :=
  let cs := (d.core d.cur.core).copies
  let held := (cs.filter (fun p => p.2.gid == d.cur.gid && p.2.state != .done)).length
  if held ≥ 16 then none
  else (List.range 64).find? (fun k => match cs.find? k with
    | some o => o.state == .done
    | none => true)

/-- The checks of a transfer command, then the wait for an entry (R270, R271). -/
def copyCheck (func : Nat) (f : FmtX) (d : Dev) : Option Raise :=
  let far := d.sr (reg f.a)
  let x := d.sr (reg f.b)
  match copyReason d func far x with
  | some r => some (engineCopy d r func x)
  | none =>
    let o := copyOp d func far x (d.curGrp.cshapes.get (xSlot x) (shapeOf 0))
    match (if func = 5 then ringErr d o d.cur.core else none) with
    | some (err, va) =>
      let (c, d0, d1, d2) := err.cause 0 (b2n o.puts) va
      some (own d c d0 d1 d2)
    | none => if (copyFree d).isNone then some .hold else none

/-- A transfer is accepted: an entry is taken and its handle returned (R271). -/
def copyAccept (func : Nat) (f : FmtX) (d : Dev) : Dev :=
  match copyFree d with
  | none => d
  | some k =>
    let x := d.sr (reg f.b)
    let gen := ((d.core d.cur.core).copyGen.get k 0 + 1) % 256
    let o := copyOp d func (d.sr (reg f.a)) x (d.curGrp.cshapes.get (xSlot x) (shapeOf 0))
    let d1 := d.modCore d.cur.core (fun c => { c with
      copies := c.copies.set k { o with gen := gen, state := if o.members.all (·.dropped) then .done else .queued }, copyGen := c.copyGen.set k gen })
    postReply d1 0 (reg f.d) (BitVec.ofNat 64 (k + gen * 64 + 2 ^ 14))

/-- A transfer command. -/
def copyWord (p : Props) (func : Nat) (f : FmtX) : Op :=
  word p (fun _ d => copyCheck func f d) (fun _ d => copyAccept func f d)

/-- `CSHAPE`. -/
def execCshape (f : FmtX) (s : State) : Host.Outcome State Fault Refusal :=
  s.run (word (Instr.cshape f).props
    (fun _ d =>
      let a := d.sr (reg f.a)
      let b := d.sr (reg f.b)
      let off := fieldN a 0 19
      let r := if off + 64 > d.curGrp.shape.scratch then some 2
        else if off % 64 ≠ 0 then some 4
        else if fieldN a 19 45 ≠ 0 ∨ fieldN b 2 62 ≠ 0 then some 5
        else if shapeBad (d.curGrp.scratch.readN off 64) then some 6
        else none
      r.map (fun r => engineCopy d r 0 a))
    (fun _ d =>
      let sh := shapeOf (d.curGrp.scratch.readN (fieldN (d.sr (reg f.a)) 0 19) 64)
      postReply (d.modGrp d.cur.gid (fun g => { g with cshapes := g.cshapes.set (fieldN (d.sr (reg f.b)) 0 2) sh }))
        0 (reg f.d) 0))
/-- `CGET`. -/
def execCget (f : FmtX) (s : State) : Host.Outcome State Fault Refusal := s.run (copyWord (Instr.cget f).props 1 f)
/-- `CPUT`. -/
def execCput (f : FmtX) (s : State) : Host.Outcome State Fault Refusal := s.run (copyWord (Instr.cput f).props 2 f)
/-- `CGATH`. -/
def execCgath (f : FmtX) (s : State) : Host.Outcome State Fault Refusal := s.run (copyWord (Instr.cgath f).props 3 f)
/-- `CMCAST`. -/
def execCmcast (f : FmtX) (s : State) : Host.Outcome State Fault Refusal := s.run (copyWord (Instr.cmcast f).props 4 f)
/-- `CRING`. -/
def execCring (f : FmtX) (s : State) : Host.Outcome State Fault Refusal := s.run (copyWord (Instr.cring f).props 5 f)

/-- The live operation a handle names: its entry (R271). -/
def liveHandle (d : Dev) (h : DWord) : Option (Nat × CopyOp) :=
  let k := fieldN h 0 6
  match (d.core d.cur.core).copies.find? k with
  | some o =>
    if h.getLsbD 14 && fieldN h 15 49 == 0 && o.gid == d.cur.gid && o.gen == fieldN h 6 8 then some (k, o) else none
  | none => none

/-- An operation changed in a core's table. -/
def modCopy (d : Dev) (core k : Nat) (f : CopyOp → CopyOp) : Dev :=
  d.modCore core (fun c => { c with copies := c.copies.modify k f })

/-- A group is resident: it is on a core. -/
def resident (d : Dev) (gid : Nat) : Bool := (d.groups.find? gid).isSome

/-- A member that the chain of a `CMCAST` runs through: on a core, not dropped out, and not restored since (R279,
R280, R283). -/
def CMember.chained (d : Dev) (m : CMember) : Bool := !m.dropped && !m.direct && resident d m.gid

/-- The oldest chunk a member still lacks. -/
def oldestChunk (total : Nat) (m : CMember) : Nat :=
  ((List.range (m.arrived.length + 1)).find? (fun k => !m.arrived.contains k)).getD total

/-- The oldest chunk of an operation that has not completed, as member `m` is bound by it (R272): a restored member
is bound by its own. -/
def oldestOf (d : Dev) (o : CopyOp) (m : CMember) : Nat :=
  let total := opChunks d o
  if m.direct then oldestChunk total m
  else (o.members.filter (fun x => x.chained d)).foldl (fun n x => min n (oldestChunk total x)) total

/-- A multicast chunk that the engine has read holds the forwarding slot of member `mi` until the next member of the chain
has received it, or, at the end of the chain, until the member itself has (R279). -/
def slotHeld (d : Dev) (o : CopyOp) (mi ch : Nat) : Bool :=
  (o.held.find? ch).isSome && !(match (o.members.drop (mi + 1)).find? (fun x => x.chained d) with
    | some x => x.arrived.contains ch
    | none => ((o.members[mi]?).map (fun x => x.arrived.contains ch)).getD false)

/-- The forwarding slots in use at the network interface of a core (R279). -/
def slotsUsed (d : Dev) (core : Nat) : Nat :=
  d.cores.foldl (fun n c => c.2.copies.foldl (fun n q =>
    q.2.members.zipIdx.foldl (fun n m =>
      if m.1.chained d && (d.grp m.1.gid).core == core then n + (q.2.held.filter (fun h => slotHeld d q.2 m.2 h.1)).length
      else n) n) n) 0

/-- A chunk may complete for a member: the operation runs, or the chunk had started when it stopped; the member is
there and no save has reached it or the issuer; the chunk is within the window, not arrived and not parked; earlier
members of the chain have it; and where the engine has still to read it, every member has a forwarding slot free
(R272, R276, R279, R282). -/
def chunkReady (d : Dev) (core k mi ch : Nat) : Bool :=
  match (d.core core).copies.find? k with
  | none => false
  | some o =>
    match o.members[mi]? with
    | none => false
    | some m =>
      (o.state == .queued || o.state == .running || o.state == .parked) && !m.dropped &&
        (!o.settling || o.started.contains ch) &&
        resident d o.gid && !(d.grp o.gid).saving && resident d m.gid && !(d.grp m.gid).saving &&
        !m.arrived.contains ch && decide (ch < opChunks d o ∧ ch ≤ oldestOf d o m + 64) &&
        !o.waits.any (fun w => w.1 == mi && w.2.1 == ch) &&
        (m.direct || (o.members.take mi).all (fun p => !p.chained d || p.arrived.contains ch)) &&
        (o.func != 4 || m.direct || (o.held.find? ch).isSome ||
          (o.members.filter (fun x => x.chained d)).all (fun x => decide (slotsUsed d (d.grp x.gid).core < 16)))

/-- The chunks that could start next, in ascending order (R272). -/
def nextChunks (d : Dev) (core k : Nat) (o : CopyOp) : List Nat :=
  (o.members.zipIdx.flatMap (fun m =>
    ((List.range 65).map (fun i => oldestOf d o m.1 + i)).filter (fun ch => chunkReady d core k m.2 ch))).eraseDups

/-- An operation stops: no further chunk starts, parked chunks leave the fault buffer, and the settling step follows
the chunks already started: those its engine has read for some member, and as many of the next as choice 13 says, but
not the chunk `ch` that failed (R276; log 75). -/
def copyStop (d : Dev) (core k reason : Nat) (ch : Option Nat := none) : Dev :=
  match (d.core core).copies.find? k with
  | none => d
  | some o =>
    if o.settling then d
    else
      let next := ((nextChunks d core k o).filter (fun c => some c != ch && (o.held.find? c).isNone)).take (d.opt 13)
      let started := (o.held.map (fun h => h.1)).filter (fun c => some c != ch) ++ next
      let d := o.waits.foldl (fun d w => if w.2.2.2 < Config.fbEntries then fbLeave d w.2.2.1 w.2.2.2 else d) d
      modCopy d core k (fun o => { o with
        settling := true, reason := reason, waits := [], started := started, state := .running })

/-- A chunk fails: its operation stops, or where it has stopped already, the chunk is done with (R276). -/
def chunkFails (d : Dev) (core k ch reason : Nat) : Dev :=
  match (d.core core).copies.find? k with
  | none => d
  | some o =>
    if o.settling then modCopy d core k (fun o => { o with started := o.started.filter (fun c => !(c == ch)) })
    else copyStop d core k reason (some ch)

/-- Every chunk that had started when the operation stopped has completed or failed, or a save abandons it (R276,
R282). -/
def settleReady (d : Dev) (o : CopyOp) : Bool :=
  o.settling && (!resident d o.gid || (d.grp o.gid).saving || o.started.all (fun ch => o.members.all (fun m =>
    !m.chained d || m.arrived.contains ch)))

/-- `CRESUME`. -/
def execCresume (f : FmtXA) (s : State) : Host.Outcome State Fault Refusal :=
  s.run (plain (Instr.cresume f).props (fun d =>
    match liveHandle d (d.sr (reg f.a)) with
    | none => postReply d 0 (reg f.d) 0
    | some (k, o) =>
      let d1 := if o.state = .faulted ∨ o.state = .cancelled then
          modCopy d d.cur.core k (fun o => copySettleState d { o with reason := 0, waits := [], held := [] })
        else d
      postReply d1 0 (reg f.d) (BitVec.ofNat 64 o.state.code)))

/-- `CCANCEL`: the reply of a running operation follows the settling step. -/
def execCcancel (f : FmtXA) (s : State) : Host.Outcome State Fault Refusal :=
  s.run (plain (Instr.ccancel f).props (fun d =>
    match liveHandle d (d.sr (reg f.a)) with
    | none => postReply d 0 (reg f.d) 0
    | some (k, o) =>
      match o.state with
      | .done => postReply d 0 (reg f.d) 4
      | .faulted | .cancelled | .free =>
        postReply (d.modCore d.cur.core (fun c => { c with copies := c.copies.erase k })) 0 (reg f.d)
          (BitVec.ofNat 64 o.state.code)
      | _ =>
        let rep : List Ev.Reply := if reg f.d = 0 then [] else
          [{ core := d.cur.core, slot := d.cur.slot, gid := d.cur.gid, d := reg f.d
             value := BitVec.ofNat 64 o.state.code, eng := 0 }]
        modCopy (copyStop d d.cur.core k 4) d.cur.core k (fun o => { o with reply := o.reply ++ rep })))

/-- `CSTAT`. -/
def execCstat (f : FmtXA) (s : State) : Host.Outcome State Fault Refusal :=
  s.run (plain (Instr.cstat f).props (fun d =>
    postReply d 0 (reg f.d) (match liveHandle d (d.sr (reg f.a)) with
      | some (_, o) => copyStatus d o
      | none => 0)))

/-! ### Steps of the engine -/

/-- Bytes of a scratch range written, with the waits on every dword of it. -/
def scrFill (d : Dev) (gid off len v : Nat) : Dev :=
  let d := d.modGrp gid (fun g => { g with scratch := g.scratch.writeN off len v })
  (List.range ((off + len + 7) / 8 - off / 8)).foldl (fun d i => wakeOn d gid ((off / 8 + i) * 8)) d

/-- The reason of R278 for a delivered fault. -/
def copyFaultReason : MErr → Nat
  | .xlate .. => 1
  | .data .. => 3
  | .unlogged _ => 3
  | _ => 2

/-- Whether a chunk's far side is a transient tile that is lost (R276). -/
def lostTile (d : Dev) (o : CopyOp) (va : DWord) : Bool :=
  let g := d.grp o.gid
  match d.launches.find? g.launch with
  | none => false
  | some l =>
    let res := fieldN va 32 8
    let p := (l.graph.passes[g.task.pass]?).getD noPass
    let rs := (l.graph.res[res]?).getD noRes
    let x : Int := (mapTile (tileEdge p.tsize) (tileEdge rs.tsize) g.task.tx).1 + (va.extractLsb' 28 4).toInt
    let y : Int := (mapTile (tileEdge p.tsize) (tileEdge rs.tsize) g.task.ty).1 + (va.extractLsb' 24 4).toInt
    (l.rts.get (rtKey res x.toNat y.toNat) {}).lost

/-- The naturally aligned pieces, of 1, 2, 4 or 8 bytes, of a range of the register alias: offset and size. -/
def regPieces : Nat → Nat → Nat → List (Nat × Nat)
  | 0, _, _ => []
  | fuel + 1, o, n =>
    if n = 0 then []
    else
      let s := (([8, 4, 2].find? (fun s => decide (o % s = 0 ∧ s ≤ n))).getD 1)
      (o, s) :: regPieces fuel (o + s) (n - s)

/-- What an engine's access to a target meets beside its translation (R276, R316, R414): a register that is not there,
and an atomic on a register, answer with an error completion. -/
def farErr (e : Env) (d : Dev) (k : AKind) (t : Target) (n : Nat) : Option MErr :=
  match t with
  | .reg o =>
    if k = .atomic ∨ (regPieces n o n).any (fun p => (regReadN e d p.1 p.2).isNone) then some (.data 5 (0xFFF0000000000 + o))
    else none
  | _ => targetErr d k t

/-- A chunk has still to wait: its far side is a transient tile that moves or is produced again (R109, R360), other than
a tile whose loss ends the operation (R276). -/
def chunkStalls (d : Dev) (core k mi ch : Nat) : Bool :=
  match (d.core core).copies.find? k with
  | none => false
  | some o =>
    match chunkAddr d o ch with
    | none => true
    | some (va, _, len) =>
      let forwarded := (o.held.find? ch).isSome && !((o.members.getD mi { gid := o.gid, gidx := 0 }).direct)
      !forwarded && !(o.func == 5 && lostTile d o va) &&
        (match resolve d (o.who core) va len 0 len (if o.puts then .write else .read) (d.opt 1) with
          | .error x => x == .moving
          | .ok _ => false)

/-- A target read by an engine for a group of a core, with what the read leaves behind. -/
def farRead (e : Env) (d : Dev) (gid core : Nat) (t : Target) (n : Nat) : Dev × Nat :=
  match t with
  | .reg ro => (regPieces n ro n).foldl (fun (x : Dev × Nat) p =>
      (match regClears p.1 { idx := 0, off := 0, lo := 8 * (p.1 % 8), bits := 8 * p.2 } with
        | some ev => x.1.post ev
        | none => regSawRead x.1 p.1, x.2 + (regReadN e d p.1 p.2).getD 0 * 2 ^ (8 * (p.1 - ro)))) (d, 0)
  | _ => (bankNote d t (some core), tgtRead d gid t n)

/-- A target written by an engine for a group of a core, which has still to join what went to memory (R136, R142). -/
def farWrite (e : Env) (d : Dev) (gid core : Nat) (t : Target) (n v : Nat) : Dev :=
  match t with
  | .scr off => scrFill d gid off n v
  | .mem pa pg => (memWrite e d pa n v pg (some core)).modGrp gid (fun g => { g with wrote := true })
  | .ring tw key => (noteRing (ringWrite d tw key n v) tw key (some core)).modGrp gid (fun g => { g with wrote := true })
  | .reg ro => (regPieces n ro n).foldl (fun d p =>
      d.post (regWriteStep p.1 p.2 (BitVec.ofNat 64 (v / 2 ^ (8 * (p.1 - ro)) % 2 ^ (8 * p.2))) false)) d
  | .fail _ _ => d

/-- The rows up to that of a chunk have started: a `CGATH` keeps their indices (R272, R274). -/
def latchRows (d : Dev) (core k : Nat) (o : CopyOp) (ch : Nat) : Dev :=
  if o.func ≠ 3 then d
  else match chunkAt d o ch with
  | none => d
  | some (r, _, _) =>
    modCopy d core k (fun o => { o with idx := (List.range (r + 1)).foldl (fun m i =>
      if (m.find? i).isSome then m else m.set i (rowIdx d o i)) o.idx })

/-- A chunk's bytes reach a member: its scratch, one arrival, and the operation's record (R273, R279). -/
def chunkArrives (d : Dev) (p : Ev.Chunk) (gid aoff len : Nat) : Dev :=
  let d := arrive d gid aoff len
  let d := modCopy d p.core p.entry (fun o =>
    let ms := o.members.modify p.member (fun m => { m with arrived := m.arrived ++ [p.chunk] })
    let more := ms.any (fun m => m.chained d && !m.arrived.contains p.chunk)
    { o with members := ms, held := if more then o.held else o.held.erase p.chunk })
  modCopy d p.core p.entry (fun o => if o.settling then o else copySettleState d o)

/-- One chunk completes for one member, parks or fails (R272 to R274, R276, R279). -/
def chunkComplete (e : Env) (d : Dev) (p : Ev.Chunk) : Dev :=
  if !chunkReady d p.core p.entry p.member p.chunk then d
  else match (d.core p.core).copies.find? p.entry with
  | none => d
  | some o =>
    if p.fail ≠ 0 then chunkFails d p.core p.entry p.chunk p.fail
    else match chunkAddr d o p.chunk with
    | none => d
    | some (va, so, len) =>
      let d := latchRows d p.core p.entry o p.chunk
      let k : AKind := if o.puts then .write else .read
      let w := o.who p.core
      let m := o.members.getD p.member { gid := o.gid, gidx := 0 }
      let aoff := xAoff o.xfer
      match (if m.direct then none else o.held.find? p.chunk) with
      | some v => chunkArrives (scrFill d m.gid so len v) p m.gid aoff len
      | none =>
        let r := match resolve d w va len 0 len k (d.opt 1) with
          | .error x => Except.error x
          | .ok (t, ads) => match farErr e d k t len with
            | some x => .error x
            | none => .ok (t, ads)
        match r with
        | .error x =>
          if x = .moving then (if o.func = 5 ∧ lostTile d o va then chunkFails d p.core p.entry p.chunk 5 else d)
          else match (if (d.ctx o.ctx).ctxcfg.getLsbD 0 && !o.settling then x.replayable else none) with
            | some (tva, reason, level, pte) =>
              let t := p.core / 64
              let (d1, en) := fbJoin e d t (BitVec.ofNat 64 tva) (w.asid d) 4 reason level pte p.core
              modCopy d1 p.core p.entry (fun o => { o with
                state := .parked, waits := o.waits ++ [(p.member, p.chunk, t, en.getD Config.fbEntries)] })
            | none => linkLost e (chunkFails (noteErr e d o.ctx x) p.core p.entry p.chunk (copyFaultReason x)) o.gid x
        | .ok (t, ads) =>
          let d := touch d w.ctx ads
          if o.puts then
            chunkArrives (farWrite e d o.gid p.core t len ((d.grp o.gid).scratch.readN so len)) p m.gid aoff len
          else
            let (d, v) := farRead e d o.gid p.core t len
            let d := if o.func = 4 && !m.direct then modCopy d p.core p.entry (fun o => { o with held := o.held.set p.chunk v }) else d
            chunkArrives (scrFill d m.gid so len v) p m.gid aoff len

/-- `CHUNK_COMPLETE`. -/
def execChunkComplete (p : Ev.Chunk) (s : State) : Host.Outcome State Fault Refusal :=
  s.run (fun e d => chunkComplete e d p)

/-- The settling step of an operation that has stopped: the FAULT updates, a saved member's kept for its restore, the
state, and the replies of `CCANCEL` (R276, R277, R280, R283). -/
def copySettle (d : Dev) (p : Ev.CopyRef) : Dev :=
  match (d.core p.core).copies.find? p.entry with
  | none => d
  | some o =>
    if !settleReady d o then d
    else
      let aoff := xAoff o.xfer
      let ms := o.members.filter (fun m => !m.dropped)
      let d := ms.foldl (fun d m => if resident d m.gid then setFault d m.gid aoff else d) d
      let d : Dev := { d with saved := d.saved.map (fun s =>
        if ms.any (fun m => m.gid == s.gid) && !resident d s.gid then { s with faults := s.faults ++ [aoff] } else s) }
      let d := o.reply.foldl (fun d r => d.post (.commandReply r)) d
      modCopy d p.core p.entry (fun o => { o with
        settling := false, reply := [], held := [], waits := [], started := []
        state := if o.reason = 4 then .cancelled else .faulted })

/-- `COPY_FAULT_SETTLE`. -/
def execCopyFaultSettle (p : Ev.CopyRef) (s : State) : Host.Outcome State Fault Refusal :=
  s.run (fun _ d => copySettle d p)

/-- A layer shutdown ends every `CRING` whose tile it has declared lost (R116, R276). -/
def ringLost (d : Dev) : Dev :=
  let hits := d.cores.flatMap (fun c => c.2.copies.filterMap (fun q =>
    let o := q.2
    let runs := o.func == 5 && !o.settling && (o.state == .queued || o.state == .running || o.state == .parked)
    if runs && (List.range (opChunks d o)).any (fun ch => !(o.members.all (fun m => m.arrived.contains ch)) &&
        (match chunkAddr d o ch with
          | some (va, _, _) => lostTile d o va
          | none => false)) then some (c.1, q.1) else none))
  hits.foldl (fun d h => copyStop d h.1 h.2 5) d

/-- `COPY_QUIESCE_TIMEOUT`: a saved group whose copies have not come to rest ends with HWERR (R282). -/
def execCopyQuiesceTimeout (p : Ev.GroupRef) (s : State) : Host.Outcome State Fault Refusal :=
  s.run (fun e d => if resident d p.gid && (d.grp p.gid).saving then hwerr e d p.gid 1 0 0 else d)

end Sys2Proof.Machine
end

