-- ==== Sys2Proof/Machine/Numbers.lean ====
section
/-! DEFINITION.  Number formats, scales and rounding (R16 to R32): exact values as fractions, and the
one rounding helper.  Flags are a number with NV, DZ, OF, UF, NX at bits 0 to 4. -/

namespace Sys2Proof.Machine

/-- An exact value: a NaN (signalling, or standing for an invalid operation, when `sig`), an infinity,
or a sign with a fraction n / d, d > 0. -/
inductive XV where
  | nan (sig : Bool)
  | inf (neg : Bool)
  | fin (neg : Bool) (n d : Nat)
  deriving DecidableEq, Repr

/-- Flag bits (R33). -/
def fNV : Nat := 1
def fDZ : Nat := 2
def fOF : Nat := 4
def fUF : Nat := 8
def fNX : Nat := 16

/-- The OR of two sets of flags. -/
def flagOr (a b : Nat) : Nat := a ||| b

/-- An IEEE interchange format: fraction bits and exponent bits (R16). -/
structure Fmt where
  fb : Nat
  eb : Nat
  deriving DecidableEq, Repr

/-- FP32, FP16 and BF16 (R16). -/
def f32 : Fmt := ⟨23, 8⟩
def f16 : Fmt := ⟨10, 5⟩
def bf16 : Fmt := ⟨7, 8⟩

/-- Exponent bias. -/
def Fmt.bias (f : Fmt) : Nat := 2 ^ (f.eb - 1) - 1
/-- Magnitude code of infinity. -/
def Fmt.infCode (f : Fmt) : Nat := (2 ^ f.eb - 1) * 2 ^ f.fb
/-- The sign bit's weight. -/
def Fmt.signBit (f : Fmt) : Nat := 2 ^ (f.fb + f.eb)
/-- The canonical quiet NaN (R17). -/
def Fmt.canonNaN (f : Fmt) : Nat := f.infCode + 2 ^ (f.fb - 1)

/-- The value of a magnitude code, as a fraction; codes above infinity extend the exponent range. -/
def Fmt.codeVal (f : Fmt) (c : Nat) : Nat × Nat :=
  let e := c / 2 ^ f.fb
  let m := c % 2 ^ f.fb
  let sig := if e = 0 then m else 2 ^ f.fb + m
  let ex := if e = 0 then 1 else e
  if ex ≥ f.bias + f.fb then (sig * 2 ^ (ex - f.bias - f.fb), 1)
  else (sig, 2 ^ (f.bias + f.fb - ex))

/-- Decoding of an interchange format (R16, R17). -/
def Fmt.decode (f : Fmt) (bits : Nat) : XV :=
  let neg := bits / f.signBit % 2 = 1
  let c := bits % f.signBit
  if c > f.infCode then .nan (decide ((c - f.infCode) < 2 ^ (f.fb - 1)))
  else if c = f.infCode then .inf neg
  else
    let (n, d) := f.codeVal c
    .fin neg n d

/-- The negation of a value. -/
def XV.neg : XV → XV
  | .nan s => .nan s
  | .inf g => .inf (!g)
  | .fin g n d => .fin (!g) n d

/-- Exact sum; `rdn` gives an exact zero sum its sign under RDN (R18). -/
def XV.add (rdn : Bool) : XV → XV → XV
  | .nan a, .nan b => .nan (a || b)
  | .nan a, _ => .nan a
  | _, .nan b => .nan b
  | .inf a, .inf b => if a = b then .inf a else .nan true
  | .inf a, _ => .inf a
  | _, .inf b => .inf b
  | .fin g n d, .fin h m e =>
    let x := n * e
    let y := m * d
    if x = 0 ∧ y = 0 then .fin (if g = h then g else rdn) 0 1
    else if g = h then .fin g (x + y) (d * e)
    else if x = y then .fin rdn 0 1
    else if x > y then .fin g (x - y) (d * e)
    else .fin h (y - x) (d * e)

/-- The exact sum of some values, which has no order: a NaN among them, or infinities of both signs, makes it a NaN
(R17, R220); an exact zero has the sign of IEEE 754's sums of two operands (R18; of a sum of
more terms the model's choice, log 68). -/
def XV.sum (rdn : Bool) (xs : List XV) : XV :=
  let both := xs.contains (.inf true) && xs.contains (.inf false)
  if both || xs.contains (.nan true) then .nan true
  else if xs.contains (.nan false) then .nan false
  else match xs with
    | [] => .fin false 0 1
    | x :: r => r.foldl (XV.add rdn) x

/-- Exact product (R17). -/
def XV.mul : XV → XV → XV
  | .nan a, .nan b => .nan (a || b)
  | .nan a, _ => .nan a
  | _, .nan b => .nan b
  | .inf a, .inf b => .inf (a != b)
  | .inf a, .fin h m _ => if m = 0 then .nan true else .inf (a != h)
  | .fin g n _, .inf b => if n = 0 then .nan true else .inf (g != b)
  | .fin g n d, .fin h m e => .fin (g != h) (n * m) (d * e)

/-- Exact quotient by a positive finite scale n / d. -/
def XV.scaleDiv (x : XV) (n d : Nat) : XV := x.mul (.fin false d n)

/-- Comparison of finite and infinite values: the order of a and b, none with a NaN. -/
def XV.cmp : XV → XV → Option Ordering
  | .nan _, _ => none
  | _, .nan _ => none
  | .inf a, .inf b => some (if a = b then .eq else if a then .lt else .gt)
  | .inf a, _ => some (if a then .lt else .gt)
  | _, .inf b => some (if b then .gt else .lt)
  | .fin g n d, .fin h m e =>
    let x : Int := (if g then -1 else 1) * (n * e : Nat)
    let y : Int := (if h then -1 else 1) * (m * d : Nat)
    some (compare x y)

/-- Is a value a NaN; a signalling one. -/
def XV.isNaN : XV → Bool
  | .nan _ => true
  | _ => false
def XV.isSNaN : XV → Bool
  | .nan s => s
  | _ => false
/-- Is a value zero. -/
def XV.isZero : XV → Bool
  | .fin _ n _ => n == 0
  | _ => false
/-- Sign of a value; a NaN has none. -/
def XV.sign : XV → Bool
  | .nan _ => false
  | .inf g => g
  | .fin g _ _ => g

/-- R30. -/
def hash32 (x : Word) : Word :=
  let x := x ^^^ (x >>> 16)
  let x := x * 0x7FEB352D
  let x := x ^^^ (x >>> 15)
  let x := x * 0x846CA68B
  x ^^^ (x >>> 16)

/-- A resolved rounding mode and what RSD needs: the mode code of R27, the seed and the element index. -/
structure Rnd where
  rm : Nat
  seed : Word := 0
  idx : Nat := 0
  deriving DecidableEq, Repr

/-- The mode fixed at RNE. -/
def rne : Rnd := { rm := 1 }

/-- R29: whether lo + t (hi - lo), t = r / q with 0 < r < q, rounds up. -/
def Rnd.up (k : Rnd) (neg : Bool) (odd : Bool) (r q : Nat) : Bool :=
  match k.rm with
  | 1 => decide (2 * r > q) || (decide (2 * r = q) && odd)
  | 3 => !neg
  | 4 => neg
  | 5 => decide (2 * r ≥ q)
  | 6 => decide (r * 2 ^ 24 / q + fieldN (hash32 (k.seed ^^^ BitVec.ofNat 32 k.idx)) 8 24 ≥ 2 ^ 24)
  | _ => false

/-- The exponent of n / d: e with 2^e ≤ n / d < 2^(e+1). -/
def expOf (n d : Nat) : Int :=
  let k : Int := (Nat.log2 n : Int) - (Nat.log2 d : Int)
  if n * 2 ^ (-k).toNat ≥ d * 2 ^ k.toNat then k else k - 1

/-- RoundTo for the interchange formats: bits and flags (R29). -/
def Fmt.round (f : Fmt) (k : Rnd) (x : XV) : Nat × Nat :=
  match x with
  | .nan s => (f.canonNaN, if s then fNV else 0)
  | .inf g => (f.infCode + (if g then f.signBit else 0), 0)
  | .fin g n d =>
    let sg := if g then f.signBit else 0
    if n = 0 then (sg, 0)
    else
      let emin : Int := 1 - (f.bias : Int)
      let e := expOf n d
      let E := if e < emin then emin else e
      let u := E - (f.fb : Int)
      let a := n * 2 ^ (-u).toNat
      let b := d * 2 ^ u.toNat
      let q := a / b
      let r := a % b
      let lo := (E - emin).toNat * 2 ^ f.fb + q
      let c := if r = 0 then lo else if k.up g (q % 2 == 1) r b then lo + 1 else lo
      let nx := if r = 0 then 0 else fNX
      let uf := if e < emin ∧ r ≠ 0 then fUF else 0
      if c ≥ f.infCode then
        let big := match k.rm with
          | 2 => f.infCode - 1
          | 3 => if g then f.infCode - 1 else f.infCode
          | 4 => if g then f.infCode else f.infCode - 1
          | _ => f.infCode
        (sg + big, flagOr fOF fNX)
      else (sg + c, flagOr nx uf)

/-- RoundF32 at RNE on a word's bits. -/
def roundF32 (k : Rnd) (x : XV) : Word × Nat :=
  let (b, fl) := f32.round k x
  (BitVec.ofNat 32 b, fl)

/-- The value a word holds as FP32. -/
def xf32 (w : Word) : XV := f32.decode w.toNat

/-- DecodeTaper's magnitude for m > 0 (R19): a fraction. -/
def taperMag (w m : Nat) : Nat × Nat :=
  let b := m.testBit (w - 1)
  let run := (List.range w).takeWhile (fun i => m.testBit (w - 1 - i) == b)
  let n := run.length
  let k : Int := if b then (n : Int) - 1 else -(n : Int)
  let rest := if n = w then 0 else w - n - 1
  let e := if rest ≥ 1 then b2n (m.testBit (rest - 1)) else 0
  let fw := if rest ≥ 1 then rest - 1 else 0
  let fr := if fw ≥ 1 then m % 2 ^ fw else 0
  let x : Int := 2 * k + e - fw
  ((2 ^ fw + fr) * 2 ^ x.toNat, 2 ^ (-x).toNat)

/-- DecodeT8 with w = 7 and DecodeT6 with w = 5; NaR is a quiet NaN (R19, R20). -/
def decodeTaper (w code : Nat) : XV :=
  let s := code.testBit w
  let m := code % 2 ^ w
  if m = 0 then (if s then .nan false else .fin false 0 1)
  else
    let (n, d) := taperMag w m
    .fin s n d

/-- The largest m from `hi` downwards whose magnitude is at most n / d; 0 when none is. -/
def taperFloor (w n d : Nat) : Nat → Nat
  | 0 => 0
  | m + 1 =>
    let (a, b) := taperMag w (m + 1)
    if a * d ≤ n * b then m + 1 else taperFloor w n d m

/-- RoundTo for T8 (w = 7) and T6 (w = 5): code and flags (R29, R20). -/
def roundTaper (w : Nat) (k : Rnd) (x : XV) : Nat × Nat :=
  let nar := 2 ^ w
  let top := 2 ^ w - 1
  match x with
  | .nan s => (nar, if s then fNV else 0)
  | .inf _ => (nar, fNV)
  | .fin g n d =>
    if n = 0 then (0, 0)
    else
      let sg := if g then nar else 0
      let (mn, md) := taperMag w top
      let (ln, ld) := taperMag w 1
      if n * md > mn * d then (sg + top, flagOr fOF fNX)
      else if n * ld < ln * d then (sg + 1, flagOr fUF fNX)
      else
        let lo := taperFloor w n d top
        let (a, b) := taperMag w lo
        if a * d = n * b then (sg + lo, 0)
        else
          let (c, e) := taperMag w (lo + 1)
          -- t = (n/d - a/b) / (c/e - a/b)
          let r := (n * b - a * d) * e
          let q := (c * b - a * e) * d
          (sg + (if k.up g (lo % 2 == 1) r q then lo + 1 else lo), fNX)

/-- The integer nearest below, and the remainder, rounded under a mode: magnitude and inexactness. -/
def roundMag (k : Rnd) (neg : Bool) (n d : Nat) : Nat × Bool :=
  let q := n / d
  let r := n % d
  if r = 0 then (q, false)
  else (if k.up neg (q % 2 == 1) r d then q + 1 else q, true)

/-- ConvInt (R25): the integer and the flags. -/
def convInt (lo hi : Int) (k : Rnd) (x : XV) : Int × Nat :=
  match x with
  | .nan _ => (0, fNV)
  | .inf g => (if g then lo else hi, fNV)
  | .fin g n d =>
    let (m, nx) := roundMag k g n d
    let v : Int := if g then -(m : Int) else m
    if v < lo then (lo, fNV) else if v > hi then (hi, fNV)
    else (v, if nx then fNX else 0)

/-- An integer as an exact value. -/
def xint (i : Int) : XV := .fin (decide (i < 0)) i.natAbs 1

/-- The scale of an S12 code with E from 1 to 254, as a fraction (R21). -/
def s12Val (s : Nat) : Nat × Nat :=
  let e := s / 16 % 256
  let m := s % 16
  ((16 + m) * 2 ^ (e - 127), 16 * 2 ^ (127 - e))

/-- E of an S12 code. -/
def s12E (s : Nat) : Nat := s / 16 % 256

/-- A decoded element under its block's scale (R21, R22). -/
def scaled (s : Nat) (x : XV) : XV :=
  if s12E s = 0 then .fin false 0 1
  else if s12E s = 255 then .nan false
  else
    let (n, d) := s12Val s
    x.mul (.fin false n d)

/-- Quantising an element under a scale: the exact quotient, or the zero or NaN block (R23). -/
inductive Quot where
  | zero
  | nan
  | val (x : XV)
  deriving DecidableEq, Repr

/-- x / s as R23 lays down. -/
def quantise (s : Nat) (x : XV) : Quot :=
  if s12E s = 0 then .zero
  else if s12E s = 255 then .nan
  else
    let (n, d) := s12Val s
    .val (x.scaleDiv n d)

/-- The largest finite magnitude of a format code: 0 BF16, 1 FP16, 2 T8, 3 T6, 4 INT8 (R24). -/
def maxF (fmt : Nat) : Nat :=
  match fmt with
  | 0 => (2 ^ 8 - 1) * 2 ^ 120
  | 1 => 65504
  | 2 => 4096
  | 3 => 256
  | _ => 127

/-- The smallest code from `s` on, `k` codes ahead, whose scale covers n / d. -/
def coverFrom (mx n d : Nat) : Nat → Nat → Option Nat
  | 0, _ => none
  | k + 1, s =>
    let (a, b) := s12Val s
    if a * mx * d ≥ n * b then some s else coverFrom mx n d k (s + 1)

/-- The least E from 1 to 254 whose largest code covers, by counting up. -/
def coverExp (mx n d : Nat) : Nat → Nat → Option Nat
  | 0, _ => none
  | k + 1, e =>
    let (a, b) := s12Val (16 * e + 15)
    if a * mx * d ≥ n * b then some e else coverExp mx n d k (e + 1)

/-- S12Cover over the magnitudes of a block: code and flags (R24). -/
def s12Cover (fmt : Nat) (xs : List XV) : Nat × Nat :=
  if xs.any (fun x => match x with | .fin _ _ _ => false | _ => true) then (0xFF0, fNV)
  else
    let big := xs.foldl (fun (p : Nat × Nat) x =>
      match x with
      | .fin _ n d => if n * p.2 > p.1 * d then (n, d) else p
      | _ => p) (0, 1)
    if big.1 = 0 then (0x010, 0)
    else
      match coverExp (maxF fmt) big.1 big.2 254 1 with
      | none => (0xFEF, fOF)
      | some e =>
        match coverFrom (maxF fmt) big.1 big.2 16 (16 * e) with
        | none => (0xFEF, fOF)
        | some s => (s, 0)

/-- ExpandInt4 (R26): the BF16 bits. -/
def expandInt4 (q z s : Nat) : Nat :=
  (bf16.round rne ((xint ((q : Int) - z)).mul (bf16.decode s))).1

/-- The comparison codes of R58 over words of any width. -/
def condCc {n : Nat} (cc : Nat) (a b : BitVec n) : Bool :=
  match cc with
  | 0 => a == b
  | 1 => a != b
  | 2 => a.slt b
  | 3 => a.sle b
  | 4 => b.slt a
  | 5 => b.sle a
  | 6 => a.ult b
  | _ => b.ule a

/-- The comparison codes of `VCMP.F32`: result and flags (R216). -/
def condF32 (cc : Nat) (a b : XV) : Bool × Nat :=
  let nan := a.isNaN || b.isNaN
  let snan := a.isSNaN || b.isSNaN
  let o := a.cmp b
  let r := match cc with
    | 0 => o == some .eq
    | 1 => !(o == some .eq)
    | 2 => o == some .lt
    | 3 => o == some .lt || o == some .eq
    | 4 => o == some .gt
    | 5 => o == some .gt || o == some .eq
    | 6 => nan
    | _ => !nan
  let strict := cc == 2 || cc == 3 || cc == 4 || cc == 5
  (r, if snan || (strict && nan) then fNV else 0)

/-- VMIN.F32 and VMAX.F32 (R215). -/
def minmaxF32 (mx : Bool) (a b : Word) : Word × Nat :=
  let x := xf32 a
  let y := xf32 b
  let fl := if x.isSNaN || y.isSNaN then fNV else 0
  let r : Word :=
    if x.isNaN && y.isNaN then 0x7FC00000
    else if x.isNaN then b
    else if y.isNaN then a
    else
      let aLess := match x.cmp y with
        | some .lt => true
        | some .gt => false
        | _ => x.sign && !y.sign
      if mx then (if aLess then b else a)
      else match x.cmp y with
        | some .gt => b
        | some .lt => a
        | _ => if y.sign && !x.sign then b else a
  (r, fl)

end Sys2Proof.Machine
end

