-- ==== Sys2Proof/Machine/Mem.lean ====
section
/-! DEFINITION.  Class 2, MEM: loads, stores, atomics, fences, data-arrival waits and the vertical FIFO
(R235 to R260). -/

namespace Sys2Proof.Machine

/-! ### Loads and stores (R239 to R242) -/

/-- The lanes a load, store or texel fetch still has to serve (R392). -/
def memLanes (d : Dev) : List Nat := lanesOf (d.active &&& ~~~(loWord d.opW.pidx))
/-- The lower event of a 16-byte access has performed (R392). -/
def halfDone (d : Dev) (l : Nat) : Bool := (hiWord d.opW.pidx).getLsbD l
/-- The word is complete: `PIDX` no longer marks the batch's lanes (R392). -/
def clearPidx (d : Dev) : Dev :=
  let m := pairWord d.cur.lanes d.cur.lanes
  if d.curWarp.pidx &&& m = 0 then d else d.modCur (fun w => { w with pidx := w.pidx &&& ~~~m })

/-- Access of format M, and of format MS (R237); a scratch form ignores its hint (R235). -/
def accM (a : BitVec 7) (o : BitVec 5) (size pri : Nat) (d : Dev) (l : Nat) : Acc :=
  { lane := l, va := eaM d a o size l, total := size, half := halfDone d l, pri := pri }
def accMS (a : BitVec 7) (o : BitVec 5) (size : Nat) (d : Dev) (l : Nat) : Acc :=
  { lane := l, va := BitVec.ofNat 64 (offMS d a o size l), total := size, scr := some (offMS d a o size l)
    half := halfDone d l }

/-- Sign extension of a load's value from `size` bytes to 32 bits. -/
def extend (sx : Bool) (size v : Nat) : Nat :=
  if sx && v.testBit (8 * size - 1) then 2 ^ 32 - 2 ^ (8 * size) + v else v

/-- The read of a register that clears it, answered in its own step (R13). -/
def postClear (d : Dev) (dst lane : Nat) (sx : Bool) (x : Nat × Nat × Nat) : Dev :=
  let (po, n, o) := x
  match regClears o { idx := 0, off := 0, lo := 8 * (o % 8), bits := 8 * n, sx := sx, core := d.cur.core
                      slot := d.cur.slot
                      vec := (List.range (max 1 (n / 4))).map (fun j => d.dest dst (po / 4 + j) lane) } with
  | some ev => d.post ev
  | none => d

/-! #### A save between lines (R242, R392; log 69) -/

/-- The 128-byte lines of a lane's accesses, by address or scratch offset. -/
def lanesLines (as : List Acc) : List Nat :=
  as.flatMap (fun a => a.parts.map (fun p => ((a.scr.getD a.va.toNat) + p.1) / 128))

/-- Where a save interrupts a load, store or texel fetch (choice 12): the lanes it has served, the lowest first,
and the lane whose lower event alone it has; none where the word is not interrupted, or is not alone in its group. -/
def interrupted (d : Dev) (acc : Nat → List Acc) : Option (List Nat × Option Nat) :=
  let k := d.opt 12
  let saving := match d.curGrp.halt with
    | some h => h.save
    | none => false
  let lines := ((memLanes d).flatMap (fun l => lanesLines (acc l))).eraseDups
  if k = 0 ∨ saving = false ∨ d.cur.snap.isSome ∨ lines.length ≤ k then none
  else
    let ok := (lines.take k).contains
    let ls := (memLanes d).takeWhile (fun l => (lanesLines (acc l)).all ok)
    let next := (memLanes d).drop ls.length
    some (ls, match next with
      | [] => none
      | l :: _ => match acc l with
        | [a] => if a.parts.length = 2 ∧ ok ((a.scr.getD a.va.toNat) / 128) then some l else none
        | _ => none)

/-- An interrupted word: its progress in `PIDX`, and its warp stopped with the PC at the word, whose group goes on leaving
out what it left out (R182, R392). -/
def interrupt (d : Dev) (ls : List Nat) (half : Option Nat) : Dev :=
  (rewind d).modCur (fun w => { w with
    suppress := w.suppress ++ d.cur.sup.map (fun x => { gpc := d.cur.gpc, word := x, lanes := d.cur.lanes })
    pidx := w.pidx ||| pairWord (maskOf half.toList) (maskOf ls)
    skidStop := true })

/-- The lower event alone of a 16-byte access (R392). -/
def APlan.low (ps : APlan) : APlan := ps.filter (fun x => x.1.1 == 0)

/-! #### Effects -/

/-- The registers that a load's data is on its way to: those of the events that perform, but those that the clearing
of a register will write. -/
def loadRegs (d : Dev) (dst k : Nat) (sx : Bool) (a : Acc) (ps : APlan) (v : Nat) (rc : List (Nat × Nat × Nat)) : List (Nat × Word) :=
  let js := (List.range k).filter (fun j =>
    ps.any (fun x => decide (x.1.1 / 4 ≤ j ∧ 4 * j < x.1.1 + x.1.2)) &&
      !rc.any (fun y => decide (y.1 / 4 ≤ j ∧ 4 * j < y.1 + y.2.1)))
  js.map (fun j => (d.dest dst j a.lane, wordOf (extend sx a.total v) j))

/-- The events of some lanes' loads in ascending order, with the data they return. -/
def loadLanes (dst k : Nat) (sx : Bool) (e : Env) (d : Dev) (xs : List (Acc × APlan)) : Dev × List (Nat × Word) :=
  xs.foldl (fun (x : Dev × List (Nat × Word)) p =>
    let (d1, v, rc) := readPlan e x.1 d.who p.1 p.2
    (rc.foldl (fun d2 y => postClear d2 dst p.1.lane sx y) d1, x.2 ++ loadRegs d dst k sx p.1 p.2 v rc)) (d, [])

/-- A load's effect: every lane's events perform in ascending order, and the data returns. -/
def loadEff (dst k : Nat) (acc : Dev → Nat → Acc) (sx : Bool) (e : Env) (d : Dev) : Dev :=
  let plan (l : Nat) : Acc × APlan := (acc d l, accPlan d d.who .read (acc d l))
  let as := (memLanes d).map (acc d)
  match interrupted d (fun l => [acc d l]) with
  | none =>
    let (d1, vec) := loadLanes dst k sx e d ((memLanes d).map plan)
    clearPidx (postVec d1 (vec ++ zeroed d dst k) (missLines d as).length (dueAt d as))
  | some (ls, half) =>
    let (d1, vec) := loadLanes dst k sx e d (ls.map plan ++ half.toList.map (fun l => ((plan l).1, (plan l).2.low)))
    interrupt (postVec d1 vec (missLines d (ls.map (acc d))).length (dueAt d as)) ls half

/-- A load (R240). -/
def loadWord (p : Props) (dst k : Nat) (acc : Dev → Nat → Acc) (sx : Bool) : Op :=
  word p (fun e d => memCheck e d .read ((memLanes d).map (acc d))) (loadEff dst k acc sx)

/-- The data of a store: `k` registers from `src`, cut to the size. -/
def storeData (d : Dev) (src k size l : Nat) : Nat :=
  (List.range k).foldl (fun v j => v + (d.vr (src + j) l).toNat * 2 ^ (32 * j)) 0 % 2 ^ (8 * size)

/-- A store's effect: every lane's events in ascending order, so the highest lane's data remains (R126). -/
def storeEff (src k : Nat) (acc : Dev → Nat → Acc) (e : Env) (d : Dev) : Dev :=
  let put (d1 : Dev) (l : Nat) : Dev := writeAcc e d d1 d.who (acc d l) (storeData d src k (acc d l).total l) false
  match interrupted d (fun l => [acc d l]) with
  | none => clearPidx ((memLanes d).foldl put d)
  | some (ls, half) =>
    let d1 := half.toList.foldl (fun d1 l =>
      writePlan e d1 d.who (acc d l) (accPlan d d.who .write (acc d l)).low (storeData d src k (acc d l).total l) false) (ls.foldl put d)
    interrupt d1 ls half

/-- A store (R240, R241). -/
def storeWord (p : Props) (src k : Nat) (acc : Dev → Nat → Acc) : Op :=
  word p (fun e d => memCheck e d .write ((memLanes d).map (acc d))) (storeEff src k acc)

/-- `LD.Z8`. -/
def execLdZ8 (f : FmtM) (s : State) : Host.Outcome State Fault Refusal :=
  s.run (loadWord (Instr.ldZ8 f).props (reg f.d) 1 (accM f.a f.o 1 (hintPri f.h)) false)
/-- `LD.S8`. -/
def execLdS8 (f : FmtM) (s : State) : Host.Outcome State Fault Refusal :=
  s.run (loadWord (Instr.ldS8 f).props (reg f.d) 1 (accM f.a f.o 1 (hintPri f.h)) true)
/-- `LD.Z16`. -/
def execLdZ16 (f : FmtM) (s : State) : Host.Outcome State Fault Refusal :=
  s.run (loadWord (Instr.ldZ16 f).props (reg f.d) 1 (accM f.a f.o 2 (hintPri f.h)) false)
/-- `LD.S16`. -/
def execLdS16 (f : FmtM) (s : State) : Host.Outcome State Fault Refusal :=
  s.run (loadWord (Instr.ldS16 f).props (reg f.d) 1 (accM f.a f.o 2 (hintPri f.h)) true)
/-- `LD.32`. -/
def execLd32 (f : FmtM) (s : State) : Host.Outcome State Fault Refusal :=
  s.run (loadWord (Instr.ld32 f).props (reg f.d) 1 (accM f.a f.o 4 (hintPri f.h)) false)
/-- `LD.64`. -/
def execLd64 (f : FmtM) (s : State) : Host.Outcome State Fault Refusal :=
  s.run (loadWord (Instr.ld64 f).props (reg f.d) 2 (accM f.a f.o 8 (hintPri f.h)) false)
/-- `LD.128`. -/
def execLd128 (f : FmtM) (s : State) : Host.Outcome State Fault Refusal :=
  s.run (loadWord (Instr.ld128 f).props (reg f.d) 4 (accM f.a f.o 16 (hintPri f.h)) false)
/-- `ST.8`. -/
def execSt8 (f : FmtM) (s : State) : Host.Outcome State Fault Refusal :=
  s.run (storeWord (Instr.st8 f).props (reg f.d) 1 (accM f.a f.o 1 (hintPri f.h)))
/-- `ST.16`. -/
def execSt16 (f : FmtM) (s : State) : Host.Outcome State Fault Refusal :=
  s.run (storeWord (Instr.st16 f).props (reg f.d) 1 (accM f.a f.o 2 (hintPri f.h)))
/-- `ST.32`. -/
def execSt32 (f : FmtM) (s : State) : Host.Outcome State Fault Refusal :=
  s.run (storeWord (Instr.st32 f).props (reg f.d) 1 (accM f.a f.o 4 (hintPri f.h)))
/-- `ST.64`. -/
def execSt64 (f : FmtM) (s : State) : Host.Outcome State Fault Refusal :=
  s.run (storeWord (Instr.st64 f).props (reg f.d) 2 (accM f.a f.o 8 (hintPri f.h)))
/-- `ST.128`. -/
def execSt128 (f : FmtM) (s : State) : Host.Outcome State Fault Refusal :=
  s.run (storeWord (Instr.st128 f).props (reg f.d) 4 (accM f.a f.o 16 (hintPri f.h)))
/-- `LDS.32`. -/
def execLds32 (f : FmtM) (s : State) : Host.Outcome State Fault Refusal :=
  s.run (loadWord (Instr.lds32 f).props (reg f.d) 1 (accMS f.a f.o 4) false)
/-- `LDS.64`. -/
def execLds64 (f : FmtM) (s : State) : Host.Outcome State Fault Refusal :=
  s.run (loadWord (Instr.lds64 f).props (reg f.d) 2 (accMS f.a f.o 8) false)
/-- `LDS.128`. -/
def execLds128 (f : FmtM) (s : State) : Host.Outcome State Fault Refusal :=
  s.run (loadWord (Instr.lds128 f).props (reg f.d) 4 (accMS f.a f.o 16) false)
/-- `STS.32`. -/
def execSts32 (f : FmtM) (s : State) : Host.Outcome State Fault Refusal :=
  s.run (storeWord (Instr.sts32 f).props (reg f.d) 1 (accMS f.a f.o 4))
/-- `STS.64`. -/
def execSts64 (f : FmtM) (s : State) : Host.Outcome State Fault Refusal :=
  s.run (storeWord (Instr.sts64 f).props (reg f.d) 2 (accMS f.a f.o 8))
/-- `STS.128`. -/
def execSts128 (f : FmtM) (s : State) : Host.Outcome State Fault Refusal :=
  s.run (storeWord (Instr.sts128 f).props (reg f.d) 4 (accMS f.a f.o 16))

/-! ### Atomics (R245 to R249) -/

/-- An atomic that returns nothing never raises MEM_DATA (R249, R260; log 11). -/
def atomKeeps (ret : Bool) (x : MErr) : Option MErr :=
  match x with
  | .data _ _ => if ret then some x else none
  | _ => some x

/-- The errors of one lane's atomic: a location in host memory takes the AtomicOp subset (R248), and one
with RET = 1 consumes the line (R249). -/
def atomErrs (e : Env) (d : Dev) (ret hostOk : Bool) (a : Acc) : List MErr :=
  if a.va.toNat % 2 ^ a.logAlign ≠ 0 then [.align a.logAlign]
  else match accTarget d d.who .atomic a (0, a.total) with
    | .error x => (atomKeeps ret x).toList
    | .ok (t, _) =>
      match t with
      | .mem pa _ =>
        if inHostAp pa && !hostOk then [.prot 8]
        else (((readErr d pa).bind (atomKeeps ret)).toList)
      | _ => ((regErr e d .atomic t a.total).bind (atomKeeps ret)).toList

/-- The access of an atomic. -/
def accMA (a : BitVec 7) (size : Nat) (d : Dev) (l : Nat) : Acc :=
  { lane := l, va := d.vpair (reg a) l, total := size }

/-- What an atomic computes: the new value and the returned one, from the old value (R246). -/
abbrev AtomFn := Dev → Nat → Nat → Nat × Nat

/-- One lane's read-modify-write, at the target that the word's checks found in the state `d0`; where the line is
bad, or there is no target, and nothing is returned, it is dropped (R249). -/
def atomLane (e : Env) (d0 : Dev) (fn : AtomFn) (a : Acc) (d : Dev) : Dev × Nat :=
  match accTarget d0 d0.who .atomic a (0, a.total) with
  | .error _ => (lostParts e d0 d d0.who .atomic a, 0)
  | .ok (t, ads) =>
    let d := touch d d0.who.ctx ads
    let bad := match t with
      | .mem pa _ => readErr d0 pa
      | _ => regErr e d0 .atomic t a.total
    match bad with
    | some x => (noteErr e d d0.who.ctx x, 0)
    | none =>
      let (new, r) := fn d0 a.lane (tgtRead d d0.cur.gid t a.total)
      (tgtWrite e d d0.who t a.total new true, r)

/-- An atomic word of `size` bytes that returns `k` registers (R247). -/
def atomWord (p : Props) (f : FmtMA) (size k : Nat) (hostOk : Bool) (fn : AtomFn) : Op :=
  let ret := f.t.getLsbD 0
  word p
    (fun e d => raiseOf d 2 ((lanesOf d.active).flatMap (fun l =>
      (atomErrs e d ret hostOk (accMA f.a size d l)).map (fun x => (accMA f.a size d l, x)))))
    (fun e d =>
      let (d1, vec) := (lanesOf d.active).foldl (fun (x : Dev × List (Nat × Word)) l =>
        let (d1, r) := atomLane e d fn (accMA f.a size d l) x.1
        (d1, x.2 ++ (List.range k).map (fun j => (d.dest (reg f.d) j l, wordOf r j)))) (d, [])
      let d2 := if (f.r = 1 ∨ f.r = 3) ∧ d.active ≠ 0 then acquired d1 f.e.toNat else d1
      if ret then postVec d2 (vec ++ zeroed d (reg f.d) k) else d2)

/-- A 32-bit atomic of the old word and the lane's data, returning the old word. -/
def atom32 (f : FmtMA) (g : Word → Word → Word) : AtomFn := fun d l old =>
  ((g (BitVec.ofNat 32 old) (d.vr (reg f.d) l)).toNat, old)

/-- `AADD.S32`. -/
def execAaddS32 (f : FmtMA) (s : State) : Host.Outcome State Fault Refusal :=
  s.run (atomWord (Instr.aaddS32 f).props f 4 1 true (atom32 f (fun o v => o + v)))
/-- `AADD.F32`: rounded to nearest even, with no flag. -/
def execAaddF32 (f : FmtMA) (s : State) : Host.Outcome State Fault Refusal :=
  s.run (atomWord (Instr.aaddF32 f).props f 4 1 false (atom32 f (fun o v => (roundF32 rne ((xf32 o).add false (xf32 v))).1)))
/-- `AMIN.S32`. -/
def execAminS32 (f : FmtMA) (s : State) : Host.Outcome State Fault Refusal :=
  s.run (atomWord (Instr.aminS32 f).props f 4 1 false (atom32 f (fun o v => if v.slt o then v else o)))
/-- `AMAX.S32`. -/
def execAmaxS32 (f : FmtMA) (s : State) : Host.Outcome State Fault Refusal :=
  s.run (atomWord (Instr.amaxS32 f).props f 4 1 false (atom32 f (fun o v => if o.slt v then v else o)))
/-- `AMIN.Z32`. -/
def execAminZ32 (f : FmtMA) (s : State) : Host.Outcome State Fault Refusal :=
  s.run (atomWord (Instr.aminZ32 f).props f 4 1 false (atom32 f (fun o v => if v.ult o then v else o)))
/-- `AMAX.Z32`. -/
def execAmaxZ32 (f : FmtMA) (s : State) : Host.Outcome State Fault Refusal :=
  s.run (atomWord (Instr.amaxZ32 f).props f 4 1 false (atom32 f (fun o v => if o.ult v then v else o)))
/-- `AAND`. -/
def execAand (f : FmtMA) (s : State) : Host.Outcome State Fault Refusal :=
  s.run (atomWord (Instr.aand f).props f 4 1 false (atom32 f (fun o v => o &&& v)))
/-- `AOR`. -/
def execAor (f : FmtMA) (s : State) : Host.Outcome State Fault Refusal :=
  s.run (atomWord (Instr.aor f).props f 4 1 false (atom32 f (fun o v => o ||| v)))
/-- `AXOR`. -/
def execAxor (f : FmtMA) (s : State) : Host.Outcome State Fault Refusal :=
  s.run (atomWord (Instr.axor f).props f 4 1 false (atom32 f (fun o v => o ^^^ v)))
/-- `AXCHG`. -/
def execAxchg (f : FmtMA) (s : State) : Host.Outcome State Fault Refusal :=
  s.run (atomWord (Instr.axchg f).props f 4 1 true (atom32 f (fun _ v => v)))
/-- `ACAS`: v[d] the expected value, v[d+1] the new one. -/
def execAcas (f : FmtMA) (s : State) : Host.Outcome State Fault Refusal :=
  s.run (atomWord (Instr.acas f).props f 4 1 true (fun d l old =>
    (if old = (d.vr (reg f.d) l).toNat then (d.vr (reg f.d + 1) l).toNat else old, old)))
/-- `AADD.S64`: the returned value in the pair. -/
def execAaddS64 (f : FmtMA) (s : State) : Host.Outcome State Fault Refusal :=
  s.run (atomWord (Instr.aaddS64 f).props f 8 2 true (fun d l old =>
    ((BitVec.ofNat 64 old + d.vpair (reg f.d) l).toNat, old)))
/-- `AFFCS.64`: the lowest clear bit is set, and its number returned in v[d] (log 47). -/
def execAffcs64 (f : FmtMA) (s : State) : Host.Outcome State Fault Refusal :=
  s.run (atomWord (Instr.affcs64 f).props f 8 1 false (fun _ _ old =>
    let n := ((List.range 64).takeWhile (fun i => old.testBit i)).length
    (if n < 64 then old ||| 2 ^ n else old, n)))

/-! ### ALD and AST (R250, R403) -/

/-- What one lane's `ALD.32` reads at its target: below COL scope as a load does, and from COL scope on at the point of
coherence (R129, R250). -/
def aldRead (d : Dev) (scope : Nat) (t : Target) : Nat :=
  if scope < 2 then loadValue d d.who t 4 else tgtRead d d.cur.gid t 4

/-- The lanes of an acquiring `ALD.32` that read BINDING from a bind slot of the group's version, with the place of its
state word (R403). -/
def bindLanes (d : Dev) (f : FmtMO) : List (Nat × Nat) :=
  if f.r = 1 ∨ f.r = 3 then
    (lanesOf d.active).filterMap (fun l =>
      match accTarget d d.who .read (accMA f.a 4 d l) (0, 4) with
      | .ok (t, _) => if t.line.isSome && aldRead d f.e.toNat t == 1 && isBindSlot d d.cur.gid (accMA f.a 4 d l).va
          then some (l, t.byte) else none
      | _ => none)
  else []

/-- One lane's `ALD.32`, at the target that the word's checks found in the state `d0`: a scope of COL or wider reads the
point of coherence, and the core's own copy, which a later load could read, is gone (R127). -/
def aldLane (e : Env) (d0 : Dev) (f : FmtMO) (l : Nat) (x : Dev × List (Nat × Word)) : Dev × List (Nat × Word) :=
  let a := accMA f.a 4 d0 l
  match accPlan d0 d0.who .read a with
  | [(p, t, ads)] =>
    if f.e.toNat < 2 ∨ t.line.isNone then
      let (d1, vec) := loadLanes (reg f.d) 1 false e x.1 [(a, [(p, t, ads)])]
      (d1, x.2 ++ vec)
    else
      let d1 := touch x.1 d0.who.ctx ads
      (bankNote (l1Lose d1 d0.cur.core t) t (some d0.cur.core),
        x.2 ++ [(d0.dest (reg f.d) 0 l, wordOf (tgtRead d1 d0.cur.gid t 4) 0)])
  | _ => x

/-- `ALD.32` (R250): the lanes that read BINDING from a bind slot park (R403). -/
def execAld32 (f : FmtMO) (s : State) : Host.Outcome State Fault Refusal :=
  s.run (word (Instr.ald32 f).props
    (fun e d => firstRaise [memCheck e d .read ((lanesOf d.active).map (accMA f.a 4 d)),
      (match bindLanes d f with
        | [] => none
        | (l, _) :: _ => if d.curCtx.ctxcfg.getLsbD 0 then none else some (ownAt d .bind 1 (accMA f.a 4 d l).va))])
    (fun e d =>
      let bl := bindLanes d f
      let va (l : Nat) : DWord := (accMA f.a 4 d l).va
      let (d1, vec) := (lanesOf d.active).foldl (fun (x : Dev × List (Nat × Word)) l =>
        match bl.find? (fun b => b.1 == l) with
        | some (_, pa) =>
          let h := { (curFrame d .bind 2 (loWord (va l)).toNat (hiWord (va l)).toNat).halt 0 with olanes := 1#32 <<< l }
          let first := !(bl.takeWhile (fun k => k.1 != l)).any (fun k => va k.1 == va l)
          (bindPark e x.1 d.cur.core d.cur.slot l (va l) pa (d.cur.base * 16 + reg f.d) f.r.toNat (some h) (b2n first), x.2)
        | none => aldLane e d f l x) (d, [])
      let as := (lanesOf d.active).map (accMA f.a 4 d)
      let d2 := if f.r = 1 ∧ d.active ≠ 0 then acquired d1 f.e.toNat else d1
      postVec d2 (vec ++ zeroed d (reg f.d) 1) (missLines d as).length (dueAt d as)))

/-- `AST.32`: a scope of COL or wider drops the core's own copy (R136). -/
def execAst32 (f : FmtMO) (s : State) : Host.Outcome State Fault Refusal :=
  s.run (word (Instr.ast32 f).props
    (fun e d => memCheck e d .write ((lanesOf d.active).map (accMA f.a 4 d)))
    (fun e d => (lanesOf d.active).foldl (fun d1 l =>
      writeAcc e d d1 d.who (accMA f.a 4 d l) (d.vr (reg f.d) l).toNat (decide (f.e.toNat ≥ 2))) d))

/-! ### Texels and prefetch (R243, R244) -/

/-- The address of texel `i` of a lane: 0 top left, 1 top right, 2 bottom left, 3 bottom right. -/
def texelAcc (f : FmtM) (d : Dev) (l i : Nat) : Acc :=
  let p := eaM d f.a f.o 4 l
  let q := p + (d.vr (reg f.a + 2) l).setWidth 64
  { lane := l, va := (if i < 2 then p else q) + (if i % 2 = 1 then 4 else 0), total := 4, pri := hintPri f.h }

/-- The bilinear sum of four texels under fractions of 65,536, rounded once (R243); an exact zero has the sign that
IEEE 754 gives the sum of the contributing terms (R18; log 68). -/
def bilinear (fx fy : Nat) (t : Nat → Word) : Word :=
  let ws := [(65536 - fx) * (65536 - fy), fx * (65536 - fy), (65536 - fx) * fy, fx * fy]
  let terms := (ws.zipIdx.filter (fun p => p.1 != 0)).map (fun p => (xf32 (t p.2)).mul (.fin false p.1 (2 ^ 32)))
  (roundF32 rne (XV.sum false terms)).1

/-- The four texels of each lane, filtered. -/
def texelLanes (f : FmtM) (e : Env) (d : Dev) (ls : List Nat) : Dev × List (Nat × Word) :=
  ls.foldl (fun (x : Dev × List (Nat × Word)) l =>
    let (d1, ts) := (List.range 4).foldl (fun (y : Dev × List Word) i =>
      let (d1, v) := readNow e d y.1 (texelAcc f d l i)
      (d1, y.2 ++ [wordOf v 0])) (x.1, [])
    let fr := d.vr (reg f.a + 3) l
    (d1, x.2 ++ [(d.dest (reg f.d) 0 l, bilinear (halfAt fr 0) (halfAt fr 1) (fun i => ts.getD i 0))])) (d, [])

/-- `LDTX.BL`. -/
def execLdtxBl (f : FmtM) (s : State) : Host.Outcome State Fault Refusal :=
  let texels (d : Dev) (l : Nat) : List Acc := (List.range 4).map (texelAcc f d l)
  s.run (word (Instr.ldtxBl f).props
    (fun e d => firstRaise [raiseOf d 0 ((memLanes d).flatMap (fun l =>
      if (d.vr (reg f.a + 2) l).toNat % 4 ≠ 0 then [(texelAcc f d l 0, .align 2)]
      else (texels d l).flatMap (fun a => (accErrs e d d.who .read a).map (fun x => (a, x))))),
      missHold d (missLines d ((memLanes d).flatMap (texels d))).length])
    (fun e d =>
      match interrupted d (texels d) with
      | none =>
        let (d1, vec) := texelLanes f e d (memLanes d)
        let as := (memLanes d).flatMap (texels d)
        clearPidx (postVec d1 (vec ++ zeroed d (reg f.d) 1) (missLines d as).length (dueAt d as))
      | some (ls, _) =>
        let (d1, vec) := texelLanes f e d ls
        let as := ls.flatMap (texels d)
        interrupt (postVec d1 vec (missLines d as).length (dueAt d as)) ls none))

/-- The line of one lane of a prefetch, where the lane is not dropped (R244): a line that the core holds takes the hint's
priority; a ring slot stands in the stacked cache's array already (R84, R235). -/
def prefLane (f : FmtPref) (d0 : Dev) (d : Dev) (l : Nat) : Dev :=
  let va := eaM d0 f.a f.o 4 l
  let pri := hintPri f.h
  match resolve d d0.who va 1 0 1 .read (d.opt 1) with
  | .error _ => d
  | .ok (t, ads) =>
    match t.cached, t.line with
    | some wr, some k =>
      if (targetErr d .read t).isSome then d
      else
        let d := touch d d0.who.ctx ads
        if f.t.getLsbD 0 then bankNote d t (some d0.cur.core) pri
        else match (d.core d0.cur.core).l1.find? k with
          | some x => d.modCore d0.cur.core (fun c => { c with
              l1 := c.l1.set k { x with pri := pri, used := c.clock }, clock := c.clock + 1 })
          | none =>
            if 320 ≤ missesOut d d0.cur.core then d
            else l1Keep (bankNote d t (some d0.cur.core) pri) d0.who k wr (lineBytes d t) pri
    | _, _ => d

/-- `PREF`: no memory event and no fault. -/
def execPref (f : FmtPref) (s : State) : Host.Outcome State Fault Refusal :=
  s.run (plain (Instr.pref f).props (fun d => (lanesOf d.active).foldl (prefLane f d) d))

/-! ### Fences (R251, R252) -/

/-- `FENCE.SCOPE.ORDER`: accesses perform at issue, so only the L1 drop is left to do (R136; log 6). -/
def execFence (f : FmtF) (s : State) : Host.Outcome State Fault Refusal :=
  s.run (plain (Instr.fence f).props (fun d =>
    if (f.r = 1 ∨ f.r = 3) ∧ d.active ≠ 0 then acquired d f.e.toNat else d))

/-- `FENCE.SC` (R139): it waits for an outstanding one of the warp; every earlier access has performed,
so it then waits for the tower's next tick.  The lanes it holds are those in `active` (log 68). -/
def execFenceSc (f : FmtZ) (s : State) : Host.Outcome State Fault Refusal :=
  s.run (word (Instr.fenceSc f).props
    (fun _ d => if d.curWarp.fenceSc.isSome then some .hold else none)
    (fun e d =>
      if d.active = 0 then d
      else d.modCur (fun w => { w with fenceSc := some (d.active, some (e.hb d.curTower + 1)) })))

/-! ### Data-arrival words (R253 to R257) -/

/-- The checks of a word that names data-arrival words: uniform operands, then the access. -/
def dawCheck (k : AKind) (a : BitVec 7) (o : BitVec 5) (second : Option (Dev → Nat → Nat)) (e : Env) (d : Dev) : Option Raise :=
  firstRaise [uniform d 0 (fun l => (d.vr (reg a) l).toNat),
    (match second with
      | some g => uniform d 1 (g d)
      | none => none),
    memCheck e d k ((lanesOf d.active).map (fun l => { accMS a o 8 d l with half := false }))]

/-- `SARM` on a word's value (R254). -/
def armWord (x : DWord) (t : Nat) : Nat :=
  let y := dawMake (fieldN x 0 28) t (dawGen x) false true
  if fieldN x 0 28 ≥ t then arriveWord (BitVec.ofNat 64 y) 0 else y

/-- `SARM`. -/
def execSarm (f : FmtM) (s : State) : Host.Outcome State Fault Refusal :=
  s.run (word (Instr.sarm f).props
    (dawCheck .write f.a f.o (some (fun d l => fieldN (d.vr (reg f.d) l) 0 28)))
    (fun _ d => (tileHeads d).foldl (fun d1 l =>
      let off := offMS d f.a f.o 8 l
      scrWrite d1 d.cur.gid off 8 (armWord (scr64 (d1.grp d.cur.gid) off) (fieldN (d.vr (reg f.d) l) 0 28))) d))

/-- `SARR`: one arrival on each word named. -/
def execSarr (f : FmtM) (s : State) : Host.Outcome State Fault Refusal :=
  s.run (word (Instr.sarr f).props (dawCheck .write f.a f.o none)
    (fun _ d =>
      let off (l : Nat) : Nat := offMS d f.a f.o 8 l
      let offs := ((tileHeads d).map off).eraseDups
      offs.foldl (fun d1 o =>
        let n := ((lanesOf d.active).filter (fun l => off l == o)).foldl (fun n l => n + fieldN (d.vr (reg f.d) l) 0 28) 0
        arrive d1 d.cur.gid o n) d))

/-- Arrival trackers in use in a warp: the words its parked batches wait on (R151, R257). -/
def trackers (w : Warp) : List (Nat × Nat × Nat) :=
  (w.fib.filterMap (fun p => match p.2.park with
    | .word off _ _ => some (off, p.2.pc.toNat, p.2.base)
    | _ => none)).eraseDups

/-- A wait is satisfied by a word (R256). -/
def dawMoved (x : DWord) (gen : Nat) : Bool := dawGen x != gen || dawFault x

/-- The words on which a wait would park: one for each. -/
def parkWords (d : Dev) (a : BitVec 7) (o : BitVec 5) : List Nat :=
  (((tileHeads d).filter (fun l =>
    !dawMoved (scr64 d.curGrp (offMS d a o 8 l)) (fieldN (d.vr (reg a + 1) l) 0 6))).map (offMS d a o 8)).eraseDups

/-- The checks of `SWAIT` and `WAITW`; a seventeenth tracker holds the batch at issue (R257). -/
def waitCheck (a : BitVec 7) (o : BitVec 5) (e : Env) (d : Dev) : Option Raise :=
  firstRaise [dawCheck .read a o (some (fun d l => fieldN (d.vr (reg a + 1) l) 0 6)) e d,
    if (trackers d.curWarp).length + (parkWords d a o).length > 16 then some .hold else none]

/-- A wait: `give` writes the result of a satisfied lane; a tile whose word has not moved parks (log 48). -/
def waitEff (a : BitVec 7) (o : BitVec 5) (dest : WaitDest) (give : DWord → Nat → Warp → Warp) (d : Dev) : Dev :=
  (tileHeads d).foldl (fun d1 h =>
    let off := offMS d a o 8 h
    let gen := fieldN (d.vr (reg a + 1) h) 0 6
    let x := scr64 d.curGrp off
    let t := h / tileSize d
    (if dawMoved x gen then (l1DropWr d1 d.cur.core).modGrp d.cur.gid (fun g => { g with wrote := false }) else d1).modCur (fun w =>
      if dawMoved x gen then (tileLanes d d.active t).foldl (fun w l => give x l w) w
      else (tileLanes d d.cur.lanes t).foldl (fun w l => w.modFibre l (fun fb =>
        { fb with park := .word off gen (if d.active.getLsbD l then dest else .pred 0) })) w)) d

/-- `SWAIT`. -/
def execSwait (f : FmtSwait) (s : State) : Host.Outcome State Fault Refusal :=
  s.run (word (Instr.swait f).props (waitCheck f.a f.o)
    (fun _ d => waitEff f.a f.o (.pred f.p.toNat)
      (fun x l w => w.modFibre l (fun fb => fb.setPred f.p.toNat (dawFault x))) d))

/-- `WAITW`. -/
def execWaitw (f : FmtM) (s : State) : Host.Outcome State Fault Refusal :=
  s.run (word (Instr.waitw f).props (waitCheck f.a f.o)
    (fun _ d =>
      let r := d.cur.base * 16 + reg f.d
      let d1 := waitEff f.a f.o (.pair r) (fun x l w => (w.setPhys r l (loWord x)).setPhys (r + 1) l (hiWord x)) d
      d1.modCur (fun w => (zeroed d (reg f.d) 2).foldl (fun w p => w.setPhys (p.1 / 32) (p.1 % 32) p.2) w)))

/-! ### The vertical FIFO (R258, R259) -/

/-- The warp is the one its group's FIFO binds (R169). -/
def fifoBound (d : Dev) : Bool := d.curGrp.fifo && d.curWarp.idx + 1 == d.curGrp.slots.length
/-- FIFO with its detail (R381). -/
def fifoCheck (which : Nat) (d : Dev) : Option Raise :=
  if fifoBound d then none else some (own d .fifo (which + b2n d.curGrp.fifo * 4) 0 0)

/-- The oldest wait of a resident group's bound warp: its core and slot, and the wait (R169, R171). -/
def fifoWaiter (d : Dev) (gid : Nat) (push : Bool) : Option (Nat × Nat × FifoWait) :=
  match d.groups.find? gid with
  | none => none
  | some g =>
    let s := (g.slots.getLast?).getD 0
    ((d.warp g.core s).fifoQ.find? (fun x => x.push == push)).map (fun x => (g.core, s, x))

/-- The lanes of a wait run again. -/
def fifoWake (w : Warp) (x : FifoWait) : Warp :=
  ({ w with fifoQ := w.fifoQ.filter (fun y => !(y.seq == x.seq)) } : Warp).onLanes x.lanes
    (fun f => { f with park := .running, age := 0 })

/-- A popped entry in the registers of the lanes that asked for it. -/
def fifoTake (w : Warp) (x : FifoWait) (en : List Word) : Warp :=
  let w := (lanesOf x.active).foldl (fun w l => w.setPhys x.dst l (en.getD l 0)) w
  if x.z then (lanesOf (x.lanes &&& ~~~x.active)).foldl (fun w l => w.setPhys x.dst l 0) w else w

/-- Parked pushes and pops of one direction complete while they can, in the order they parked, on the direction as it
stood before this cycle (R259). -/
def fifoServe (col dir : Nat) : Nat → Dev → Dev
  | 0, d => d
  | n + 1, d =>
    match (d.col col).holders with
    | none => d
    | some (ga, gb) =>
      match fifoWaiter d (if dir = 0 then gb else ga) false, (d.col col).front dir with
      | some (c, s, x), some (en, _) =>
        let d := d.modCol col (fun k => k.take dir)
        let d := d.modWarp c s (fun w => fifoTake (fifoWake w x) x en)
        fifoServe col dir n (l1DropWr d c)
      | _, _ =>
        match fifoWaiter d (if dir = 0 then ga else gb) true with
        | some (c, s, x) =>
          if (d.col col).free dir then
            let d := d.modCol col (fun k => k.give dir x.entry)
            fifoServe col dir n (d.modWarp c s (fun w => fifoWake w x))
          else d
        | none => d

/-- A cycle of the vertical FIFOs begins: entries pushed and slots freed in the last one count, and parked batches
that they serve go on (R259). -/
def fifoCycle (d : Dev) : Dev :=
  d.cols.foldl (fun d p =>
    if p.2.holders.isNone ∨ p.2.fresh = [] ∧ p.2.gone = [] then d
    else
      let d := d.modCol p.1 (fun c => { c with fresh := [], gone := [] })
      fifoServe p.1 1 64 (fifoServe p.1 0 64 d)) d

/-- The batch parks on a direction (R259). -/
def fifoPark (d : Dev) (push : Bool) (dst : Nat) (z : Bool) (entry : List Word) : Dev :=
  d.modCur (fun w =>
    let x : FifoWait := { seq := w.fifoSeq, push := push, lanes := d.cur.lanes, active := d.active, dst := dst, z := z, entry := entry }
    ({ w with fifoQ := w.fifoQ ++ [x], fifoSeq := w.fifoSeq + 1 } : Warp).onLanes d.cur.lanes
      (fun f => { f with park := .fifo x.seq }))

/-- `VFPUSH`. -/
def execVfpush (f : FmtA) (s : State) : Host.Outcome State Fault Refusal :=
  s.run (word (Instr.vfpush f).props (fun _ d => fifoCheck 0 d)
    (fun _ d =>
      if d.active = 0 then d
      else
        let dir := d.cur.core % 2
        let entry := (List.range 32).map (fun l => if d.active.getLsbD l then d.vr (reg f.a) l else 0)
        fifoServe (d.cur.core / 2) dir 64 (fifoPark d true 0 false entry)))

/-- A pop that no lane takes part in: under Z the batch's registers are zeroed (R185, R236). -/
def popNone (d : Dev) (dst : Nat) : Dev := d.modCur (fun w => (zeroed d dst 1).foldl (fun w p => w.setPhys (p.1 / 32) (p.1 % 32) p.2) w)

/-- `VFPOP`. -/
def execVfpop (f : FmtD) (s : State) : Host.Outcome State Fault Refusal :=
  s.run (word (Instr.vfpop f).props (fun _ d => fifoCheck 1 d)
    (fun _ d =>
      if d.active = 0 then popNone d (reg f.d)
      else fifoServe (d.cur.core / 2) (1 - d.cur.core % 2) 64
        (fifoPark d false (d.cur.base * 16 + reg f.d) d.zeroing [])))

/-- `VFTRY`. -/
def execVftry (f : FmtTry) (s : State) : Host.Outcome State Fault Refusal :=
  s.run (word (Instr.vftry f).props (fun _ d => fifoCheck 2 d)
    (fun _ d =>
      if d.active = 0 then popNone d (reg f.d)
      else
        let col := d.cur.core / 2
        let dir := 1 - d.cur.core % 2
        match (d.col col).front dir with
        | some (en, _) =>
          let d1 := d.modCol col (fun c => c.take dir)
          let x : FifoWait :=
            { seq := 0, push := false, lanes := d.cur.lanes, active := d.active, dst := d.cur.base * 16 + reg f.d, z := d.zeroing, entry := [] }
          let d2 := (d1.modCur (fun w => fifoTake w x en)).putPred d.active f.p.toNat (fun _ => true)
          l1DropWr d2 d.cur.core
        | none => d.putPred d.active f.p.toNat (fun _ => false)))

end Sys2Proof.Machine
end

