-- ==== Sys2Proof/Machine/MStream.lean ====
section
/-! DEFINITION.  Class 4: the words of a matrix stream, as the sequencer issues them (R311 to R333,
R336).  Issue has left the stream's PC at the next word. -/

namespace Sys2Proof.Machine

/-- A q register; q0 reads 0 (R56). -/
def Stream.qr (st : Stream) (n : Nat) : DWord := if n = 0 then 0 else st.q.get n 0
/-- A write of a q register; q0 discards it (R314). -/
def Stream.setQ (st : Stream) (n : Nat) (v : DWord) : Stream :=
  if n = 0 then st else { st with q := SMap.put st.q n v 0 }
/-- The reading of a stream that is not there. -/
def noStream : Stream := { pc := 0 }
/-- The stream of the issue in progress. -/
def Dev.strm (d : Dev) : Stream := d.curGrp.stream.getD noStream
/-- A q register as the word reads it. -/
def Dev.q (d : Dev) (n : BitVec 4) : DWord := d.strm.qr n.toNat
/-- A result of a sequencer word. -/
def Dev.putQ (d : Dev) (n : BitVec 4) (v : DWord) : Dev := d.modStream d.cur.gid (fun st => st.setQ n.toNat v)
/-- Scratch size of the issuing group (SCRSIZE). -/
def Dev.scrSize (d : Dev) : Nat := d.curGrp.shape.scratch

/-! ### Readiness (R311, R314, R315) -/

/-- A q register has a pending write: of an `MWLD` still queued, or of an `MLDQ`. -/
def qPending (d : Dev) (gid r : Nat) : Bool :=
  r != 0 && (((d.grp gid).stream.getD noStream).queue.any (fun m => m.kind == .mwld && m.dst == r) ||
    d.agenda.any (fun e => match e with
      | .loadReturn p => p.strm.any (fun x => x.1 == gid && x.2.1 == r)
      | _ => false))
/-- A word whose q registers have a pending write is not ready. -/
def qHold (d : Dev) (rs : List (BitVec 4)) : Option Raise :=
  if rs.any (fun r => qPending d d.cur.gid r.toNat) then some .hold else none
/-- An engine operation whose queue is full is not ready. -/
def roomHold (d : Dev) : Option Raise := if d.strm.queue.length ≥ 8 then some .hold else none

/-! ### ENGINE_MATRIX (R336) -/

/-- The acc field of a class-4 word, 0 for words without one. -/
def accOf (w : Word) : Nat :=
  let op := fieldN w 22 6
  if op ≤ 1 ∨ op = 3 ∨ op = 4 ∨ op = 5 then fieldN w 12 10 else 0
/-- TDET0 of ENGINE_MATRIX. -/
def mxDetail (w : Word) (reason qreg : Nat) (async : Bool) : Nat :=
  reason + b2n async * 2 ^ 8 + fieldN w 22 6 * 2 ^ 10 + qreg * 2 ^ 16 + accOf w * 2 ^ 20
/-- ENGINE_MATRIX at the word: a REASON, the q register and the address concerned. -/
def engineMatrix (d : Dev) (reason : Nat) (q : BitVec 4) (addr : DWord) : Raise :=
  ownAt d .engineMatrix (mxDetail d.cur.word reason q.toNat false) addr
/-- ENGINE_MATRIX when a condition holds. -/
def mxIf (d : Dev) (c : Bool) (reason : Nat) (q : BitVec 4) (addr : Nat) : Option Raise :=
  if c then some (engineMatrix d reason q (BitVec.ofNat 64 addr)) else none

/-! ### Translation at issue (R316) -/

/-- A range in pieces that end at 128-byte boundaries: offset and length; an empty range has none. -/
def lineParts (va len : Nat) : List (Nat × Nat) :=
  let b := va % 128
  if len = 0 then [] else (List.range ((b + len + 127) / 128)).map (fun i =>
    let lo := 128 * i - b
    (lo, min len (128 * (i + 1) - b) - lo))

/-- The pieces of one access of the engine, each with its address and what it resolves to; a piece with no target, or
whose walk meets a lost line, fails when its access is made (R337). -/
def mxPieces (d : Dev) (k : AKind) (va : DWord) (len : Nat) : List (DWord × Nat × Except MErr (Target × List ADSet)) :=
  (lineParts va.toNat len).map (fun p =>
    (va + BitVec.ofNat 64 p.1, p.2,
      match resolve d d.who va len p.1 p.2 k (d.opt 1) with
      | .error (.data s pa) => .ok (.fail s pa, [])
      | r => r))

/-- REASON of a delivered translation fault or window check. -/
def mxReason (va : DWord) (x : MErr) : Nat :=
  match x with
  | .xlate .. => 7
  | .prot 4 => if windowOf va.toNat = 1 then 4 else 8
  | .graph .. => 13
  | .align _ => 3
  | _ => 8

/-- What the accesses of a word raise at issue: a delivered fault, or the pages on which the stream
parks. -/
def mxXlate (d : Dev) (k : AKind) (q : BitVec 4) (rs : List (DWord × Nat)) : Option Raise :=
  let es : List (DWord × MErr) := rs.flatMap (fun r => (mxPieces d k r.1 r.2).filterMap (fun p => match p.2.2 with
    | .error x => some (p.1, x)
    | .ok _ => none))
  let replay := d.curCtx.ctxcfg.getLsbD 0
  match es.find? (fun p => p.2 != .moving && !(replay && p.2.replayable.isSome)) with
  | some (va, .unlogged pa) => let (c, d0, d1, d2) := (MErr.unlogged pa).cause 0 0 va; some (own d c d0 d1 d2)
  | some (va, .link pa) => let (c, d0, d1, d2) := (MErr.link pa).cause 0 0 va; some (.cause 5 c d0 d1 d2 d.cur.word pa)
  | some (va, x) => some (engineMatrix d (mxReason va x) q va)
  | none =>
    if es.isEmpty then none
    else if es.any (fun p => p.2 == .moving) then some .hold
    else some (.replay (es.filterMap (fun p => p.2.replayable.map (fun (va, r, l, pte) =>
      ⟨va, 5, r, l, pte, .engineMatrix, mxDetail d.cur.word (mxReason p.1 p.2) q.toNat false, (loWord p.1).toNat, (hiWord p.1).toNat⟩))))

/-- The targets of an access. -/
def mxTargets (d : Dev) (k : AKind) (va : DWord) (len : Nat) : List (Target × Nat) :=
  (mxPieces d k va len).filterMap (fun p => match p.2.2 with
    | .ok (t, _) => some (t, p.2.1)
    | .error _ => none)
/-- What translating the accesses leaves behind (R90, R91). -/
def mxTouch (d : Dev) (k : AKind) (rs : List (DWord × Nat)) : Dev :=
  rs.foldl (fun d1 r => (mxPieces d k r.1 r.2).foldl (fun d2 p => match p.2.2 with
    | .ok (_, ads) => touch d2 d.who.ctx ads
    | .error _ => d2) d1) d

/-! ### Engine operations -/

/-- An operation of the word in progress. -/
def newMop (d : Dev) (k : MopKind) : Mop :=
  { gid := d.cur.gid, core := d.cur.core, kind := k, pc := d.cur.wpc, word := d.cur.word, acc := accOf d.cur.word
    cls := d.strm.cls, ready := d.colClk (d.cur.core / 2) + 1, born := d.tick }
/-- The operation takes an entry of the queue; its tile, if it names one, has been named (R315, R398). -/
def enqueue (d : Dev) (m : Mop) (tile : Bool) : Dev :=
  let d := d.modStream d.cur.gid (fun st => { st with queue := st.queue ++ [m] })
  d.modGrp d.cur.gid (fun g => if tile && !g.tiles.contains m.acc then { g with tiles := g.tiles ++ [m.acc] } else g)

/-- Rows m of a format word (R317). -/
def qfRows (qf : DWord) : Nat := 32 / 2 ^ fieldN qf 8 2
/-- Dense extent Kd of a sparsity code (R294). -/
def denseK (sp : Nat) : Nat := 64 * 2 ^ sp
/-- Bits of an element of a format code (R294, R318). -/
def elemBits (f : Nat) : Nat :=
  match f with
  | 0 | 1 => 16
  | 2 | 4 => 8
  | 3 => 6
  | _ => 4
/-- Bytes of a row of A. -/
def aRowBytes (qf : DWord) : Nat := denseK (fieldN qf 12 2) * elemBits (fieldN qf 0 4) / 8
/-- The B fields of a format word: [7:4], [11] and [13:12] (R317). -/
def bFields (qf : DWord) : Nat := fieldN qf 4 4 + fieldN qf 11 1 * 2 ^ 4 + fieldN qf 12 2 * 2 ^ 5
/-- The combinations that raise OPERAND for a B operand (R319, R322). -/
def badB (qf : DWord) : Bool :=
  let bf := fieldN qf 4 4
  let sp := fieldN qf 12 2
  let bs := qf.getLsbD 11
  decide (bf > 6) || sp == 3 || (decide (bf ≥ 5) && (sp != 0 || bs)) || (bs && sp == 2)

/-- The pin a live handle names (R291). -/
def livePin (st : Stream) (h : DWord) : Option (Nat × Pin) :=
  let k := fieldN h 0 5
  let p := st.pins.get k {}
  if h.getLsbD 32 && p.gen == fieldN h 16 16 && !p.entries.isEmpty then some (k, p) else none

/-- The weight-buffer entry that a pin slot holds, as its column keeps it. -/
def pinEntry (d : Dev) (core : Nat) (p : Pin) : Option WEntry := (d.col (core / 2)).wbuf.find? (p.entries.headD 0)

/-- The B fields of an entry's tag. -/
def WEntry.fields (w : WEntry) : Nat := w.tag.fields

/-- The B fields of a tag as a format word has them (R292). -/
def WTag.format (t : WTag) : DWord :=
  BitVec.ofNat 64 (t.fields % 16 * 2 ^ 4 + t.fields / 16 % 2 * 2 ^ 11 + t.fields / 32 % 4 * 2 ^ 12)

/-- The checks of `MMA` and `MMAS` (R319). -/
def mmaCheck (f : FmtMMA) (s : Bool) (d : Dev) : Option Raise :=
  let qa := d.q f.x
  let qf := d.q f.f
  let m := qfRows qf
  let ro := fieldN qf 16 5
  let aoff := fieldN qa 0 19
  let pitch := fieldN qa 19 16
  let soff := fieldN qa 35 19
  let arr := fieldN qf 24 19
  let bs := qf.getLsbD 11
  let size := d.scrSize
  firstRaise [qHold d [f.x, f.w, f.f], roomHold d,
    mxIf d (fieldN qa 54 10 != 0) 1 f.x 0,
    mxIf d (decide (fieldN qf 0 4 > 4) || badB qf || qf.getLsbD 15 || fieldN qf 21 3 != 0 ||
      fieldN qf 43 21 != 0) 1 f.f 0,
    mxIf d (ro % m != 0 || decide (ro > 32 - m)) 2 f.f 0,
    mxIf d (aoff % 16 != 0) 3 f.x aoff,
    mxIf d (pitch % 16 != 0) 3 f.x (aoff + pitch),
    mxIf d (bs && soff % 2 != 0) 3 f.x soff,
    mxIf d (s && arr % 8 != 0) 3 f.f arr,
    mxIf d (decide (aoff + (m - 1) * pitch + aRowBytes qf > size)) 4 f.x aoff,
    mxIf d (bs && decide (soff + 2 * m * (denseK (fieldN qf 12 2) / 32) > size)) 4 f.x soff,
    mxIf d (s && decide (arr + 8 > size)) 4 f.f arr,
    (match livePin d.strm (d.q f.w) with
      | none => some (engineMatrix d 5 f.w 0)
      | some (_, p) =>
        match pinEntry d d.cur.core p with
        | none => some (engineMatrix d 5 f.w 0)
        | some w => if w.fields = bFields qf then none else some (engineMatrix d 6 f.f 0))]

/-- `MMA` and `MMAS`: the operation joins the queue, and naming the handle counts as a use of its pin
(R291, R320). -/
def mmaIssue (f : FmtMMA) (k : MopKind) (d : Dev) : Dev :=
  match livePin d.strm (d.q f.w) with
  | none => d
  | some (n, p) =>
    let m := { newMop d k with qa := d.q f.x, qf := d.q f.f, entry := p.entries.headD 0 }
    let d := d.modStream d.cur.gid (fun st => { st with pins := st.pins.set n { p with used := st.seq + 1 }, seq := st.seq + 1 })
    enqueue d m true

/-- `MMA`. -/
def execMma (f : FmtMMA) (s : State) : Host.Outcome State Fault Refusal :=
  s.run (word (Instr.mma f).props (fun _ d => mmaCheck f false d) (fun _ d => mmaIssue f .mma d))
/-- `MMAS`. -/
def execMmas (f : FmtMMA) (s : State) : Host.Outcome State Fault Refusal :=
  s.run (word (Instr.mmas f).props (fun _ d => mmaCheck f true d) (fun _ d => mmaIssue f .mmas d))

/-- Bytes of a tile's values and metadata, and of its scales (R294). -/
def tileBytes (qf : DWord) : Nat :=
  let bf := fieldN qf 4 4
  let sp := fieldN qf 12 2
  256 * elemBits bf + (if bf = 5 then 256 else if bf = 6 then 128 else if sp = 0 then 0 else 4 * denseK sp)
def scaleBytes (qf : DWord) : Nat := if qf.getLsbD 11 then 2 * denseK (fieldN qf 12 2) else 0

/-- q[qx] is read only under block scaling (R322). -/
def mwldScaled (d : Dev) (f : FmtMwld) : Bool := (d.q f.f).getLsbD 11
/-- The extents that `MWLD` reads: the stored tile, and its scales if it has them. -/
def mwldReads (d : Dev) (f : FmtMwld) : List (DWord × Nat) :=
  (d.q f.s, tileBytes (d.q f.f)) :: (if mwldScaled d f then [(d.q f.x, scaleBytes (d.q f.f))] else [])

/-- `MWLD` (R322): the tile is pinned when the operation leaves the queue. -/
def execMwld (f : FmtMwld) (s : State) : Host.Outcome State Fault Refusal :=
  s.run (word (Instr.mwld f).props
    (fun _ d =>
      let src := d.q f.s
      let sc := d.q f.x
      firstRaise [qHold d ([f.s, f.f, f.d] ++ (if mwldScaled d f then [f.x] else [])), roomHold d,
        mxIf d (badB (d.q f.f)) 1 f.f 0,
        mxIf d (src.toNat % 128 != 0) 3 f.s src.toNat,
        mxIf d (mwldScaled d f && sc.toNat % 64 != 0) 3 f.x sc.toNat,
        mxXlate d .read f.s ((mwldReads d f).take 1),
        mxXlate d .read f.x ((mwldReads d f).drop 1)])
    (fun _ d =>
      let m := { newMop d .mwld with
        qa := d.q f.s, qf := d.q f.f, qx := (if mwldScaled d f then d.q f.x else 0), dst := f.d.toNat, new := f.n.getLsbD 0
        parts := (mwldReads d f).map (fun r => mxTargets d .read r.1 r.2) }
      enqueue (mxTouch d .read (mwldReads d f)) m false))

/-- `MZERO`. -/
def execMzero (f : FmtAcc) (s : State) : Host.Outcome State Fault Refusal :=
  s.run (word (Instr.mzero f).props (fun _ d => roomHold d) (fun _ d => enqueue d (newMop d .mzero) true))

/-- `MLACC` (R323). -/
def execMlacc (f : FmtLacc) (s : State) : Host.Outcome State Fault Refusal :=
  s.run (word (Instr.mlacc f).props
    (fun _ d =>
      let off := fieldN (d.q f.s) 0 19
      firstRaise [qHold d [f.s], roomHold d, mxIf d (off % 128 != 0) 3 f.s off,
        mxIf d (decide (off + 4096 > d.scrSize)) 4 f.s off])
    (fun _ d => enqueue d { newMop d .mlacc with qa := d.q f.s } true))

/-! ### `MDRAIN` (R324) -/

/-- Fields of the options word. -/
def qoFmt (o : DWord) : Nat := fieldN o 0 3
def qoPitch (o : DWord) : Nat := fieldN o 12 16
def qoAoff (o : DWord) : Nat := fieldN o 28 19
def qoRows (o : DWord) : Nat := 32 / 2 ^ fieldN o 48 2
def qoRow (o : DWord) : Nat := fieldN o 50 5
/-- Bytes of a drained element. -/
def qoSize (o : DWord) : Nat :=
  match qoFmt o with
  | 0 | 6 | 7 => 4
  | 1 | 2 => 2
  | _ => 1
/-- The rows of a drain and their scale containers: addresses and lengths. -/
def drainRows (dst o : DWord) : List (DWord × Nat) :=
  let is := (List.range (qoRows o)).map (fun i => qoRow o + i)
  is.map (fun i => (dst + BitVec.ofNat 64 (i * qoPitch o), 32 * qoSize o)) ++
    (if o.getLsbD 10 then is.map (fun i => (dst + BitVec.ofNat 64 (32 * qoPitch o + 2 * i), 2)) else [])
/-- The kind of a drain's access. -/
def drainKind (o : DWord) : AKind := if o.getLsbD 6 then .atomic else .write

/-- A scratch destination holds the arrival word. -/
def drainOverlap (dst o : DWord) : Bool :=
  windowOf dst.toNat == 1 && (drainRows dst o).any (fun r =>
    let a := r.1.toNat % 2 ^ 40
    decide (a < qoAoff o + 8 ∧ qoAoff o < a + r.2))

/-- A scratch destination that passes SCRSIZE: its offset. -/
def drainRange (d : Dev) (dst o : DWord) : Option Nat :=
  if windowOf dst.toNat = 1 then
    ((drainRows dst o).find? (fun r => decide (r.1.toNat % 2 ^ 40 + r.2 > d.scrSize))).map (fun r => r.1.toNat % 2 ^ 40)
  else none

/-- The checks of `MDRAIN`, in the order that decides the reason. -/
def drainCheck (f : FmtDrain) (d : Dev) : Option Raise :=
  let dst := d.q f.d
  let o := d.q f.o
  let fmt := qoFmt o
  let scope := fieldN o 7 3
  let scaled := o.getLsbD 10
  let add := o.getLsbD 6
  firstRaise [qHold d [f.d, f.o], roomHold d,
    (if fieldN o 3 3 = 7 then some (emulateRaise d 10) else none),
    mxIf d (o.getLsbD 11 || fieldN o 55 9 != 0 || scope == 0 || decide (scope ≥ 6) ||
      (scaled && (fmt == 0 || decide (fmt ≥ 6))) || (add && ((decide (3 ≤ fmt) && decide (fmt ≤ 5)) || scaled)) ||
      decide (qoPitch o < 32 * qoSize o)) 1 f.o 0,
    mxIf d (qoRow o % qoRows o != 0) 2 f.o 0,
    mxIf d (dst.toNat % 32 != 0) 3 f.d dst.toNat,
    mxIf d (qoPitch o % 32 != 0) 3 f.o (qoPitch o),
    mxIf d (qoAoff o % 8 != 0) 3 f.o (qoAoff o),
    mxIf d (decide (qoAoff o + 8 > d.scrSize)) 4 f.o (qoAoff o),
    (drainRange d dst o).map (fun a => engineMatrix d 4 f.d (BitVec.ofNat 64 a)),
    mxIf d (drainOverlap dst o) 12 f.d (qoAoff o),
    mxXlate d (drainKind o) f.d (drainRows dst o)]

/-- `MDRAIN`: the rounding mode and seed are those of warp 0 now (R28, R325). -/
def execMdrain (f : FmtDrain) (s : State) : Host.Outcome State Fault Refusal :=
  s.run (word (Instr.mdrain f).props (fun _ d => drainCheck f d)
    (fun _ d =>
      let dst := d.q f.d
      let o := d.q f.o
      let w0 := d.warp d.cur.core (d.curGrp.slots.headD 0)
      let rm := if fieldN o 3 3 = 0 then fieldN w0.rmode 0 3 else fieldN o 3 3
      let m := { newMop d .mdrain with
        qd := dst, qo := o, rm := rm, seed := loWord w0.dseed
        parts := (drainRows dst o).map (fun r => mxTargets d (drainKind o) r.1 r.2)
        rows := (List.range (qoRows o)).map (fun i => qoRow o + i) }
      enqueue (mxTouch d (drainKind o) (drainRows dst o)) m true))

/-! ### Waits, signals and status (R327 to R330) -/

/-- The checks of a data-arrival operand. -/
def wordCheck (d : Dev) (q : BitVec 4) : Option Raise :=
  let off := fieldN (d.q q) 0 19
  firstRaise [mxIf d (off % 8 != 0) 3 q off, mxIf d (decide (off + 8 > d.scrSize)) 4 q off]

/-- `MWAIT`. -/
def execMwait (f : FmtMwait) (s : State) : Host.Outcome State Fault Refusal :=
  s.run (word (Instr.mwait f).props
    (fun _ d => firstRaise [qHold d [f.s, f.g, f.d], wordCheck d f.s])
    (fun _ d =>
      let off := fieldN (d.q f.s) 0 19
      let gen := fieldN (d.q f.g) 0 6
      let x := scr64 d.curGrp off
      if dawGen x != gen || dawFault x then d.putQ f.d (BitVec.ofNat 64 (b2n (dawFault x)))
      else d.modStream d.cur.gid (fun st => { st with park := .mwait off gen f.d.toNat })))

/-- `MSIG`. -/
def execMsig (f : FmtMsig) (s : State) : Host.Outcome State Fault Refusal :=
  s.run (word (Instr.msig f).props
    (fun _ d => firstRaise [qHold d [f.s], roomHold d, wordCheck d f.s])
    (fun _ d => enqueue d { newMop d .msig with qa := d.q f.s } false))

/-- `MFENCE`: held until every earlier operation has completed (R329). -/
def execMfence (f : FmtMfence) (s : State) : Host.Outcome State Fault Refusal :=
  s.run (word (Instr.mfence f).props
    (fun _ d => if d.strm.queue.isEmpty && d.strm.out.isEmpty then none else some .hold)
    (fun _ d => d))

/-- Operations that write a fold word (R330). -/
def MopKind.folds : MopKind → Bool
  | .mdrain | .msig => false
  | _ => true

/-- `MSTAT`: held until every earlier fold-word operation has completed; it joins them and every earlier operation of
the stream (R142, R330). -/
def execMstat (f : FmtStat) (s : State) : Host.Outcome State Fault Refusal :=
  s.run (word (Instr.mstat f).props
    (fun _ d => firstRaise [qHold d [f.d],
      if (d.strm.queue ++ d.strm.out).any (fun m => m.kind.folds) then some .hold else none])
    (fun _ d => (joinedOps d d.cur.gid).putQ f.d (BitVec.ofNat 64 (d.strm.fold + d.strm.opseq % 2 ^ 32 * 2 ^ 16))))

/-! ### Sequencer words (R331 to R333) -/

/-- `MLI`. -/
def execMli (f : FmtMI) (s : State) : Host.Outcome State Fault Refusal :=
  s.run (word (Instr.mli f).props (fun _ d => qHold d [f.q]) (fun _ d => d.putQ f.q (f.i.signExtend 64)))
/-- `MADDQ`. -/
def execMaddq (f : FmtAddq) (s : State) : Host.Outcome State Fault Refusal :=
  s.run (word (Instr.maddq f).props (fun _ d => qHold d [f.s, f.b, f.d])
    (fun _ d => d.putQ f.d (d.q f.s + d.q f.b + f.i.signExtend 64)))

/-- `MLDQ`: the result arrives later. -/
def execMldq (f : FmtLdq) (s : State) : Host.Outcome State Fault Refusal :=
  s.run (word (Instr.mldq f).props
    (fun _ d =>
      let off := fieldN (d.q f.s) 0 19 + 8 * f.o.toNat
      firstRaise [qHold d [f.s, f.d],
        mxIf d (fieldN (d.q f.s) 0 3 != 0) 3 f.s (fieldN (d.q f.s) 0 19),
        mxIf d (decide (off + 8 > d.scrSize)) 4 f.s off])
    (fun _ d =>
      let v := scr64 d.curGrp (fieldN (d.q f.s) 0 19 + 8 * f.o.toNat)
      d.post (.loadReturn { core := d.cur.core, slot := d.curGrp.slots.headD 0, strm := [(d.cur.gid, f.d.toNat, v)], due := d.clk d.cur.core + 6 })))

/-- The stream's PC. -/
def Dev.mpc (d : Dev) (t : DWord) : Dev := d.modStream d.cur.gid (fun st => { st with pc := t })

/-- `MLOOP`. -/
def execMloop (f : FmtLoop) (s : State) : Host.Outcome State Fault Refusal :=
  s.run (word (Instr.mloop f).props (fun _ d => qHold d [f.q])
    (fun _ d =>
      let v := d.q f.q - 1
      (d.putQ f.q v).mpc (if v ≠ 0 then branchTo d f.o else d.cur.next)))
/-- `MBRA`. -/
def execMbra (f : FmtMbra) (s : State) : Host.Outcome State Fault Refusal :=
  s.run (word (Instr.mbra f).props (fun _ d => qHold d [f.q])
    (fun _ d => d.mpc (if (d.q f.q != 0).xor (f.n.getLsbD 0) then branchTo d f.o else d.cur.next)))

/-- `MPRIO`. -/
def execMprio (f : FmtPrio) (s : State) : Host.Outcome State Fault Refusal :=
  s.run (word (Instr.mprio f).props
    (fun _ d => if f.k.toNat > d.strm.cls0 then some (engineMatrix d 11 0 0) else none)
    (fun _ d => d.modStream d.cur.gid (fun st => { st with cls := f.k.toNat })))

/-- `MEND`. -/
def execMend (s : State) : Host.Outcome State Fault Refusal :=
  s.run (word Instr.mend.props (fun _ _ => none)
    (fun _ d => streamSettle (d.modStream d.cur.gid (fun st => { st with ended := true })) d.cur.gid))

end Sys2Proof.Machine
end

