-- ==== Sys2Proof/Machine/VInt.lean ====
section
/-! DEFINITION.  Class 0, VINT: integer, bit-field and lane words (R184 to R196). -/

namespace Sys2Proof.Machine

/-- The signed and unsigned extensions of a word to 64 bits (R187). -/
def sx (a : Word) : DWord := a.signExtend 64
def zx (a : Word) : DWord := a.setWidth 64

/-- Leading zero bits, and bits set, of a value of any width (R188, R198). -/
def clzOf {n : Nat} (x : BitVec n) : Nat := ((List.range n).takeWhile (fun i => !x.getLsbD (n - 1 - i))).length
def popOf {n : Nat} (x : BitVec n) : Nat := ((List.range n).filter (fun i => x.getLsbD i)).length
/-- The lowest clear bit, or the width (R193, R198, R246). -/
def ffcOf {n : Nat} (x : BitVec n) : Nat := ((List.range n).takeWhile (fun i => x.getLsbD i)).length
/-- Clear bits set upward until the population reaches `k` (R192, R198). -/
def plset {n : Nat} (x : BitVec n) (k : Nat) : BitVec n :=
  let clear := ((List.range n).filter (fun i => !x.getLsbD i)).take (k - popOf x)
  clear.foldl (fun y i => y ||| (1#n <<< i)) x
/-- The bits of `a` under mask `b` inserted into `c` (R192, R198). -/
def binsOf {n : Nat} (a b c : BitVec n) : BitVec n := (c &&& ~~~b) ||| (a &&& b)
/-- Bit i moved to bit 31 - i (R188). -/
def brev (x : Word) : Word := (List.range 32).foldl (fun y i => if x.getLsbD i then y ||| (1#32 <<< (31 - i)) else y) 0
/-- The field of `a` that `b` names (R192). -/
def extrOf (a b : Word) : Word := (a >>> fieldN b 0 5) &&& BitVec.ofNat 32 (2 ^ min (fieldN b 8 6) 32 - 1)
/-- A one-word Boolean. -/
def boolW (b : Bool) : Word := if b then 1 else 0

/-- Signed and unsigned minimum and maximum. -/
def sminOf {n : Nat} (a b : BitVec n) : BitVec n := if b.slt a then b else a
def smaxOf {n : Nat} (a b : BitVec n) : BitVec n := if a.slt b then b else a
def zminOf {n : Nat} (a b : BitVec n) : BitVec n := if b.ult a then b else a
def zmaxOf {n : Nat} (a b : BitVec n) : BitVec n := if a.ult b then b else a

/-- The operation of `VRED` and `VSCAN`, and its identity (R196). -/
def redOp (sub : Nat) (a b : Word) : Word :=
  match sub with
  | 0 => a + b
  | 1 => sminOf a b
  | 2 => smaxOf a b
  | 3 => zminOf a b
  | 4 => zmaxOf a b
  | 5 => a &&& b
  | 6 => a ||| b
  | _ => a ^^^ b
def redId (sub : Nat) : Word :=
  match sub with
  | 1 => 0x7FFFFFFF
  | 2 => 0x80000000
  | 3 => 0xFFFFFFFF
  | 5 => 0xFFFFFFFF
  | _ => 0

/-- `VVOTE` over the lanes of a tile (R196). -/
def voteOf (sub : Nat) (val : Nat → Word) (ls : List Nat) : Word :=
  match sub with
  | 0 => boolW (ls.any (fun l => val l != 0))
  | 1 => boolW (ls.all (fun l => val l != 0))
  | 2 => maskOf (ls.filter (fun l => val l != 0))
  | _ => boolW (ls.all (fun l => val l == val (ls.headD 0)))

/-- `VADD.S32` (R187). -/
def execVaddS32 (f : FmtR) (s : State) : Host.Outcome State Fault Refusal :=
  s.run (vBinary (Instr.vaddS32 f).props f (fun a b => a + b))

/-- `VSUB.S32` (R187). -/
def execVsubS32 (f : FmtR) (s : State) : Host.Outcome State Fault Refusal :=
  s.run (vBinary (Instr.vsubS32 f).props f (fun a b => a - b))

/-- `VMUL.S32` (R187). -/
def execVmulS32 (f : FmtR) (s : State) : Host.Outcome State Fault Refusal :=
  s.run (vBinary (Instr.vmulS32 f).props f (fun a b => a * b))

/-- `VMULH.S32` (R187). -/
def execVmulhS32 (f : FmtR) (s : State) : Host.Outcome State Fault Refusal :=
  s.run (vBinary (Instr.vmulhS32 f).props f (fun a b => hiWord (sx a * sx b)))

/-- `VMULH.Z32` (R187). -/
def execVmulhZ32 (f : FmtR) (s : State) : Host.Outcome State Fault Refusal :=
  s.run (vBinary (Instr.vmulhZ32 f).props f (fun a b => hiWord (zx a * zx b)))

/-- `VMIN.S32` (R187). -/
def execVminS32 (f : FmtR) (s : State) : Host.Outcome State Fault Refusal :=
  s.run (vBinary (Instr.vminS32 f).props f (sminOf))

/-- `VMAX.S32` (R187). -/
def execVmaxS32 (f : FmtR) (s : State) : Host.Outcome State Fault Refusal :=
  s.run (vBinary (Instr.vmaxS32 f).props f (smaxOf))

/-- `VMIN.Z32` (R187). -/
def execVminZ32 (f : FmtR) (s : State) : Host.Outcome State Fault Refusal :=
  s.run (vBinary (Instr.vminZ32 f).props f (zminOf))

/-- `VMAX.Z32` (R187). -/
def execVmaxZ32 (f : FmtR) (s : State) : Host.Outcome State Fault Refusal :=
  s.run (vBinary (Instr.vmaxZ32 f).props f (zmaxOf))

/-- `VAND` (R187). -/
def execVand (f : FmtR) (s : State) : Host.Outcome State Fault Refusal :=
  s.run (vBinary (Instr.vand f).props f (fun a b => a &&& b))

/-- `VOR` (R187). -/
def execVor (f : FmtR) (s : State) : Host.Outcome State Fault Refusal :=
  s.run (vBinary (Instr.vor f).props f (fun a b => a ||| b))

/-- `VXOR` (R187). -/
def execVxor (f : FmtR) (s : State) : Host.Outcome State Fault Refusal :=
  s.run (vBinary (Instr.vxor f).props f (fun a b => a ^^^ b))

/-- `VANDN` (R187). -/
def execVandn (f : FmtR) (s : State) : Host.Outcome State Fault Refusal :=
  s.run (vBinary (Instr.vandn f).props f (fun a b => a &&& ~~~b))

/-- `VSHL` (R187). -/
def execVshl (f : FmtR) (s : State) : Host.Outcome State Fault Refusal :=
  s.run (vBinary (Instr.vshl f).props f (fun a b => if b.toNat ≥ 32 then 0 else a <<< b.toNat))

/-- `VSHR` (R187). -/
def execVshr (f : FmtR) (s : State) : Host.Outcome State Fault Refusal :=
  s.run (vBinary (Instr.vshr f).props f (fun a b => if b.toNat ≥ 32 then 0 else a >>> b.toNat))

/-- `VSAR` (R187). -/
def execVsar (f : FmtR) (s : State) : Host.Outcome State Fault Refusal :=
  s.run (vBinary (Instr.vsar f).props f (fun a b => a.sshiftRight (min b.toNat 31)))

/-- `VMAD.S32` (R187). -/
def execVmadS32 (f : FmtR) (s : State) : Host.Outcome State Fault Refusal :=
  s.run (vTernary (Instr.vmadS32 f).props f (fun a b c => a * b + c))

/-- `VADDI` (R188). -/
def execVaddi (f : FmtI) (s : State) : Host.Outcome State Fault Refusal :=
  s.run (vUnary (Instr.vaddi f).props (reg f.d) (reg f.a) (fun a => a + f.i.signExtend 32))

/-- `VMOVI` (R188). -/
def execVmovi (f : FmtL) (s : State) : Host.Outcome State Fault Refusal :=
  s.run (vUnary (Instr.vmovi f).props (reg f.d) 0 (fun _ => f.i.signExtend 32))

/-- `VMOV vd, va` (R188). -/
def execVmovV (f : FmtDA) (s : State) : Host.Outcome State Fault Refusal :=
  s.run (vUnary (Instr.vmovV f).props (reg f.d) (reg f.a) id)

/-- `VMOV vd, sN` (R188). -/
def execVmovS (f : FmtDS) (s : State) : Host.Outcome State Fault Refusal :=
  s.run (plain (Instr.vmovS f).props (fun d => d.putVec (reg f.d) 1 (fun _ _ => loWord (d.sr (reg f.b)))))

/-- `VCLZ` (R188). -/
def execVclz (f : FmtDA) (s : State) : Host.Outcome State Fault Refusal :=
  s.run (vUnary (Instr.vclz f).props (reg f.d) (reg f.a) (fun a => BitVec.ofNat 32 (clzOf a)))

/-- `VPOPC` (R188). -/
def execVpopc (f : FmtDA) (s : State) : Host.Outcome State Fault Refusal :=
  s.run (vUnary (Instr.vpopc f).props (reg f.d) (reg f.a) (fun a => BitVec.ofNat 32 (popOf a)))

/-- `VBREV` (R188). -/
def execVbrev (f : FmtDA) (s : State) : Host.Outcome State Fault Refusal :=
  s.run (vUnary (Instr.vbrev f).props (reg f.d) (reg f.a) brev)

/-- `VLANEID` (R188). -/
def execVlaneid (f : FmtD) (s : State) : Host.Outcome State Fault Refusal :=
  s.run (plain (Instr.vlaneid f).props (fun d => d.putVec (reg f.d) 1 (fun l _ => BitVec.ofNat 32 l)))

/-- `VADD.S64` (R189). -/
def execVaddS64 (f : FmtR) (s : State) : Host.Outcome State Fault Refusal :=
  s.run (vWide (Instr.vaddS64 f).props (reg f.d) (fun d l => d.vpair (reg f.a) l + d.bOp64 f.b f.s l))

/-- `VMUL.WIDE.S32` (R189). -/
def execVmulWideS32 (f : FmtR) (s : State) : Host.Outcome State Fault Refusal :=
  s.run (vWide (Instr.vmulWideS32 f).props (reg f.d) (fun d l => sx (d.vr (reg f.a) l) * sx (d.bOp f.b f.s l)))

/-- `VMAD.WIDE.Z32` (R189). -/
def execVmadWideZ32 (f : FmtR) (s : State) : Host.Outcome State Fault Refusal :=
  s.run (vWide (Instr.vmadWideZ32 f).props (reg f.d) (fun d l =>
    zx (d.vr (reg f.a) l) * zx (d.bOp f.b f.s l) + d.vpair (d.accField (reg f.d)) l))

/-- `VCMP` (R190). -/
def execVcmp (f : FmtP) (s : State) : Host.Outcome State Fault Refusal :=
  s.run (vCompare (Instr.vcmp f).props (reg f.p) (fun d l => condCc f.k.toNat (d.vr (reg f.a) l) (d.bOp f.b f.s l)))

/-- `VCMPI` (R190). -/
def execVcmpi (f : FmtPI) (s : State) : Host.Outcome State Fault Refusal :=
  s.run (vCompare (Instr.vcmpi f).props (reg f.p) (fun d l => condCc f.k.toNat (d.vr (reg f.a) l) (f.i.signExtend 32)))

/-- `VSEL` (R191). -/
def execVsel (f : FmtR) (s : State) : Host.Outcome State Fault Refusal :=
  s.run (plain (Instr.vsel f).props (fun d => d.putLanes d.cur.lanes (reg f.d) 1 (fun l _ =>
    if (d.opW.fibre l).pred (if d.mp = 0 then 1 else d.mp) then d.vr (reg f.a) l else d.bOp f.b f.s l)))

/-- `VBINS` (R192). -/
def execVbins (f : FmtR) (s : State) : Host.Outcome State Fault Refusal :=
  s.run (vTernary (Instr.vbins f).props f binsOf)

/-- `VPLSET` (R192). -/
def execVplset (f : FmtR) (s : State) : Host.Outcome State Fault Refusal :=
  s.run (vBinary (Instr.vplset f).props f (fun a b => plset a (min b.toNat 32)))

/-- `VEXTR` (R192). -/
def execVextr (f : FmtR) (s : State) : Host.Outcome State Fault Refusal :=
  s.run (vBinary (Instr.vextr f).props f extrOf)

/-- `VFFCS` (R193). -/
def execVffcs (f : FmtDA) (s : State) : Host.Outcome State Fault Refusal :=
  s.run (plain (Instr.vffcs f).props (fun d =>
    let x (l : Nat) : DWord := d.vpair (reg f.a) l
    let y (l : Nat) : DWord := if ffcOf (x l) < 64 then x l ||| (1#64 <<< ffcOf (x l)) else x l
    (d.putLanes d.active (reg f.a) 2 (fun l j => if j = 0 then loWord (y l) else hiWord (y l))).putVec (reg f.d) 1
      (fun l _ => BitVec.ofNat 32 (ffcOf (x l)))))

/-- `VSHFL.IDX` (R194). -/
def execVshflIdx (f : FmtR) (s : State) : Host.Outcome State Fault Refusal :=
  s.run (vLane (Instr.vshflIdx f).props (reg f.d) (reg f.a) (fun d l =>
    tileBase d l + (d.bOp f.b f.s l).toNat % tileSize d))

/-- `VSHFL.XOR` (R194). -/
def execVshflXor (f : FmtR) (s : State) : Host.Outcome State Fault Refusal :=
  s.run (vLane (Instr.vshflXor f).props (reg f.d) (reg f.a) (fun d l =>
    l ^^^ ((d.bOp f.b f.s l).toNat % tileSize d)))

/-- `VSHFL.UP` (R194). -/
def execVshflUp (f : FmtR) (s : State) : Host.Outcome State Fault Refusal :=
  s.run (vLane (Instr.vshflUp f).props (reg f.d) (reg f.a) (fun d l =>
    let n := (d.bOp f.b f.s l).toNat
    if n ≤ l - tileBase d l then l - n else l))

/-- `VSHFL.DN` (R194). -/
def execVshflDn (f : FmtR) (s : State) : Host.Outcome State Fault Refusal :=
  s.run (vLane (Instr.vshflDn f).props (reg f.d) (reg f.a) (fun d l =>
    let n := (d.bOp f.b f.s l).toNat
    if l + n < tileBase d l + tileSize d then l + n else l))

/-- `VBCAST` (R194). -/
def execVbcast (f : FmtBcast) (s : State) : Host.Outcome State Fault Refusal :=
  s.run (vLane (Instr.vbcast f).props (reg f.d) (reg f.a) (fun d l => tileBase d l + f.i.toNat % tileSize d))

/-- `VMOVS` (R195). -/
def execVmovs (f : FmtMovs) (s : State) : Host.Outcome State Fault Refusal :=
  s.run (plain (Instr.vmovs f).props (fun d =>
    if d.active = 0 then d else d.putSr (reg f.d) (zx (d.vr (reg f.a) f.l.toNat))))

/-- `VVOTE` (R196). -/
def execVvote (f : FmtRS) (s : State) : Host.Outcome State Fault Refusal :=
  s.run (vTile (Instr.vvote f).props (reg f.d) (fun d ls _ => voteOf f.u.toNat (d.vr (reg f.a)) ls))

/-- `VRED` (R196). -/
def execVred (f : FmtRS) (s : State) : Host.Outcome State Fault Refusal :=
  s.run (vTile (Instr.vred f).props (reg f.d) (fun d ls _ =>
    ls.foldl (fun x l => redOp f.u.toNat x (d.vr (reg f.a) l)) (redId f.u.toNat)))

/-- `VSCAN` (R196). -/
def execVscan (f : FmtRS) (s : State) : Host.Outcome State Fault Refusal :=
  s.run (vTile (Instr.vscan f).props (reg f.d) (fun d ls l =>
    let k := f.u.toNat % 8
    let before := ls.filter (fun m => if f.u.getLsbD 3 then decide (m < l) else decide (m ≤ l))
    before.foldl (fun x m => redOp k x (d.vr (reg f.a) m)) (redId k)))

end Sys2Proof.Machine
end

