-- ==== Sys2Proof/Machine/Scl.lean ====
section
/-! DEFINITION.  Class 7, SCL: scalar arithmetic, scalar memory, special registers, walkers, and the
access to a faulting frame and to accumulators (R197 to R208). -/

namespace Sys2Proof.Machine

/-! ### Arithmetic (R198, R199, R200) -/

def execSadd (f : FmtS) (s : State) : Host.Outcome State Fault Refusal :=
  s.run (sBinary (Instr.sadd f).props f (fun a b => a + b))
def execSsub (f : FmtS) (s : State) : Host.Outcome State Fault Refusal :=
  s.run (sBinary (Instr.ssub f).props f (fun a b => a - b))
def execSmul (f : FmtS) (s : State) : Host.Outcome State Fault Refusal :=
  s.run (sBinary (Instr.smul f).props f (fun a b => a * b))
def execSand (f : FmtS) (s : State) : Host.Outcome State Fault Refusal :=
  s.run (sBinary (Instr.sand f).props f (fun a b => a &&& b))
def execSor (f : FmtS) (s : State) : Host.Outcome State Fault Refusal :=
  s.run (sBinary (Instr.sor f).props f (fun a b => a ||| b))
def execSxor (f : FmtS) (s : State) : Host.Outcome State Fault Refusal :=
  s.run (sBinary (Instr.sxor f).props f (fun a b => a ^^^ b))
/-- `SSHL`: 0 from a count of 64 on. -/
def execSshl (f : FmtS) (s : State) : Host.Outcome State Fault Refusal :=
  s.run (sBinary (Instr.sshl f).props f (fun a b => if b.toNat ≥ 64 then 0 else a <<< b.toNat))
def execSshr (f : FmtS) (s : State) : Host.Outcome State Fault Refusal :=
  s.run (sBinary (Instr.sshr f).props f (fun a b => if b.toNat ≥ 64 then 0 else a >>> b.toNat))
/-- `SSAR`: the count is at most 63. -/
def execSsar (f : FmtS) (s : State) : Host.Outcome State Fault Refusal :=
  s.run (sBinary (Instr.ssar f).props f (fun a b => a.sshiftRight (min b.toNat 63)))
def execSmin (f : FmtS) (s : State) : Host.Outcome State Fault Refusal :=
  s.run (sBinary (Instr.smin f).props f sminOf)
def execSmax (f : FmtS) (s : State) : Host.Outcome State Fault Refusal :=
  s.run (sBinary (Instr.smax f).props f smaxOf)
def execSminz (f : FmtS) (s : State) : Host.Outcome State Fault Refusal :=
  s.run (sBinary (Instr.sminz f).props f zminOf)
def execSmaxz (f : FmtS) (s : State) : Host.Outcome State Fault Refusal :=
  s.run (sBinary (Instr.smaxz f).props f zmaxOf)
/-- `SADDI`. -/
def execSaddi (f : FmtSI) (s : State) : Host.Outcome State Fault Refusal :=
  s.run (plain (Instr.saddi f).props (fun d => d.putSr (reg f.d) (d.sr (reg f.a) + f.i.signExtend 64)))
/-- `SLI`. -/
def execSli (f : FmtSL) (s : State) : Host.Outcome State Fault Refusal :=
  s.run (plain (Instr.sli f).props (fun d => d.putSr (reg f.d) (f.i.signExtend 64)))
/-- `SLIH`. -/
def execSlih (f : FmtSL) (s : State) : Host.Outcome State Fault Refusal :=
  s.run (plain (Instr.slih f).props (fun d => d.putSr (reg f.d) ((d.sr (reg f.d) <<< 16) ||| f.i.setWidth 64)))
/-- `SCMP`: the predicate of every fibre of the batch. -/
def execScmp (f : FmtSC) (s : State) : Host.Outcome State Fault Refusal :=
  s.run (plain (Instr.scmp f).props (fun d =>
    d.putPred d.cur.lanes f.p.toNat (fun _ => condCc f.k.toNat (d.sr (reg f.a)) (d.sr (reg f.b)))))
/-- `SFFCS`: the lowest clear bit of s[a] is set and its number returned. -/
def execSffcs (f : FmtSA) (s : State) : Host.Outcome State Fault Refusal :=
  s.run (plain (Instr.sffcs f).props (fun d =>
    let x := d.sr (reg f.a)
    let n := ffcOf x
    (if n < 64 then d.putSr (reg f.a) (x ||| (1#64 <<< n)) else d).putSr (reg f.d) (BitVec.ofNat 64 n)))
/-- `SPLSET`. -/
def execSplset (f : FmtS) (s : State) : Host.Outcome State Fault Refusal :=
  s.run (sBinary (Instr.splset f).props f (fun a b => plset a (min b.toNat 64)))
/-- `SBINS`. -/
def execSbins (f : FmtS) (s : State) : Host.Outcome State Fault Refusal :=
  s.run (plain (Instr.sbins f).props (fun d =>
    d.putSr (reg f.d) (binsOf (d.sr (reg f.a)) (d.sr (reg f.b)) (d.sr (reg f.d)))))
/-- `SPOPC`. -/
def execSpopc (f : FmtSA) (s : State) : Host.Outcome State Fault Refusal :=
  s.run (plain (Instr.spopc f).props (fun d => d.putSr (reg f.d) (BitVec.ofNat 64 (popOf (d.sr (reg f.a))))))
/-- `SCLZ`. -/
def execSclz (f : FmtSA) (s : State) : Host.Outcome State Fault Refusal :=
  s.run (plain (Instr.sclz f).props (fun d => d.putSr (reg f.d) (BitVec.ofNat 64 (clzOf (d.sr (reg f.a))))))

/-! ### Scalar memory (R201) -/

/-- The access of format SM. -/
def accSM (f : FmtSM) (size : Nat) (d : Dev) : Acc :=
  { lane := 0, va := d.sr (reg f.a) + BitVec.ofNat 64 size * f.o.signExtend 64, total := size }

/-- A scalar load: the data returns; a register that a read clears answers in its own step. -/
def scalarLoad (p : Props) (f : FmtSM) (size : Nat) : Op :=
  word p (fun e d => memCheck e d .read [accSM f size d])
    (fun e d =>
      let (d1, v, rc) := readAcc e d d d.who (accSM f size d)
      match rc with
      | [] => postSca d1 (reg f.d) (BitVec.ofNat 64 v) (missLines d [accSM f size d]).length (dueAt d [accSM f size d])
      | (_, n, o) :: _ =>
        match regClears o { idx := 0, off := 0, lo := 8 * (o % 8), bits := 8 * n, core := d.cur.core, slot := d.cur.slot
                            sca := some (reg f.d) } with
        | some ev => d1.post ev
        | none => d1)

/-- `SLD.64`. -/
def execSld64 (f : FmtSM) (s : State) : Host.Outcome State Fault Refusal :=
  s.run (scalarLoad (Instr.sld64 f).props f 8)
/-- `SLD.32`: zero-extended. -/
def execSld32 (f : FmtSM) (s : State) : Host.Outcome State Fault Refusal :=
  s.run (scalarLoad (Instr.sld32 f).props f 4)
/-- `SST.64`: d names the source. -/
def execSst64 (f : FmtSM) (s : State) : Host.Outcome State Fault Refusal :=
  s.run (word (Instr.sst64 f).props (fun e d => memCheck e d .write [accSM f 8 d])
    (fun e d => writeAcc e d d d.who (accSM f 8 d) (d.sr (reg f.d)).toNat false))

/-! ### Special registers (R64, R202) -/

/-- Producer and consumer of the vertical FIFO (R169). -/
def fifoHolder (d : Dev) : Bool := d.curGrp.fifo && d.curWarp.idx + 1 == d.curGrp.slots.length
/-- VFFREE and VFAVAIL (R170). -/
def fifoWord (d : Dev) (dir n : Nat) : DWord := if fifoHolder d then BitVec.ofNat 64 (n + 32 + dir * 64) else 0

/-- The largest age of a warp's batches in units of 256 cycles; a parked fibre, or one that an open level keeps
halted, has none (R162, R384). -/
def ageUnits (w : Warp) : Nat :=
  min 0xFFFF ((w.fib.foldl (fun m p =>
    if p.2.live && p.2.park == .running && w.mayIssue.getLsbD p.1 then max m p.2.age else m) 0) / 256)

/-- A special register as `SRD` reads it. -/
def sregRead (e : Env) (d : Dev) (n : Nat) : DWord :=
  let w := d.opW
  let g := d.curGrp
  let t := g.task
  let col := d.col (d.cur.core / 2)
  let side := d.cur.core % 2
  match n with
  | 0x00 => BitVec.ofNat 64 d.cur.core
  | 0x01 => BitVec.ofNat 64 (w.idx + b2n w.copy * 32 + d.cur.slot * 64 + d.cur.slot % 4 * 2 ^ 12 + g.gidx * 2 ^ 16 +
      (max 1 g.gang.length - 1) * 2 ^ 19 + g.seq % 2 ^ 32 * 2 ^ 32)
  | 0x02 => BitVec.ofNat 64 (t.tx + t.ty * 2 ^ 16)
  | 0x03 => BitVec.ofNat 64 (t.pass + t.cls * 2 ^ 8 + t.flags * 2 ^ 16 +
      (match d.launches.find? g.launch with
        | some l => l.seq.toNat % 2 ^ 32
        | none => 0) * 2 ^ 32)
  | 0x04 => if t.flags.testBit 2 then d.curGrp.taskVa else t.arg
  | 0x05 => BitVec.ofNat 64 g.shape.scratch
  | 0x08 => w.rmode
  | 0x09 => w.partn
  | 0x0A => w.wctl
  | 0x0B => w.watchdog ||| BitVec.ofNat 64 (ageUnits w * 2 ^ 32)
  | 0x0C => fifoWord d side (16 - col.stood side)
  | 0x0D => fifoWord d (1 - side) (col.stood (1 - side))
  | 0x0E => w.wflags
  | 0x0F => w.dseed
  | 0x10 => BitVec.ofNat 64 (e.hb d.curTower)
  | 0x11 => BitVec.ofNat 64 (d.clk d.cur.core - (d.core d.cur.core).cycle0)
  | 0x1A => w.tcause
  | 0x1B => w.tdet0
  | 0x1C => w.tdet1
  | 0x1D => w.tdet2
  | 0x1E => w.tpc
  | 0x1F => w.tskid
  | 0x28 => w.emupc
  | 0x29 => w.emumask
  | 0x2A => w.emudepth
  | 0x2B => w.emuctl
  | 0x30 => w.pidx
  | 0x38 => g.mxcfg
  | 0x39 => (match g.stream with
      | some st => BitVec.ofNat 64 (st.fold + st.opseq % 2 ^ 32 * 2 ^ 16)
      | none => 0)
  | _ => if 0x20 ≤ n ∧ n ≤ 0x27 then w.ow.getD (n - 0x20) 0 else ctxGet d.curCtx d.curTower n

/-- R33, R164, R301, R382: values that a register's own map turns down. -/
def sregBad (n : Nat) (v : DWord) : Bool :=
  match n with
  | 0x08 => fieldN v 0 3 == 7
  | 0x09 => decide (fieldN v 0 3 > 4)
  | 0x18 => v.toNat % 12 != 0
  | 0x19 => v.toNat % 12 != 0
  | 0x38 => decide (fieldN v 2 2 ≥ 2)
  | _ => false

/-- A special register written: reserved bits cleared, RO registers unchanged, each under its own rule. -/
def sregWrite (d : Dev) (n : Nat) (v : DWord) : Dev :=
  match n with
  | 0x08 => d.modCur (fun w => { w with
      rmode := (v &&& 0x1F1F07) ||| (if fieldN v 0 3 = 0 then 1 else 0) })
  | 0x09 => d.modCur (fun w => { w with partn := v &&& 7 })
  | 0x0A => d.modCur (fun w => { w with
      wctl := (v &&& 1) ||| BitVec.ofNat 64 (max 4 (fieldN v 4 4) * 16) })
  | 0x0B => d.modCur (fun w => { w with watchdog := v &&& 0xFFFF })
  | 0x0F => d.modCur (fun w => { w with dseed := v &&& 0xFFFFFFFF })
  | 0x1A => d.modCur (fun w => { w with tcause := v &&& 0x77F1F })
  | 0x1E => d.modCur (fun w => { w with tpc := v })
  | 0x2B => d.modCur (fun w => { w with emuctl := v &&& 15 })
  | 0x38 => d.modGrp d.cur.gid (fun g => { g with
      mxcfg := (v &&& 0xF) ||| BitVec.ofNat 64 (min 10 (fieldN v 4 4) * 16) })
  | _ => d.modCtx d.curGrp.ctx (fun c => ctxSet c n v)

/-- EMULATE for a value the register turns down. -/
def sregCheck (d : Dev) (n : Nat) (v : DWord) : Option Raise := if sregBad n v then some (emulateRaise d 10) else none

/-- `SRD`: of `RMODE`, once every earlier VFLT word of the warp has completed (R37); of `MXFOLD`, a join of the
group's engine operations (R136, R142). -/
def execSrd (f : FmtSR) (s : State) : Host.Outcome State Fault Refusal :=
  s.run (word (Instr.srd f).props
    (fun _ d => if f.n = 0x08 ∧ d.opW.flagsDue ≠ [] then some .hold else none)
    (fun e d =>
      let d1 := d.putSr (reg f.s) (sregRead e d f.n.toNat)
      if f.n = 0x39 then joinedOps d1 d.cur.gid else d1))
/-- `SWR`. -/
def execSwr (f : FmtSR) (s : State) : Host.Outcome State Fault Refusal :=
  s.run (word (Instr.swr f).props (fun _ d => sregCheck d f.n.toNat (d.sr (reg f.s)))
    (fun _ d => sregWrite d f.n.toNat (d.sr (reg f.s))))
/-- `SXCH`. -/
def execSxch (f : FmtSR) (s : State) : Host.Outcome State Fault Refusal :=
  s.run (word (Instr.sxch f).props (fun _ d => sregCheck d f.n.toNat (d.sr (reg f.s)))
    (fun e d => (sregWrite d f.n.toNat (d.sr (reg f.s))).putSr (reg f.s) (sregRead e d f.n.toNat)))

/-! ### Walkers (R204 to R206) -/

/-- A descriptor of 64 bytes as eight dwords. -/
def descOf (v : Nat) : List DWord := (List.range 8).map (fun i => BitVec.ofNat 64 (v / 2 ^ (64 * i)))
/-- A descriptor as one number. -/
def Walker.num (w : Walker) : Nat := w.desc.foldr (fun x n => x.toNat + 2 ^ 64 * n) 0
/-- Bits of a number. -/
def bitsN (v lo w : Nat) : Nat := v / 2 ^ lo % 2 ^ w
/-- COUNT and STRIDE of a dimension: 1 and 0 from NDIM upward. -/
def walkCount (v i : Nat) : Nat := if i < bitsN v 80 3 then bitsN v (128 + 96 * i) 32 else 1
def walkStride (v i : Nat) : DWord := if i < bitsN v 80 3 then BitVec.ofNat 64 (bitsN v (160 + 96 * i) 64) else 0

/-- A descriptor that `WBIND` refuses. -/
def walkBad (v : Nat) : Bool :=
  let nd := bitsN v 80 3
  nd == 0 || decide (nd > 4) || bitsN v 64 16 == 0 || bitsN v 83 45 != 0 ||
    (List.range nd).any (fun i => bitsN v (128 + 96 * i) 32 == 0)

/-- The address of the current index. -/
def Walker.addr (w : Walker) : DWord :=
  let v := w.num
  BitVec.ofNat 64 (bitsN v 0 64) + BitVec.ofNat 64 (bitsN v 64 16) *
    (List.range 4).foldl (fun s i => s + BitVec.ofNat 64 (w.idx.getD i 0) * walkStride v i) 0

/-- One step of the indices: the new indices and the dimensions that wrapped. -/
def walkStep (v : Nat) (idx : List Nat) : Nat → Nat → List Nat × Nat
  | 0, _ => (idx, 0)
  | n + 1, k =>
    let i := idx.getD k 0 + 1
    if i < walkCount v k then (idx.set k i, 0)
    else
      let (idx', m) := walkStep v (idx.set k 0) n (k + 1)
      (idx', m + 2 ^ k)

/-- The digits of a linear index, dimension 0 least significant. -/
def walkDigits (v t : Nat) : Nat → Nat → List Nat
  | 0, _ => []
  | n + 1, k => (t % max 1 (walkCount v k)) :: walkDigits v (t / max 1 (walkCount v k)) n (k + 1)

/-- WFLAGS with a walker's WRAP nibble and BOUND bit. -/
def wflagsSet (x : DWord) (w wrap : Nat) : DWord :=
  (x &&& ~~~(15#64 <<< (4 * w))) ||| (BitVec.ofNat 64 wrap <<< (4 * w)) ||| (1#64 <<< (32 + w))

/-- The access of `WBIND`. -/
def wbindAcc (f : FmtSW) (d : Dev) : Acc := { lane := 0, va := d.sr (reg f.s), total := 64 }

/-- `WBIND`. -/
def execWbind (f : FmtSW) (s : State) : Host.Outcome State Fault Refusal :=
  s.run (word (Instr.wbind f).props
    (fun e d => firstRaise [
      (if (d.sr (reg f.s)).toNat % 64 ≠ 0 then raiseOf d 0 [(wbindAcc f d, .align 6)] else none),
      memCheck e d .read [wbindAcc f d],
      (if walkBad (readNow e d d (wbindAcc f d)).2 then some (emulateRaise d 10) else none)])
    (fun e d =>
      let (d1, v) := readNow e d d (wbindAcc f d)
      d1.modCur (fun w => { w with
        walkers := w.walkers.set f.w.toNat { desc := descOf v }
        wflags := wflagsSet w.wflags f.w.toNat 0 })))

/-- EMULATE of an unbound walker. -/
def boundCheck (d : Dev) (w : Nat) : Option Raise :=
  if d.opW.wflags.getLsbD (32 + w) then none else some (emulateRaise d 10)

/-- `WRD`. -/
def execWrd (f : FmtSW) (s : State) : Host.Outcome State Fault Refusal :=
  s.run (word (Instr.wrd f).props (fun _ d => boundCheck d f.w.toNat)
    (fun _ d =>
      let wk := d.curWarp.walkers.get f.w.toNat {}
      let (idx, m) := walkStep wk.num wk.idx 4 0
      (d.modCur (fun w => { w with
        walkers := w.walkers.set f.w.toNat { wk with idx := idx }
        wflags := wflagsSet w.wflags f.w.toNat m })).putSr (reg f.s) wk.addr))

/-- `WRST`. -/
def execWrst (f : FmtSW) (s : State) : Host.Outcome State Fault Refusal :=
  s.run (word (Instr.wrst f).props (fun _ d => boundCheck d f.w.toNat)
    (fun _ d =>
      let wk := d.curWarp.walkers.get f.w.toNat {}
      let v := wk.num
      let total := walkCount v 0 * walkCount v 1 * walkCount v 2 * walkCount v 3
      d.modCur (fun w => { w with
        walkers := w.walkers.set f.w.toNat { wk with idx := walkDigits v ((d.sr (reg f.s)).toNat % total) 4 0 }
        wflags := wflagsSet w.wflags f.w.toNat 0 })))

/-! ### The faulting frame (R207) -/

/-- The fibre of a lane as the frame holds it: the level's entry for a host lane, else the live one. -/
def frameFibre (w : Warp) (l : Nat) : Fibre :=
  match w.levels.head? with
  | some lv => if lv.host.getLsbD l then lv.lanes.get l {} else w.fibre l
  | none => w.fibre l

/-- A change of a lane's fibre in the frame. -/
def setFrameFibre (w : Warp) (l : Nat) (f : Fibre → Fibre) : Warp :=
  match w.levels with
  | lv :: r =>
    if lv.host.getLsbD l then { w with levels := { lv with lanes := lv.lanes.set l (f (lv.lanes.get l {})) } :: r }
    else w.modFibre l f
  | [] => w.modFibre l f

/-- The checks of `EMURD` and `EMUWR`. -/
def emuCheck (d : Dev) (a b : BitVec 6) (sub : Nat) (wr : Option (BitVec 6)) : Option Raise :=
  let w := d.opW
  let l := fieldN (d.sr (reg b)) 0 5
  let fb := frameFibre w l
  let win (reason r : Nat) : Raise := own d .regwin (l + reason * 32 + r % 512 * 256) (fb.base + fb.depth * 16) 0
  match w.levels.head? with
  | none => some (emulateRaise d 10)
  | some lv =>
    match sub with
    | 0 =>
      let r := fb.base * 16 + fieldN (d.sr (reg a)) 0 7
      if r ≥ w.nregs then some (win 5 r) else none
    | 4 =>
      match wr with
      | some sv =>
        let v := d.sr (reg sv)
        if fieldN v 4 4 > 8 ∨ fieldN v 0 4 * 16 ≥ w.nregs then some (win 6 (fieldN v 0 4 * 16)) else none
      | none => none
    | 5 => if lv.stream && lv.class4 then none else some (emulateRaise d 10)
    | _ => none

/-- What `EMURD` returns. -/
def emuRead (d : Dev) (a b sub : Nat) : DWord :=
  let w := d.opW
  let r := (d.sr a).toNat
  let l := fieldN (d.sr b) 0 5
  let fb := frameFibre w l
  match sub with
  | 0 => (w.phys (fb.base * 16 + r % 128) l).setWidth 64
  | 1 =>
    let n := r % 64
    if n ≥ 56 then ((w.levels.head?.map (fun lv => lv.s56.getD (n - 56) 0)).getD 0) else w.sr n
  | 2 => (fb.preds ||| 1).setWidth 64
  | 3 => (w.jm (r % 8)).setWidth 64
  | 4 => BitVec.ofNat 64 (fb.base + fb.depth * 16 + fb.stack.toNat * 256)
  | _ =>
    match d.curGrp.stream with
    | some st => if r % 16 = 0 then 0 else st.q.get (r % 16) 0
    | none => 0

/-- What `EMUWR` writes. -/
def emuWrite (d : Dev) (a b sub : Nat) (v : DWord) : Dev :=
  let r := (d.sr a).toNat
  let l := fieldN (d.sr b) 0 5
  match sub with
  | 0 => d.modCur (fun w => w.setPhys ((frameFibre d.opW l).base * 16 + r % 128) l (loWord v))
  | 1 =>
    let n := r % 64
    if n ≥ 56 then
      d.modCur (fun w => match w.levels with
        | lv :: rest => { w with levels := { lv with s56 := lv.s56.set (n - 56) v } :: rest }
        | [] => w)
    else d.modCur (fun w => w.setSr n v)
  | 2 => d.modCur (fun w => setFrameFibre w l (fun f => { f with preds := v.setWidth 16 &&& 0xFFFE }))
  | 3 => d.modCur (fun w => (w.setJm (r % 8) (loWord v)).releaseJoin (r % 8) (d.clk d.cur.core + 1))
  | 4 => d.modCur (fun w => setFrameFibre w l (fun f => { f with
      base := fieldN v 0 4, depth := fieldN v 4 4, stack := v.extractLsb' 8 32 }))
  | _ => d.modStream d.cur.gid (fun st =>
      if r % 16 = 0 then st else { st with q := SMap.put st.q (r % 16) v 0 })

/-- `EMURD`. -/
def execEmurd (f : FmtSU) (s : State) : Host.Outcome State Fault Refusal :=
  s.run (word (Instr.emurd f).props (fun _ d => emuCheck d f.a f.b f.u.toNat none)
    (fun _ d => d.putSr (reg f.d) (emuRead d (reg f.a) (reg f.b) f.u.toNat)))
/-- `EMUWR`. -/
def execEmuwr (f : FmtSU) (s : State) : Host.Outcome State Fault Refusal :=
  s.run (word (Instr.emuwr f).props (fun _ d => emuCheck d f.a f.b f.u.toNat (some f.d))
    (fun _ d => emuWrite d (reg f.a) (reg f.b) f.u.toNat (d.sr (reg f.d))))

/-! ### Accumulators (R208, R290) -/

/-- R290: a tile last written under another ASID is zeroed and takes the reader's tag. -/
def accTake (d : Dev) (core tile asid : Nat) : Dev :=
  if (d.core core).accTag.get tile 0 = asid then d
  else d.modCore core (fun c => { c with
    acc := c.acc.filter (fun p => !(p.1 / 1024 == tile)), accTag := c.accTag.set tile asid })

/-- The checks of `ACCRD` and `ACCWR`: the level, the range, and the stream's earlier operations. -/
def accCheck (d : Dev) (a b : BitVec 6) : Option Raise :=
  let ok := match d.opW.levels.head? with
    | some lv => lv.stream && lv.class4 && !lv.trap
    | none => false
  if !ok || decide ((d.sr (reg a)).toNat > 767) || decide ((d.sr (reg b)).toNat > 1023) then some (emulateRaise d 10)
  else match d.curGrp.stream with
    | some st => if st.queue.isEmpty && st.out.isEmpty then none else some .hold
    | none => none

/-- `ACCRD`. -/
def execAccrd (f : FmtS) (s : State) : Host.Outcome State Fault Refusal :=
  s.run (word (Instr.accrd f).props (fun _ d => accCheck d f.a f.b)
    (fun _ d =>
      let t := (d.sr (reg f.a)).toNat
      let d1 := accTake d d.cur.core t d.curAsid
      d1.putSr (reg f.d) (((d1.core d.cur.core).acc.get (t * 1024 + (d.sr (reg f.b)).toNat) 0).setWidth 64)))
/-- `ACCWR`. -/
def execAccwr (f : FmtS) (s : State) : Host.Outcome State Fault Refusal :=
  s.run (word (Instr.accwr f).props (fun _ d => accCheck d f.a f.b)
    (fun _ d =>
      let t := (d.sr (reg f.a)).toNat
      (accTake d d.cur.core t d.curAsid).modCore d.cur.core (fun c => { c with
        acc := SMap.put c.acc (t * 1024 + (d.sr (reg f.b)).toNat) (loWord (d.sr (reg f.d))) 0 })))

end Sys2Proof.Machine
end

