-- ==== Sys2Proof/Machine/Pergola.lean ====
section
/-! DEFINITION.  The matrix engine of a column and its merge buffer: operations leaving their queues, the
weight buffer, Kennel, entry and fold, results, drains and signals (R285 to R310, R315 to R328). -/

namespace Sys2Proof.Machine

/-! ### Completion and asynchronous faults -/

/-- The oldest fault a stream still has to deliver is delivered, unless a halt of its group is under way
(R316). -/
def asyncDeliver (e : Env) (d : Dev) (gid : Nat) : Dev :=
  match d.groups.find? gid with
  | none => d
  | some g =>
    match g.stream with
    | none => d
    | some st =>
      match st.faults with
      | [] => d
      | f :: r =>
        let halting := g.halt.isSome || g.saving || st.stopped
        if halting then d
        else
          let slot := g.slots.headD 0
          let rm := fieldN (d.warp g.core slot).rmode 0 3
          let fr : Frame :=
            { gid := gid, slot := slot, lanes := 0, stream := true, gpc := f.pc, wpc := f.pc, cause := .engineMatrix
              d0 := mxDetail f.word f.reason 0 true, d1 := (loWord f.addr).toNat, d2 := (hiWord f.addr).toNat
              ow := operandWindows f.word none 0 0 false rm, fromWord := false, class4 := true, streamPc := st.pc }
          let d := d.modStream gid (fun st => { st with faults := r })
          if g.killed then d else deliver e d fr

/-- An operation out of its queue changed. -/
def modOut (d : Dev) (gid id : Nat) (f : Mop → Mop) : Dev :=
  d.modStream gid (fun st => { st with out := st.out.map (fun m => if m.id = id then f m else m) })

/-- An operation has finished, with its fold word if it writes one. -/
def opDone (d : Dev) (gid id : Nat) (fold : Option Nat) : Dev :=
  streamSettle (modOut d gid id (fun m => { m with done := some fold })) gid

/-- An operation ends with an asynchronous fault and without a fold word (R316, R322). -/
def opFault (e : Env) (d : Dev) (m : Mop) (reason : Nat) (addr : DWord) : Dev :=
  let at_ := if reason = 10 then m.pc else addr
  let d := d.modStream m.gid (fun st => { st with
    faults := st.faults ++ [{ pc := m.pc, word := m.word, reason := reason, acc := m.acc, addr := at_ }] })
  opDone (asyncDeliver e d m.gid) m.gid m.id none

/-! ### Layers and timing (R286, R287, R296, R299) -/

/-- Frequency of layer Ln of a column (R434), as the previous cycle left it (R338). -/
def layerMhz (d : Dev) (col n : Nat) : Nat := d.seen.mhz.get (col * 4 + n) 0
/-- Layer Ln is present under a POLICY for an operation that enters now: gates and frequencies as the previous cycle
left them, failures as they are (R296, R297, R338). -/
def layerPresent (d : Dev) (col policy n : Nat) : Bool :=
  let k := col * 8 + 3 + n
  !d.seen.gated.contains k && !d.seen.gating.contains k && !d.mgmt.failed.contains k && !(policy == 1 && decide (layerMhz d col n < layerMhz d col 0))
/-- The set of present layers, bit n for Ln. -/
def presentMask (d : Dev) (col policy : Nat) : Nat :=
  (List.range 4).foldl (fun m n => m + b2n (layerPresent d col policy n) * 2 ^ n) 0
/-- Layers in a set. -/
def maskCount (m : Nat) : Nat := ((List.range 4).filter (fun n => m.testBit n)).length

/-- T of two operand formats (R286). -/
def stageTime (qf : DWord) : Nat :=
  let a := fieldN qf 0 4
  let b := fieldN qf 4 4
  if a = 3 ∧ b = 3 then 2 else if 2 ≤ a ∧ a ≤ 4 ∧ 2 ≤ b ∧ b ≤ 4 then 4 else 8
/-- T′: the longest stage over the present layers, in column cycles (R287). -/
def stageMax (d : Dev) (col mask t : Nat) : Nat :=
  (List.range 4).foldl (fun x n =>
    let f := layerMhz d col n
    if mask.testBit n ∧ f ≠ 0 then max x ((t * layerMhz d col 0 + f - 1) / f) else x) t
/-- I of R287 for P layers. -/
def entryInterval (strict : Bool) (p t : Nat) : Nat :=
  match p with
  | 4 => t
  | 3 => if strict then 2 * t else (22 * t + 15) / 16
  | 2 => 2 * t
  | _ => 4 * t

/-- PRESENT and MODE of a fold word (R299). -/
def foldBase (mask : Nat) (strict : Bool) : Nat := mask + b2n (!strict) * 2 ^ 4
/-- The fold word of an `MMA` with `n` contributors (R299). -/
def foldWord (mask : Nat) (strict : Bool) (n : Nat) : Nat :=
  let p := maskCount mask
  let fusion := if p = 4 then 0 else if strict then 1 else 2
  let ksplit := if strict ∨ p = 4 then 0 else 4 - p
  foldBase mask strict + fusion * 2 ^ 5 + b2n (decide (n ≥ 2)) * 2 ^ 7 + n * 2 ^ 8 + ksplit * 2 ^ 12

/-! ### The weight buffer (R291 to R294, R322) -/

/-- Groups with a stream on a column's two cores. -/
def colGroups (d : Dev) (col : Nat) : List (Nat × Group) := d.groups.filter (fun p => p.2.core / 2 == col && p.2.stream.isSome)

/-- A tile is pinned, or named by an operation that has not finished, an `MWLD` that has left its queue among them
(log 50). -/
def wPinned (d : Dev) (col first : Nat) : Bool :=
  (colGroups d col).any (fun p => match p.2.stream with
    | some st => st.pins.any (fun q => q.2.entries.contains first) ||
        (st.queue ++ st.out).any (fun m => (m.kind == .mma || m.kind == .mmas) && m.entry == first && m.done.isNone) ||
        st.out.any (fun m => m.kind == .mwld && m.entry == first && m.done.isNone)
    | none => false)

/-- Every entry of a tile dropped. -/
def wDrop (d : Dev) (col first : Nat) : Dev :=
  d.modCol col (fun c => { c with wbuf := c.wbuf.filter (fun p => !(p.2.first == first)) })

/-- A selected tile is dropped, or marked unmatchable while it is pinned (R293). -/
def wInvalidate (d : Dev) (col first : Nat) : Dev :=
  if wPinned d col first then
    d.modCol col (fun c => { c with wbuf := c.wbuf.map (fun p => (p.1, if p.2.first = first then { p.2 with unmatchable := true } else p.2)) })
  else wDrop d col first

/-- First physical address of a list of targets, for the shared form. -/
def partsPa (ps : List (Target × Nat)) : Option Nat :=
  match ps.head? with
  | some (.mem pa _, _) => some pa
  | _ => none

/-- The content tag (R292); a source outside memory has no PA and keeps the private form. -/
def wTag (d : Dev) (m : Mop) : WTag :=
  let c := d.ctx (d.grp m.gid).ctx
  let priv : WTag := { dom := c.asid.toNat, src := m.qa.toNat, fields := bFields m.qf, scale := m.qx.toNat }
  if c.mxshare.getLsbD 0 then
    match partsPa (m.parts.getD 0 []), (if m.qf.getLsbD 11 then partsPa (m.parts.getD 1 []) else some 0) with
    | some pa, some sa => { shared := true, dom := fieldN c.mxshare 8 8, src := pa, fields := bFields m.qf, scale := sa }
    | _, _ => priv
  else priv

/-- Entries a tile takes. -/
def wNeed (qf : DWord) : Nat := if tileBytes qf + scaleBytes qf > 4096 then 2 else 1

/-- Pins released, least recently named first, until a tile of `need` entries fits (R291). -/
def releaseFor (need : Nat) : Nat → SMap Pin → SMap Pin
  | 0, ps => ps
  | n + 1, ps =>
    let used := ps.filter (fun p => !p.2.entries.isEmpty)
    let sum := used.foldl (fun s p => s + p.2.entries.length) 0
    if used.length < 32 ∧ sum + need ≤ 32 then ps
    else match used with
      | [] => ps
      | x :: r =>
        let k := (r.foldl (fun b p => if p.2.used < b.2.used then p else b) x).1
        releaseFor need n (ps.modify k Pin.release)

/-- The matching valid entry (R292). -/
def wMatch (d : Dev) (col : Nat) (tag : WTag) : Option Nat :=
  (List.find? (fun (p : Nat × WEntry) => p.1 == p.2.first && p.2.tag == tag && !p.2.unmatchable) (d.col col).wbuf).map (·.1)

/-- The lowest-numbered unpinned entries (R292). -/
def wFree (d : Dev) (col : Nat) : List Nat :=
  (List.range 256).filter (fun k => match (d.col col).wbuf.find? k with
    | some w => !wPinned d col w.first
    | none => true)

/-- A tile filled: its entries taken, their contents evicted; answers the first entry. -/
def wFill (d : Dev) (col : Nat) (m : Mop) (tag : WTag) (ks : List Nat) : Dev × Nat :=
  let first := ks.headD 0
  let d := ks.foldl (fun d k => match (d.col col).wbuf.find? k with
    | some w => wDrop d col w.first
    | none => d) d
  let w : WEntry :=
    { tag := tag, va := m.qa, sva := m.qx, ctx := (d.grp m.gid).ctx, gid := m.gid, parts := m.parts
      readyAt := d.colClk col + 8 * ks.length, born := m.born, first := first }
  (d.modCol col (fun c => { c with wbuf := ks.foldl (fun b k => b.set k w) c.wbuf }), first)

/-- Entries of a tile, the first leading. -/
def wEntries (d : Dev) (col first : Nat) : List Nat :=
  first :: (((d.col col).wbuf.filter (fun p => p.2.first == first && p.1 != first)).map (·.1))

/-- `MWLD` finds its entry: the forced reload, the match or the fill, after the pins it must release.
None while too few entries are free. -/
def wBind (d : Dev) (m : Mop) : Option (Dev × Nat × Bool) :=
  let col := m.core / 2
  let tag := wTag d m
  let d := if m.new then (match wMatch d col tag with
    | some k => wInvalidate d col k
    | none => d) else d
  let hit := if m.new then none else wMatch d col tag
  let need := match hit with
    | some k => (wEntries d col k).length
    | none => wNeed m.qf
  let d := d.modStream m.gid (fun st => { st with pins := releaseFor need 33 st.pins })
  match hit with
  | some k => some (d, k, true)
  | none =>
    let ks := (wFree d col).take need
    if ks.length < need then none
    else let (d, k) := wFill d col m tag ks; some (d, k, false)

/-- The lowest free pin slot takes an entry; the slot and its handle. -/
def wPin (d : Dev) (m : Mop) (k : Nat) : Dev × DWord :=
  let es := wEntries d (m.core / 2) k
  let st := (d.grp m.gid).stream.getD noStream
  let n := ((List.range 32).find? (fun i => (st.pins.get i {}).entries.isEmpty)).getD 0
  let p := st.pins.get n {}
  let h := BitVec.ofNat 64 (n + p.gen * 2 ^ 16 + 2 ^ 32)
  (d.modStream m.gid (fun st => { st with
    pins := st.pins.set n { p with
      entries := es, tag := (((d.col (m.core / 2)).wbuf.find? k).map (·.tag)).getD {}, used := st.seq + 1 }
    seq := st.seq + 1 }), h)

/-- The targets of an engine's access as they stand now: those found at issue (R316), but of a transient tile where the
tile stands; none while it is being moved or produced again (R109, R360). -/
def partsNow (d : Dev) (gid : Nat) (k : AKind) (va : DWord) (ps : List (Target × Nat)) : Option (List (Target × Nat)) :=
  match d.groups.find? gid with
  | none => some ps
  | some g =>
    if windowOf va.toNat ≠ 3 ∨ ps.isEmpty then some ps
    else
      let len := ps.foldl (fun n p => n + p.2) 0
      let w : Who := { gid := gid, ctx := g.ctx, core := g.core }
      let rs := (lineParts va.toNat len).map (fun p => (p.2, resolve d w va len p.1 p.2 k (d.opt 1)))
      if rs.any (fun r => match r.2 with
        | .error .moving => true
        | _ => false) then none
      else
        let ts := rs.filterMap (fun r => match r.2 with
          | .ok (t, _) => some (t, r.1)
          | .error _ => none)
        some (if ts.length = rs.length then ts else ps)

/-- The entry with the targets of its fill as they stand now. -/
def WEntry.settled (d : Dev) (w : WEntry) : Option WEntry :=
  match partsNow d w.gid .read w.va (w.parts.getD 0 []), partsNow d w.gid .read w.sva (w.parts.getD 1 []) with
  | some a, some b => some { w with parts := [a, b] }
  | _, _ => none

/-- The data of a fill, or why it fails: REASON, address, and what the access met (R322). -/
def fillRead (e : Env) (d : Dev) (w : WEntry) : Except (Nat × DWord × Option MErr) Memory :=
  let read (ps : List (Target × Nat)) (va : DWord) (base : Nat) (m0 : Memory) : Except (Nat × DWord × Option MErr) Memory :=
    (ps.foldl (fun (acc : Nat × Except (Nat × DWord × Option MErr) Memory) p =>
      (acc.1 + p.2, match acc.2 with
        | .error x => .error x
        | .ok m =>
          match farErr e d .read p.1 p.2 with
          | some x => .error (9, va + BitVec.ofNat 64 acc.1, some x)
          | none => .ok (m.writeN (base + acc.1) p.2 (farRead e d w.gid 0 p.1 p.2).2))) (0, .ok m0)).2
  match read (w.parts.getD 0 []) w.va 0 [] with
  | .error x => .error x
  | .ok m =>
    match read (w.parts.getD 1 []) w.sva 0x2000 m with
    | .error x => .error x
    | .ok m =>
      let fmt := w.fields % 16
      let sp := w.fields / 32
      let base := 256 * elemBits fmt
      let ones (b : Nat) : Nat := ((List.range 8).filter (fun i => b.testBit i)).length
      let n := if sp = 1 then 4 else 2
      let ok := sp == 0 || decide (fmt ≥ 5) ||
        (List.range (4 * denseK sp)).all (fun i => ones (m.read (base + i)).toNat == n)
      if ok then .ok m else .error (10, w.va, none)

/-- What the reads of a fill leave behind. -/
def fillNote (e : Env) (d : Dev) (w : WEntry) : Dev :=
  w.parts.flatten.foldl (fun d p => (farRead e d w.gid (d.grp w.gid).core p.1 p.2).1) d

/-- A stream whose pins of a tile have been released. -/
def Stream.unpin (st : Stream) (first : Nat) : Stream :=
  { st with pins := st.pins.map (fun p => (p.1, if p.2.entries.contains first then p.2.release else p.2)) }

/-- A fill that fails: the entry becomes invalid, its pins are released, and every operation that waits
on it ends (R322). -/
def fillFail (e : Env) (d : Dev) (col first reason : Nat) (addr : DWord) : Dev :=
  let ops := (colGroups d col).flatMap (fun p => match p.2.stream with
    | some st => st.out.filter (fun m => m.done.isNone && m.arriveAt.isNone && m.entry == first && (m.kind == .mma || m.kind == .mmas || m.kind == .mwld))
    | none => [])
  let d := (colGroups d col).foldl (fun d p => d.modStream p.1 (fun st =>
    let mark (m : Mop) : Mop :=
      if m.entry = first ∧ (m.kind = .mma ∨ m.kind = .mmas) then { m with bad := some (reason, addr) } else m
    { st.unpin first with
      queue := st.queue.map mark, out := st.out.map (fun m => if m.arriveAt.isSome then mark m else m) })) d
  let uses (m : Contrib) : Bool := m.mop.entry == first
  let d := (wDrop d col first).modCol col (fun c => { c with
    kennel := c.kennel.filter (fun p => !p.2.members.any uses)
    ready := c.ready.filter (fun p => !p.2.members.any uses)
    flying := c.flying.filter (fun p => !p.2.members.any (fun m => uses m && m.mop.kind == .mwld)) })
  ops.foldl (fun d m => opFault e d m reason addr) d

/-- A fill ends (R322): its `MWLD` completes with its fold word, or it fails. -/
def fillComplete (e : Env) (d : Dev) (col k : Nat) : Dev :=
  match (d.col col).wbuf.find? k with
  | none => d
  | some w =>
    if !w.filling || w.first != k || decide (d.colClk col < w.readyAt) then d
    else match w.settled d with
    | none => d
    | some w => match fillRead e d w with
      | .ok data =>
        let d := (fillNote e d w).modCol col (fun c => { c with
          wbuf := c.wbuf.map (fun p => (p.1, if p.2.first = k then { p.2 with filling := false, data := data } else p.2)) })
        (colGroups d col).foldl (fun d p => match p.2.stream with
          | some st => (st.out.filter (fun m => m.kind == .mwld && m.entry == k && m.done.isNone && m.fills)).foldl
              (fun d m => opDone d p.1 m.id (some (foldBase (presentMask d col m.policy) m.strict))) d
          | none => d) d
      | .error (reason, addr, x) =>
        let d := match x with
          | some x => noteErr e d w.ctx x
          | none => d
        fillFail e d col k reason addr

/-- A fill's time has come, and its sources can be read. -/
def fillDue (d : Dev) (k : Nat) (w : WEntry) : Bool :=
  w.filling && w.first == k && decide (w.readyAt ≤ d.colClk k) && (w.settled d).isSome

/-- `WEIGHT_FILL_COMPLETE`. -/
def execWeightFillComplete (p : Ev.EngineRef) (s : State) : Host.Outcome State Fault Refusal :=
  s.run (fun e d => fillComplete e d p.col p.idx)

/-! ### Operations on tiles (R288, R315) -/

/-- An operation out of its queue still has an access to its tile to make. -/
def Mop.holdsTile (m : Mop) : Bool :=
  m.done.isNone && (match m.kind with
    | .mma | .mmas | .mzero | .mlacc => true
    | .mdrain => m.tile.isNone
    | _ => false)

/-- An earlier operation on a tile of a core is still to make its access, those of `skip` apart. -/
def tileBusy (d : Dev) (core tile id : Nat) (skip : List Nat) : Bool :=
  d.groups.any (fun p => p.2.core == core && (match p.2.stream with
    | some st => st.out.any (fun m => m.acc == tile && decide (m.id < id) && !skip.contains m.id && m.holdsTile)
    | none => false))

/-- ASID of an operation's context. -/
def Mop.asid (d : Dev) (m : Mop) : Nat := (d.ctx (d.grp m.gid).ctx).asid.toNat

/-! ### Kennel (R303 to R309) -/

/-- The merge key; the entry stands in it beside its tag (log 51).  Contexts share a slot only while both have SHARE and
XMERGE set and one DOMAIN (R308). -/
def kennelKey (d : Dev) (m : Mop) : List Nat :=
  let c := d.ctx (d.grp m.gid).ctx
  let tag := match (d.col (m.core / 2)).wbuf.find? m.entry with
    | some w => w.tag
    | none => {}
  let af := fieldN m.qf 0 4
  let path := b2n (af == 4 && fieldN m.qf 4 4 == 4 && !m.qf.getLsbD 11)
  [m.entry, af, bFields m.qf, path, b2n m.strict, m.policy] ++
    (if tag.shared then
      (if c.mxshare.getLsbD 0 && c.mxshare.getLsbD 1 then [1, tag.dom, fieldN c.mxshare 8 8]
       else [1, tag.dom, fieldN c.mxshare 8 8, 0, c.asid.toNat])
     else [0, c.asid.toNat])

/-- A slot becomes a stacked operation of the highest class among its contributors. -/
def kennelCommit (d : Dev) (col k : Nat) : Dev :=
  match (d.col col).kennel.find? k with
  | none => d
  | some s =>
    let o : EOp := { members := s.members, cls := s.members.foldl (fun c m => max c m.mop.cls) 0, born := d.colClk col }
    d.modCol col (fun c => { c with
      kennel := c.kennel.erase k, ready := c.ready.set c.nextId o, nextId := c.nextId + 1 })

/-- The oldest of the slots an operation fits. -/
def oldestSlot : List (Nat × KSlot) → Option (Nat × KSlot)
  | [] => none
  | x :: r => some (r.foldl (fun b p => if p.2.born < b.2.born then p else b) x)

/-- An operation's sample of the group makes it mergeable (R303); one that a save finds enters alone (R310). -/
def Mop.mergeable (m : Mop) : Bool := decide (m.arows.length < 32) && m.qf.getLsbD 14 && m.merge

/-- An operation arrives: it joins a slot, opens one, or goes to arbitration alone. -/
def kennelArrive (d : Dev) (m : Mop) : Dev :=
  let col := m.core / 2
  let c := d.col col
  let rows := m.arows.length
  let merge := m.mergeable && !(d.grp m.gid).saving
  let key := kennelKey d m
  let limit := d.colClk col + (if m.cls ≤ 5 then 2 ^ m.holde else 0)
  match (if merge then oldestSlot (c.kennel.filter (fun p => p.2.key == key && decide (p.2.rows + rows ≤ 32))) else none) with
  | some (k, s) =>
    let s' : KSlot := { s with
      members := s.members ++ [{ mop := m, row := s.rows }], rows := s.rows + rows, deadline := min s.deadline limit }
    let d := d.modCol col (fun c => { c with kennel := c.kennel.set k s' })
    if s'.rows = 32 then kennelCommit d col k else d
  | none =>
    match (if merge && decide (m.cls ≤ 5) then SMap.free c.kennel 16 else none) with
    | some k =>
      let s : KSlot := { key := key, members := [{ mop := m, row := 0 }], rows := rows, deadline := limit, born := c.nextId }
      d.modCol col (fun c => { c with kennel := c.kennel.set k s, nextId := c.nextId + 1 })
    | none =>
      let o : EOp := { members := [{ mop := m, row := 0 }], cls := m.cls, born := d.colClk col }
      d.modCol col (fun c => { c with ready := c.ready.set c.nextId o, nextId := c.nextId + 1 })

/-- `KENNEL_DEADLINE`. -/
def execKennelDeadline (p : Ev.EngineRef) (s : State) : Host.Outcome State Fault Refusal :=
  s.run (fun _ d => match (d.col p.col).kennel.find? p.idx with
    | some k => if k.deadline ≤ d.colClk p.col then kennelCommit d p.col p.idx else d
    | none => d)

/-! ### Leaving the queue (R315, R320 to R323) -/

/-- The head of a stream's queue may leave it. -/
def leaveReady (d : Dev) (gid : Nat) : Bool :=
  let g := d.grp gid
  match g.stream with
  | none => false
  | some st =>
    match st.queue with
    | [] => false
    | m :: _ =>
      decide (m.ready ≤ d.colClk (g.core / 2)) && decide (st.leave ≤ d.colClk (g.core / 2)) && !g.saving &&
        !(d.col (g.core / 2)).kennel.any (fun p => p.2.members.any (fun x => x.mop.gid == gid)) &&
        !st.out.any (fun x => x.arriveAt.isSome && x.mergeable) &&
        (m.kind != .mwld || (wBind d m).isSome)

/-- The A rows and their scales (R318). -/
def readRows (g : Group) (m : Mop) : Mop :=
  let is := List.range (qfRows m.qf)
  let nb := denseK (fieldN m.qf 12 2) / 32
  { m with
    arows := is.map (fun i => g.scratch.readN (fieldN m.qa 0 19 + i * fieldN m.qa 19 16) (aRowBytes m.qf))
    ascales := if m.qf.getLsbD 11 then is.map (fun i => g.scratch.readN (fieldN m.qa 35 19 + 2 * i * nb) (2 * nb)) else [] }

/-- An operation that no layer works on finishes `n` cycles from now. -/
def flyOp (d : Dev) (m : Mop) (n : Nat) : Dev :=
  let c := d.colClk (m.core / 2)
  let o : EOp := { members := [{ mop := m, row := 0 }], cls := m.cls, born := c, resultAt := c + n }
  d.modCol (m.core / 2) (fun c => { c with flying := c.flying.set m.id o })

/-- The operations of a core's streams, out of their queues and not finished. -/
def outOps (d : Dev) (core : Nat) : List Mop :=
  d.groups.flatMap (fun p => if p.2.core = core then (match p.2.stream with
    | some st => st.out.filter (fun m => m.done.isNone)
    | none => []) else [])

/-- Zeroings, loads and drains start once no earlier operation has still to access their tile (R315, R334): the
first two finish 2 and 8 cycles later, and a drain reads its tile. -/
def tileStart (d : Dev) (core : Nat) : Dev :=
  (outOps d core).foldl (fun d m =>
    if tileBusy d core m.acc m.id [] then d
    else match m.kind with
      | .mzero => if ((d.col (core / 2)).flying.find? m.id).isSome then d else flyOp d m 2
      | .mlacc => if ((d.col (core / 2)).flying.find? m.id).isSome then d else flyOp d m 8
      | .mdrain =>
        if m.tile.isSome then d
        else
          let d := accTake d core m.acc (m.asid d)
          let t := (d.core core).acc.filterMap (fun q => if q.1 / 1024 = m.acc then some (q.1 % 1024, q.2) else none)
          modOut d m.gid m.id (fun m => { m with tile := some t, ready := d.colClk (core / 2) })
      | _ => d) d

/-- The A read of an operation is complete. -/
def Mop.hasRead (d : Dev) (m : Mop) : Bool := match m.arriveAt with
  | some t => decide (t ≤ d.colClk (m.core / 2))
  | none => false

/-- An `MMAS` whose A read is complete makes its arrival (R321). -/
def mmasArrive (d : Dev) (gid : Nat) (m : Mop) : Dev :=
  if m.kind = .mmas ∧ m.hasRead d ∧ !m.told then
    arrive (modOut d gid m.id (fun x => { x with told := true })) gid (fieldN m.qf 24 19) 1
  else d

/-- An operation whose A read is complete goes to Kennel or arbitration, or ends with the fault of the fill it waited
for; it does so behind every earlier operation of its stream (R304, R309, R322). -/
def kennelOffer (e : Env) (d : Dev) (gid id : Nat) : Dev :=
  match (d.grp gid).stream.bind (fun st => st.out.find? (fun m => m.arriveAt.isSome)) with
  | none => d
  | some m =>
    if m.id ≠ id ∨ !m.hasRead d then d
    else
      let d := modOut d gid id (fun x => { x with arriveAt := none, arows := [], ascales := [] })
      match m.bad with
      | some (r, a) => opFault e d m r a
      | none => kennelArrive d { m with arriveAt := none }

/-- The operations of a stream whose A reads are complete: the arrivals of `MMAS`, then Kennel in the stream's order
(R309, R334). -/
def opArrive (e : Env) (d : Dev) (gid : Nat) : Dev :=
  let out := ((d.grp gid).stream.getD noStream).out
  out.foldl (fun d m => kennelOffer e d gid m.id) (out.foldl (fun d m => mmasArrive d gid m) d)

/-- The oldest operation of a stream leaves its queue and starts. -/
def opLeave (d : Dev) (gid : Nat) : Dev :=
  if !leaveReady d gid then d
  else
    let g := d.grp gid
    match g.stream with
    | none => d
    | some st =>
      match st.queue with
      | [] => d
      | m0 :: rest =>
        let col := g.core / 2
        let m := { m0 with
          id := (d.col col).nextId, strict := g.mxcfg.getLsbD 0, merge := g.mxcfg.getLsbD 1
          policy := fieldN g.mxcfg 2 2, holde := fieldN g.mxcfg 4 4 }
        let d := (d.modCol col (fun c => { c with nextId := c.nextId + 1 })).modStream gid (fun st => { st with
          queue := rest, leave := d.colClk col + 1 })
        let out (d : Dev) (m : Mop) : Dev := d.modStream gid (fun st => { st with out := st.out ++ [m] })
        match m.kind with
        | .mma | .mmas =>
          let m := readRows g m
          out d { m with arriveAt := some (d.colClk col + qfRows m.qf / 4) }
        | .mwld =>
          match wBind d m with
          | none => d
          | some (d, k, hit) =>
            let (d, h) := wPin d m k
            let d := d.modStream gid (fun st => st.setQ m.dst h)
            let m := { m with entry := k, fills := !hit }
            let d := out d m
            if hit then flyOp d m 2 else d
        | .mlacc => tileStart (out d { m with arows := [g.scratch.readN (fieldN m.qa 0 19) 4096] }) g.core
        | .mzero | .mdrain => tileStart (out d m) g.core
        | .msig => out d m

/-- `MATRIX_OP_DEQUEUE`. -/
def execMatrixOpDequeue (p : Ev.GroupRef) (s : State) : Host.Outcome State Fault Refusal :=
  s.run (fun _ d => opLeave d p.gid)

/-! ### Entry (R287, R296, R307) -/

/-- The numbers of an operation's contributors. -/
def EOp.ids (o : EOp) : List Nat := o.members.map (fun m => m.mop.id)
/-- The core that supplies it. -/
def EOp.core (o : EOp) : Nat := match o.members.head? with
  | some m => m.mop.core
  | none => 0
def EOp.first (o : EOp) : Option Mop := o.members.head?.map (·.mop)

/-- An operation may enter: it has waited a cycle, a layer is present, its tile is filled, the tile rule
holds, and no earlier operation of its streams has to enter again. -/
def entryReady (d : Dev) (col : Nat) (o : EOp) : Bool :=
  let c := d.col col
  match o.first with
  | none => false
  | some f =>
    decide (o.born < d.colClk col) && presentMask d col f.policy != 0 &&
      (match c.wbuf.find? f.entry with
        | some w => !w.filling
        | none => false) &&
      o.members.all (fun m => !tileBusy d m.mop.core m.mop.acc m.mop.id o.ids) &&
      !c.ready.any (fun p => p.2.again && p.2.members.any (fun m =>
        o.members.any (fun x => x.mop.gid == m.mop.gid && decide (m.mop.id < x.mop.id))))

/-- Each operation's record of how long it has been ready without a break (R307). -/
def readyTick (d : Dev) (col : Nat) : Dev :=
  if (d.col col).ready.isEmpty then d
  else d.modCol col (fun c => { c with ready := c.ready.map (fun p =>
    (p.1, { p.2 with since := if entryReady d col p.2 then (if p.2.since = 0 then d.colClk col else p.2.since) else 0 })) })

/-- R307: whether one ready operation is chosen before another. -/
def entryBefore (now_ lastCore : Nat) (a b : Nat × EOp) : Bool :=
  let aged (o : EOp) : Bool := decide (o.since ≠ 0 ∧ o.since + 16384 ≤ now_)
  let older := decide (a.2.born < b.2.born ∨ a.2.born = b.2.born ∧ a.1 < b.1)
  if aged a.2 || aged b.2 then aged a.2 && (!aged b.2 || older)
  else if a.2.cls ≠ b.2.cls then decide (b.2.cls < a.2.cls)
  else
    let other (o : EOp) : Bool := o.core + 1 != lastCore
    if other a.2 != other b.2 then other a.2 else older

/-- The operation that enters next. -/
def entryChoice (d : Dev) (col : Nat) : Option (Nat × EOp) :=
  let c := d.col col
  match c.ready.filter (fun p => entryReady d col p.2) with
  | [] => none
  | x :: r => some (r.foldl (fun b p => if entryBefore (d.colClk col) c.lastCore p b then p else b) x)

/-- The entry that is due: the operation, its sample of the layers, and the interval it needs; none while the
interval since the last entry has not passed. -/
def entryNow (d : Dev) (col : Nat) : Option (Nat × EOp × Nat × Nat) :=
  match entryChoice d col with
  | none => none
  | some (i, o) =>
    match o.first with
    | none => none
    | some f =>
      let c := d.col col
      let mask := presentMask d col f.policy
      let iv := entryInterval f.strict (maskCount mask) (stageMax d col mask (stageTime f.qf))
      if c.lastI ≠ 0 ∧ d.colClk col < c.lastEntry + max iv c.lastI then none else some (i, o, mask, iv)

/-- Its entry: the sample of the layers, the interval since the last entry, and when its results are due. -/
def engineEnter (d : Dev) (col k : Nat) : Dev :=
  match entryNow d col with
  | none => d
  | some (i, o, mask, iv) =>
    if i ≠ k then d
    else d.modCol col (fun c => { c with
      ready := c.ready.erase i
      flying := c.flying.set i { o with
        layers := mask, resultAt := d.colClk col + maskCount mask * iv + 6, again := false, since := 0
        stageAt := d.colClk col, stages := maskCount mask, iv := iv }
      lastEntry := d.colClk col, lastI := iv, lastCore := o.core + 1 })

/-- The stages of an operation that have not begun take `iv` cycles each from now on (R287). -/
def EOp.retime (o : EOp) (iv now_ : Nat) : EOp :=
  if o.iv = 0 ∨ o.iv = iv then o
  else
    let run := min o.stages ((now_ - o.stageAt + o.iv - 1) / o.iv)
    let at_ := o.stageAt + run * o.iv
    let left := o.stages - run
    { o with stageAt := at_, stages := left, iv := iv, resultAt := at_ + left * iv + 6 }

/-- A change of frequency reaches the operations in flight (R287, R297). -/
def retimeAll (d : Dev) (col : Nat) : Dev :=
  if (d.col col).flying.isEmpty then d
  else d.modCol col (fun c => { c with flying := c.flying.map (fun p => (p.1, match p.2.first with
    | some f => p.2.retime (entryInterval f.strict (maskCount p.2.layers) (stageMax d col p.2.layers (stageTime f.qf))) (d.colClk col)
    | none => p.2)) })

/-- `ENGINE_ENTRY`. -/
def execEngineEntry (p : Ev.EngineRef) (s : State) : Host.Outcome State Fault Refusal :=
  s.run (fun _ d => engineEnter d p.col p.idx)

/-- A layer that fails in service: every operation that has not written its results enters again (R297). -/
def engineReenter (d : Dev) (col : Nat) : Dev :=
  let c := d.col col
  let mine := c.flying.filter (fun p => p.2.layers != 0)
  mine.foldl (fun d p => d.modCol col (fun c => { c with
    flying := c.flying.erase p.1, ready := c.ready.set p.1 { p.2 with again := true, layers := 0, since := 0, iv := 0 } })) d

/-! ### Sums (R38 to R42, R294, R295) -/

/-- A decoded element of a format code; INT8 as an exact integer. -/
def elemVal (fmt bits : Nat) : XV :=
  match fmt with
  | 0 => bf16.decode bits
  | 1 => f16.decode bits
  | 2 => decodeTaper 7 bits
  | 3 => decodeTaper 5 bits
  | _ => xint (BitVec.ofNat 8 bits).toInt

/-- The dense index of stored element s of a column: the place of the mask's bit number s. -/
def densePos (mask : Nat) : Nat → Nat → Nat → Nat
  | 0, k, _ => k
  | n + 1, k, s =>
    if mask.testBit k then (if s = 0 then k else densePos mask n (k + 1) (s - 1)) else densePos mask n (k + 1) s

/-- Dense index of stored element s of column j. -/
def bIndex (w : WEntry) (j s : Nat) : Nat :=
  let sp := w.fields / 32
  if sp = 0 then s
  else
    let kd := denseK sp
    densePos (w.data.readN (256 * elemBits (w.fields % 16) + j * (kd / 8)) (kd / 8)) kd 0 s

/-- The code of stored element s of column j. -/
def bCode (w : WEntry) (j s : Nat) : Nat :=
  let b := elemBits (w.fields % 16)
  let at_ := (64 * j + s) * b
  w.data.readN (at_ / 8) 3 / 2 ^ (at_ % 8) % 2 ^ b

/-- The scale code of a block from a string of 16-bit containers. -/
def scaleCode (v b : Nat) : Nat := v / 2 ^ (16 * b) % 2 ^ 12

/-- The value of stored element s of column j, its scale or its group applied (R22, R26). -/
def bVal (w : WEntry) (j s : Nat) : XV :=
  let fmt := w.fields % 16
  let code := bCode w j s
  if fmt ≥ 5 then
    let g := if fmt = 5 then 2 * j + s / 32 else j
    let x := w.data.readN (1024 + 4 * g) 4
    bf16.decode (expandInt4 code (x / 2 ^ 16 % 16) (x % 2 ^ 16))
  else
    let v := elemVal fmt code
    if w.fields / 16 % 2 = 1 then
      let nb := denseK (w.fields / 32) / 32
      scaled (scaleCode (w.data.readN (0x2000 + 2 * j * nb) (2 * nb)) (bIndex w j s / 32)) v
    else v

/-- Element k of a row of A. -/
def aVal (m : Mop) (i k : Nat) : XV :=
  let fmt := fieldN m.qf 0 4
  let b := elemBits fmt
  let v := elemVal fmt (m.arows.getD i 0 / 2 ^ (k * b) % 2 ^ b)
  if m.qf.getLsbD 11 then scaled (scaleCode (m.ascales.getD i 0) (k / 32)) v else v

/-- The shares of the K indices: slices of 16, or the relaxed shares of R42. -/
def shares (strict : Bool) (p : Nat) : List (Nat × Nat) :=
  if strict ∨ p ≥ 4 then [(0, 16), (16, 16), (32, 16), (48, 16)]
  else match p with
    | 3 => [(0, 22), (22, 21), (43, 21)]
    | 2 => [(0, 32), (32, 32)]
    | _ => [(0, 64)]

/-- One output element on the float path (R38, R42). -/
def floatElem (strict : Bool) (p : Nat) (prod : Nat → XV) (acc : Word) : Word :=
  (shares strict p).foldl (fun a r =>
    let s := (roundF32 rne (XV.sum false ((List.range r.2).map (fun i => prod (r.1 + i))))).1
    (roundF32 rne (XV.add false (xf32 a) (xf32 s))).1) acc

/-- One output element on the integer path (R39). -/
def intElem (m : Mop) (w : WEntry) (i j : Nat) (acc : Word) : Word :=
  (List.range 64).foldl (fun a s =>
    let x := (BitVec.ofNat 8 (m.arows.getD i 0 / 2 ^ (8 * bIndex w j s))).signExtend 32
    a + x * (BitVec.ofNat 8 (bCode w j s)).signExtend 32) acc

/-- An output element (R39, R320). -/
def mmaElem (m : Mop) (w : WEntry) (p i j : Nat) (old : Word) : Word :=
  let acc := if m.qf.getLsbD 10 then old else 0
  if fieldN m.qf 0 4 = 4 ∧ w.fields % 32 = 4 then intElem m w i j acc
  else floatElem m.strict p (fun s => (aVal m i (bIndex w j s)).mul (bVal w j s)) acc

/-- A contributor's rows in its own tile (R305, R320). -/
def writeRows (d : Dev) (m : Mop) (w : WEntry) (p : Nat) : Dev :=
  let d := accTake d m.core m.acc (m.asid d)
  let off := fieldN m.qf 16 5
  d.modCore m.core (fun c => { c with
    acc := (List.range m.arows.length).foldl (fun a i => (List.range 32).foldl (fun a j =>
      let k := m.acc * 1024 + (off + i) * 32 + j
      SMap.put a k (mmaElem m w p i j (c.acc.get k 0)) 0) a) c.acc })

/-- A whole tile written. -/
def writeTile (d : Dev) (m : Mop) (val : Nat → Word) : Dev :=
  d.modCore m.core (fun c => { c with
    accTag := c.accTag.set m.acc (m.asid d)
    acc := (List.range 1024).foldl (fun a k => SMap.put a (m.acc * 1024 + k) (val k) 0)
      (c.acc.filter (fun p => !(p.1 / 1024 == m.acc))) })

/-- Choice 14 names a contributor, from 1, whose accumulator store fails as its rows are written (R306; log 71). -/
def storeFails (d : Dev) (i : Nat) : Bool := d.opt 14 == i + 1

/-- Contributors in the order in which they left their queues: the rows of two that name one tile land in it (R315). -/
def insContrib (x : Contrib × Nat) : List (Contrib × Nat) → List (Contrib × Nat)
  | [] => [x]
  | y :: r => if x.1.mop.id < y.1.mop.id then x :: y :: r else y :: insContrib x r
def byLeaving (ms : List (Contrib × Nat)) : List (Contrib × Nat) := ms.foldl (fun l m => insContrib m l) []

/-- An operation's results and fold words are written (R287, R299, R300); a contributor whose accumulator store fails
has HWERR in its group alone, with the layer of its core's store (R285, R306). -/
def resultWrite (e : Env) (d : Dev) (col k : Nat) : Dev :=
  match (d.col col).flying.find? k with
  | none => d
  | some o =>
    match o.first with
    | none => d
    | some f =>
      if d.colClk col < o.resultAt then d
      else
        let done (d : Dev) : Dev := d.modCol col (fun c => { c with flying := c.flying.erase k })
        let plainFold := some (foldBase (presentMask d col f.policy) f.strict)
        match f.kind with
        | .mwld => opDone (done d) f.gid f.id plainFold
        | .mzero | .mlacc =>
          let v := f.arows.getD 0 0
          let d := writeTile (done d) f (fun i => if f.kind = .mzero then 0 else BitVec.ofNat 32 (v / 2 ^ (32 * i)))
          opDone d f.gid f.id plainFold
        | _ =>
          match (d.col col).wbuf.find? f.entry with
          | none => d
          | some w =>
            let ms := byLeaving o.members.zipIdx
            let d1 := ms.foldl (fun (x : Dev) m => if storeFails d m.2 then x else writeRows x m.1.mop w (maskCount o.layers)) (done d)
            ms.foldl (fun x m =>
              let x := opDone x m.1.mop.gid m.1.mop.id (some (foldWord o.layers f.strict o.members.length))
              if storeFails d m.2 then hwerr e x m.1.mop.gid 2 (5 + m.1.mop.core % 2) 0 else x) d1

/-- `MATRIX_RESULT_WRITE`. -/
def execMatrixResultWrite (p : Ev.EngineRef) (s : State) : Host.Outcome State Fault Refusal :=
  s.run (fun e d => resultWrite e d p.col p.idx)

/-! ### Drains (R325, R326) -/

/-- The operation of a core's streams with a number. -/
def outOp (d : Dev) (core id : Nat) : Option Mop :=
  d.groups.findSome? (fun p => if p.2.core = core then (match p.2.stream with
    | some st => st.out.find? (fun m => m.id == id && m.done.isNone)
    | none => none) else none)

/-- The format code of R24 behind a drain format. -/
def drainRow (m : Mop) (i : Nat) (old : Option (List Nat)) : List Nat × Nat :=
  let o := m.qo
  let fmt := qoFmt o
  let t := m.tile.getD []
  let raw (j : Nat) : Word := SMap.get t (32 * i + j) 0
  let x (j : Nat) : XV := if fmt ≥ 6 then xint (raw j).toInt else xf32 (raw j)
  let rdn := m.rm == 4
  let (s, _) := s12Cover (fmt - 1) ((List.range 32).map x)
  let q (j : Nat) : Quot := if o.getLsbD 10 then quantise s (x j) else .val (x j)
  let k (j : Nat) : Rnd := { rm := m.rm, seed := m.seed, idx := 32 * i + j }
  let sum (dec : Nat → XV) (j : Nat) (v : XV) : XV := match old with
    | some l => XV.add rdn (dec (l.getD j 0)) v
    | none => v
  let fp (f : Fmt) (j : Nat) : Nat := match q j with
    | .zero => 0
    | .nan => f.canonNaN
    | .val v => (f.round (k j) (sum f.decode j v)).1
  let tp (w j : Nat) : Nat := match q j with
    | .zero => 0
    | .nan => 2 ^ w
    | .val v => (roundTaper w (k j) v).1
  let elem (j : Nat) : Nat := match fmt with
    | 0 => if old.isSome then fp f32 j else (raw j).toNat
    | 1 => fp bf16 j
    | 2 => fp f16 j
    | 3 => tp 7 j
    | 4 => tp 5 j
    | 5 => (match q j with
      | .val v => ((convInt (-128) 127 (k j) v).1 % 256).toNat
      | _ => 0)
    | 6 => (match old with
      | some l => (l.getD j 0 + (raw j).toNat) % 2 ^ 32
      | none => (raw j).toNat)
    | _ => (f32.round (k j) (sum f32.decode j (x j))).1
  ((List.range 32).map elem, s)

/-- The pieces of a row written. -/
def engPieces (e : Env) (d : Dev) (gid core v : Nat) (ps : List (Target × Nat)) : Dev :=
  (ps.foldl (fun (acc : Dev × Nat) p =>
    (farWrite e acc.1 gid core p.1 p.2 (v / 2 ^ (8 * acc.2) % 2 ^ (8 * p.2)), acc.2 + p.2)) (d, 0)).1

/-- The bytes of a row's destination. -/
def readPieces (d : Dev) (gid : Nat) (ps : List (Target × Nat)) : Nat :=
  (ps.foldl (fun (acc : Nat × Nat) p => (acc.1 + tgtRead d gid p.1 p.2 * 2 ^ (8 * acc.2), acc.2 + p.2)) (0, 0)).1

/-- What the accesses of a row meet: offset in the row and the error. -/
def piecesErr (e : Env) (d : Dev) (add : Bool) (ps : List (Target × Nat)) : Option (Nat × MErr) :=
  (ps.foldl (fun (acc : Nat × Option (Nat × MErr)) p =>
    (acc.1 + p.2, match acc.2 with
      | some x => some x
      | none =>
        match (if add then farErr e d .read p.1 p.2 else none), farErr e d (if add then .atomic else .write) p.1 p.2 with
        | some x, _ => some (acc.1, x)
        | none, some x => some (acc.1, x)
        | none, none => none)) (0, none)).2

/-- The targets of a row of a drain and of its scale container, as they stand now. -/
def Mop.rowParts (m : Mop) (d : Dev) (i : Nat) : Option (List (Target × Nat) × List (Target × Nat)) :=
  let n := i - qoRow m.qo
  let k : AKind := if m.qo.getLsbD 6 then .atomic else .write
  match partsNow d m.gid k (m.qd + BitVec.ofNat 64 (i * qoPitch m.qo)) (m.parts.getD n []),
      partsNow d m.gid .write (m.qd + BitVec.ofNat 64 (32 * qoPitch m.qo + 2 * i)) (m.parts.getD (qoRows m.qo + n) []) with
  | some a, some b => some (a, b)
  | _, _ => none

/-- One row performs at its destination and makes its arrival, or ends the drain. -/
def drainOne (e : Env) (d : Dev) (core id i : Nat) : Dev :=
  match outOp d core id with
  | none => d
  | some m =>
    let o := m.qo
    let add := o.getLsbD 6
    let (ps, sc) := (m.rowParts d i).getD ([], [])
    let sz := qoSize o
    match (match piecesErr e d add ps with
      | some x => some (m.qd + BitVec.ofNat 64 (i * qoPitch o + x.1), x.2)
      | none => (piecesErr e d false sc).map (fun (x : Nat × MErr) => (m.qd + BitVec.ofNat 64 (32 * qoPitch o + 2 * i + x.1), x.2))) with
    | some (va, x) =>
      let d := noteErr e d (d.grp m.gid).ctx x
      let d := if o.getLsbD 47 then setFault d m.gid (qoAoff o) else d
      opFault e (modOut d m.gid id (fun m => { m with rows := [] })) m 9 va
    | none =>
      let raw := readPieces d m.gid ps
      let old := if add then some ((List.range 32).map (fun j => raw / 2 ^ (8 * sz * j) % 2 ^ (8 * sz))) else none
      let (codes, s) := drainRow m i old
      let v := codes.zipIdx.foldl (fun v (c : Nat × Nat) => v + c.1 % 2 ^ (8 * sz) * 2 ^ (8 * sz * c.2)) 0
      let d := engPieces e d m.gid core v ps
      let d := engPieces e d m.gid core (s % 2 ^ 12) sc
      let d := if o.getLsbD 47 then arrive d m.gid (qoAoff o) (32 * sz) else d
      let d := modOut d m.gid id (fun m => { m with rows := m.rows.filter (fun r => !(r == i)) })
      if (m.rows.filter (fun r => !(r == i))).isEmpty then opDone d m.gid id none else d

/-- The last row that a row waits for: an add-on-store performs its rows as one (R325). -/
def Mop.lastRow (m : Mop) (row : Nat) : Nat := if m.qo.getLsbD 6 then qoRow m.qo + qoRows m.qo - 1 else row

/-- A row of a drain may perform: its tile is read at 4 rows a cycle (R334). -/
def drainReady (d : Dev) (core id row : Nat) : Bool :=
  match outOp d core id with
  | none => false
  | some m => m.kind == .mdrain && m.rows.contains row && m.tile.isSome && decide (m.ready + (m.lastRow row - qoRow m.qo) / 4 < d.colClk (core / 2)) &&
      (!m.qo.getLsbD 6 || m.rows.head? == some row) && (m.rowParts d row).isSome

/-- A row performs; the rows of an add-on-store perform as one (R325). -/
def drainRowPerform (e : Env) (d : Dev) (p : Ev.DrainRow) : Dev :=
  if !drainReady d p.core p.op p.row then d
  else match outOp d p.core p.op with
  | none => d
  | some m =>
    (if m.qo.getLsbD 6 then m.rows else [p.row]).foldl (fun d i => drainOne e d p.core p.op i) d

/-- `DRAIN_ROW_PERFORM`. -/
def execDrainRowPerform (p : Ev.DrainRow) (s : State) : Host.Outcome State Fault Refusal :=
  s.run (fun e d => drainRowPerform e d p)

/-! ### `MSIG` (R328) -/

/-- Every earlier operation of its stream has completed. -/
def msigReady (d : Dev) (core id : Nat) : Bool :=
  match outOp d core id with
  | none => false
  | some m => m.kind == .msig && (match (d.grp m.gid).stream with
      | some st => (st.out.head?.map (·.id)) == some id
      | none => false)

/-- `MSIG_ARRIVAL`. -/
def execMsigArrival (p : Ev.MopRef) (s : State) : Host.Outcome State Fault Refusal :=
  s.run (fun _ d =>
    if !msigReady d p.core p.op then d
    else match outOp d p.core p.op with
    | none => d
    | some m => opDone (arrive d m.gid (fieldN m.qa 0 19) 1) m.gid m.id none)

end Sys2Proof.Machine
end

