-- ==== Sys2Proof/Machine/Graph.lean ====
section
/-! DEFINITION.  Graph launches: the engine's own reads and writes, the records of R342 to R346, the load
checks of R347 to R350, and acceptance (R341, R351, R352, R359). -/

namespace Sys2Proof.Machine

/-! ### The engine's own accesses (R450) -/

/-- What the access of an engine of a tower to a physical address meets: the lost link, and a write too fails on an
uncorrectable line (R424, R450). -/
def engErr (d : Dev) (k : AKind) (pa : Nat) (pg : Page) (t : Nat := 2) : Option MErr :=
  if linkCut d t pa then some (.link pa)
  else match readErr d pa with
  | some x => some x
  | none => targetErr d k (.mem pa pg)

/-- A piece of an access of the engine: where it lands, or what it meets. -/
def engPiece (d : Dev) (ctx : Nat) (va : DWord) (k : AKind) (t : Nat := 2) : Except MErr (Nat × Page × List ADSet) :=
  match plainTarget d ctx va k (d.opt 1) with
  | .error x => .error x
  | .ok (.mem pa pg, ads) => match engErr d k pa pg t with
    | some x => .error x
    | none => .ok (pa, pg, ads)
  | .ok _ => .error (.prot 9)

/-- The pieces of an access by an engine of a tower, under a context's page tables, each with its length. -/
def engAll (d : Dev) (ctx : Nat) (va : DWord) (n : Nat) (k : AKind) (t : Nat := 2) : List (Nat × Except MErr (Nat × Page × List ADSet)) :=
  (lineParts va.toNat n).map (fun p => (p.2, engPiece d ctx (va + BitVec.ofNat 64 p.1) k t))

/-- The pieces of such an access; none when one of them fails. -/
def engPiecesOf (d : Dev) (ctx : Nat) (va : DWord) (n : Nat) (k : AKind) (t : Nat := 2) : Option (List (Nat × Nat × Page × List ADSet)) :=
  if va.toNat + n > 2 ^ 64 then none
  else (engAll d ctx va n k t).foldr (fun p r => match p.2, r with
    | .ok (pa, pg, ads), some l => some ((pa, p.1, pg, ads) :: l)
    | _, _ => none) (some [])

/-- What a failed access of the engine leaves in the logs: that of its first piece that fails (R105, R106). -/
def engFail (e : Env) (d : Dev) (ctx : Nat) (va : DWord) (n : Nat) (k : AKind) (t : Nat := 2) : Dev :=
  match (engAll d ctx va n k t).findSome? (fun p => match p.2 with
    | .error x => some x
    | .ok _ => none) with
  | some x => noteErr e d ctx x
  | none => d

/-- The bytes at `va`, or none when the read fails. -/
def engRead (d : Dev) (ctx : Nat) (va : DWord) (n : Nat) (t : Nat := 2) : Option Nat :=
  (engPiecesOf d ctx va n .read t).map (fun l =>
    (l.foldl (fun (acc : Nat × Nat) p => (acc.1 + d.mem.readN p.1 p.2.1 * 2 ^ (8 * acc.2), acc.2 + p.2.1)) (0, 0)).1)

/-- What a read leaves behind: A bits and cached entries (R90, R91), and the lines' records (R92, R111). -/
def engMark (d : Dev) (ctx : Nat) (va : DWord) (n : Nat) (t : Nat := 2) : Dev :=
  match engPiecesOf d ctx va n .read t with
  | none => d
  | some l => l.foldl (fun d p => noteRead (touch d ctx p.2.2.2) p.1 p.2.2.1) d

/-- The low `n` bytes of `v` written at `va`, or none when the write fails. -/
def engStore (e : Env) (d : Dev) (ctx : Nat) (va : DWord) (n v : Nat) (t : Nat := 2) : Option Dev :=
  (engPiecesOf d ctx va n .write t).map (fun l =>
    (l.foldl (fun (acc : Dev × Nat) p =>
      (memWrite e (touch acc.1 ctx p.2.2.2) p.1 p.2.1 (v / 2 ^ (8 * acc.2) % 2 ^ (8 * p.2.1)) p.2.2.1, acc.2 + p.2.1)) (d, 0)).1)

/-! ### Accesses of the host interface by physical address (R414) -/

/-- What an access to a physical address by the host interface, on tower 0, meets. -/
def physErr (e : Env) (d : Dev) (k : AKind) (pa n : Nat) : Option MErr :=
  if inAlias pa then regErr e d k (.reg (pa - 0xFFF0000000000)) n
  else if !(inGddr pa || inHostAp pa) then some (.data 4 pa)
  else if linkCut d 0 pa then some (.link pa)
  else if k = .read then readErr d pa else writeErr d pa

/-- The dwords of `n` bytes at `pa`, and what the first of them that fails meets. -/
def physFail (e : Env) (d : Dev) (k : AKind) (pa n : Nat) : Option MErr :=
  (List.range (n / 8)).findSome? (fun i => physErr e d k (pa + 8 * i) 8)

/-- `n` bytes read, with what the read leaves behind; none, and the entry of the log, where it fails. -/
def physIn (e : Env) (d : Dev) (ctx pa n : Nat) : Dev × Option Nat :=
  match physFail e d .read pa n with
  | some x => (noteErr e d ctx x, none)
  | none =>
    let (d, v) := (List.range (n / 8)).foldl (fun (x : Dev × Nat) i =>
      let a := pa + 8 * i
      if inAlias a then
        let o := a - 0xFFF0000000000
        ((match regClears o { idx := 0, off := 0 } with
          | some ev => x.1.post ev
          | none => regSawRead x.1 o), x.2 + (regReadN e d o 8).getD 0 * 2 ^ (64 * i))
      else (if i % 16 = 0 then noteRead x.1 a {} else x.1, x.2 + d.mem.readN a 8 * 2 ^ (64 * i))) (d, 0)
    (d, some v)

/-- `n` bytes written; false, and the entry of the log, where the write fails. -/
def physOut (e : Env) (d : Dev) (ctx pa n v : Nat) : Dev × Bool :=
  match physFail e d .write pa n with
  | some x => (noteErr e d ctx x, false)
  | none =>
    (if inAlias pa then
        (List.range (n / 8)).foldl (fun d i =>
          d.post (regWriteStep (pa - 0xFFF0000000000 + 8 * i) 8 (BitVec.ofNat 64 (v / 2 ^ (64 * i))) false)) d
      else memWrite e d pa n v {}, true)

/-! ### Records -/

/-- A launch record (R342) of a context, its graph still to read. -/
def launchOf (v ctx : Nat) : Launch :=
  { ctx := ctx, order := 0, graph := { passes := [], res := [], stencils := [], shapes := [] }
    argbase := BitVec.ofNat 64 (bitsN v 64 64), bind := BitVec.ofNat 64 (bitsN v 128 64)
    done := BitVec.ofNat 64 (bitsN v 192 64), codever := bitsN v 256 32, classcap := bitsN v 288 3
    towers := bitsN v 291 2, card := bitsN v 293 1, seq := BitVec.ofNat 64 (bitsN v 320 64)
    arena := BitVec.ofNat 64 (bitsN v 384 64), arenasz := bitsN v 448 32 }

/-- The rules of R347, code 2, for a launch record. -/
def launchBad (v : Nat) : Bool :=
  bitsN v 0 6 != 0 || bitsN v 384 6 != 0 || decide (bitsN v 448 32 < 16384) || bitsN v 291 2 == 0 ||
    bitsN v 294 26 != 0 || bitsN v 480 32 != 0

/-- The header of a graph record (R343). -/
structure GHeader where
  npass : Nat
  nsten : Nat
  nres : Nat
  nio : Nat
  nshape : Nat
  passoff : Nat
  resoff : Nat
  stenoff : Nat
  iooff : Nat
  shapeoff : Nat
  bad : Bool
  deriving DecidableEq, Repr

def gheaderOf (v : Nat) : GHeader :=
  { npass := bitsN v 0 7, nsten := bitsN v 8 7, nres := bitsN v 16 9, nio := bitsN v 32 11, nshape := bitsN v 43 7
    passoff := bitsN v 64 32, resoff := bitsN v 96 32, stenoff := bitsN v 128 32, iooff := bitsN v 160 32
    shapeoff := bitsN v 192 32
    bad := bitsN v 7 1 != 0 || bitsN v 15 1 != 0 || bitsN v 25 7 != 0 || bitsN v 50 14 != 0 || bitsN v 224 288 != 0 ||
      bitsN v 64 32 % 64 != 0 || bitsN v 96 32 % 32 != 0 || bitsN v 192 32 % 16 != 0 || bitsN v 128 32 % 8 != 0 ||
      bitsN v 160 32 % 4 != 0 }

/-- The counts of R343 are in range. -/
def GHeader.countsOk (h : GHeader) : Bool :=
  decide (1 ≤ h.npass ∧ h.npass ≤ 64 ∧ h.nsten ≤ 64 ∧ h.nres ≤ 256 ∧ h.nio ≤ 1024 ∧ 1 ≤ h.nshape ∧ h.nshape ≤ 64)

/-- A group-shape entry (R344), and whether it breaks its rule. -/
def gshapeOf (v : Nat) : Shape :=
  { warps := bitsN v 0 5 + 1, copies := bitsN v 5 6, regs := 16 * (bitsN v 11 4 + 1), scratch := 16384 * bitsN v 15 5
    stream := v.testBit 20, gang := bitsN v 21 3 + 1, scode := BitVec.ofNat 64 (bitsN v 64 64) }
def gshapeBad (v : Nat) : Bool :=
  bitsN v 24 40 != 0 || decide (bitsN v 5 6 > bitsN v 0 5 + 1) || decide (bitsN v 15 5 > 28) ||
    bitsN v 64 64 % 12 != 0 || (!v.testBit 20 && bitsN v 64 64 != 0)

/-- A resource descriptor (R346), and whether it breaks its rule. -/
def resOf (v : Nat) : Res :=
  { transient := v.testBit 0, overflow := v.testBit 1, hostvis := v.testBit 2, tsize := bitsN v 8 2
    gridw := bitsN v 10 12, gridh := bitsN v 22 12, slots := bitsN v 34 8, slotbytes := bitsN v 64 24, ovfslots := bitsN v 96 32 }
def resBad (v : Nat) : Bool :=
  let s := bitsN v 34 8
  let b := bitsN v 64 24
  bitsN v 3 5 != 0 || bitsN v 42 22 != 0 || bitsN v 88 8 != 0 || bitsN v 128 128 != 0 ||
    (if v.testBit 0 then s == 0 || b == 0 || b % 128 != 0 else s != 0)

/-- A signed field of four bits. -/
def nib (v lo : Nat) : Int := (BitVec.ofNat 4 (bitsN v lo 4)).toInt
/-- A stencil descriptor (R346), and whether it breaks its rule. -/
def stencilOf (v : Nat) : Stencil := { form := bitsN v 0 2, x0 := nib v 4, x1 := nib v 8, y0 := nib v 12, y1 := nib v 16 }
def stencilBad (v : Nat) : Bool :=
  let s := stencilOf v
  s.form == 3 || bitsN v 2 2 != 0 || bitsN v 20 44 != 0 || decide (s.x0 = -8 ∨ s.x1 = -8 ∨ s.y0 = -8 ∨ s.y1 = -8) ||
    decide (s.x0 > s.x1 ∨ s.y0 > s.y1) || (s.form != 0 && bitsN v 4 16 != 0)

/-- A pass descriptor (R345) over the IO entries of its graph, and whether it breaks its rule. -/
def passOf (v : Nat) (io : List Nat) : Pass :=
  let ios := io.drop (bitsN v 256 10)
  let nin := bitsN v 266 4
  { entry := BitVec.ofNat 64 (bitsN v 0 64), gridw := bitsN v 64 12, gridh := bitsN v 76 12, tsize := bitsN v 88 2
    cls := bitsN v 90 3, gang := bitsN v 93 3 + 1, shape := bitsN v 96 6, present := v.testBit 102, head := bitsN v 103 2
    recarg := v.testBit 105, mask0 := BitVec.ofNat 64 (bitsN v 128 64), mask1 := BitVec.ofNat 64 (bitsN v 192 64)
    ins := (ios.take nin).map (fun x => (x % 256, bitsN x 8 6))
    outs := ((ios.drop nin).take (bitsN v 270 3)).map (fun x => x % 256)
    argoff := bitsN v 288 32, split := bitsN v 320 13, cardrow := bitsN v 333 13
    user0 := BitVec.ofNat 64 (bitsN v 384 64), user1 := BitVec.ofNat 64 (bitsN v 448 64) }
def passBad (v : Nat) (io : List Nat) : Bool :=
  let outs := ((io.drop (bitsN v 256 10)).drop (bitsN v 266 4)).take (bitsN v 270 3)
  bitsN v 106 22 != 0 || bitsN v 273 15 != 0 || bitsN v 346 38 != 0 || bitsN v 0 64 % 12 != 0 ||
    outs.any (fun x => bitsN x 8 6 != 0)

/-- Element `i` of an array of records of `n` bits. -/
def elemAt (v n i : Nat) : Nat := bitsN v (n * i) n
/-- The elements of an array. -/
def elems (v n k : Nat) : List Nat := (List.range k).map (elemAt v n)

/-- COUNTS for the passes (R347, code 1). -/
def passCounts (h : GHeader) (v : Nat) (io : List Nat) : Bool :=
  let f := bitsN v 256 10
  let nin := bitsN v 266 4
  let nout := bitsN v 270 3
  decide (nin ≤ 8 ∧ nout ≤ 4 ∧ f + nin + nout ≤ h.nio ∧ bitsN v 96 6 < h.nshape) &&
    ((io.drop f).take (nin + nout)).all (fun x => decide (x % 256 < h.nres)) &&
    ((io.drop f).take nin).all (fun x => decide (bitsN x 8 6 < h.nsten))

/-- What acceptance reads of a graph: none of an array that cannot be read. -/
structure GRaw where
  passes : Nat
  res : Nat
  stencils : Nat
  io : Nat
  shapes : Nat
  deriving DecidableEq, Repr

def readGraph (d : Dev) (ctx : Nat) (base : DWord) (h : GHeader) (t : Nat := 2) : Option GRaw :=
  let at_ (off n : Nat) : Option Nat := engRead d ctx (base + BitVec.ofNat 64 off) n t
  match at_ h.passoff (64 * h.npass), at_ h.resoff (32 * h.nres), at_ h.stenoff (8 * h.nsten), at_ h.iooff (4 * h.nio),
      at_ h.shapeoff (16 * h.nshape) with
  | some p, some r, some s, some i, some g => some { passes := p, res := r, stencils := s, io := i, shapes := g }
  | _, _, _, _, _ => none

/-- The graph of what acceptance read (R343). -/
def graphOf (h : GHeader) (r : GRaw) : Graph :=
  let io := elems r.io 32 h.nio
  { passes := (elems r.passes 512 h.npass).map (fun v => passOf v io)
    res := (elems r.res 256 h.nres).map resOf
    stencils := (elems r.stencils 64 h.nsten).map stencilOf
    shapes := (elems r.shapes 128 h.nshape).map gshapeOf }

/-! ### Towers, cards and cores -/

def Launch.pass (l : Launch) (p : Nat) : Pass := (l.graph.passes[p]?).getD noPass
def Launch.resD (l : Launch) (r : Nat) : Res := (l.graph.res[r]?).getD noRes
def Launch.sten (l : Launch) (s : Nat) : Stencil := (l.graph.stencils[s]?).getD noStencil
def Launch.shape (l : Launch) (n : Nat) : Shape := (l.graph.shapes[n]?).getD noShape

/-- The tower that runs row `y` of a pass (R365). -/
def Launch.rowTower (l : Launch) (p : Pass) (y : Nat) : Nat :=
  let t := if y < p.split then 0 else 1
  if l.towers.testBit t then t else 1 - t

/-- The card of a row (R366). -/
def rowCard (p : Pass) (y : Nat) : Nat := if y < p.cardrow then 0 else 1

/-- The rows of a pass that this card runs. -/
def Launch.rows (l : Launch) (p : Pass) : List Nat := (List.range (p.gridh + 1)).filter (fun y => rowCard p y == l.card)

/-- The graph spans two cards: it has rows of each. -/
def Graph.spansCards (g : Graph) : Bool :=
  g.passes.any (fun p => decide (p.cardrow ≤ p.gridh)) && g.passes.any (fun p => decide (0 < p.cardrow))

/-- A column of a tower takes new groups: a retirement takes effect for placement with the column's removal (R4). -/
def columnUsable (d : Dev) (t c : Nat) : Bool := !(d.tower t).gone.contains c
/-- A core may be placed on: its column is usable, X1 has power for a core B, and M0 or M1 for a stream on
core A or B (R443). -/
def coreUsable (d : Dev) (c : Nat) (stream : Bool) : Bool :=
  let k := c / 2 * 8
  let off (x : Nat) : Bool := d.mgmt.gated.contains x || d.mgmt.gating.any (fun g => g.key == x)
  columnUsable d (c / 64) (c / 2 % 32) && !(c % 2 == 1 && off (k + 4)) && !(stream && off (k + 5 + c % 2))

/-- What is taken of a core (R151). -/
structure Occ where
  slots : List Nat := []
  regs : List Nat := [0, 0, 0, 0]
  scratch : Nat := 0
  streams : Nat := 0
  deriving DecidableEq, Repr

/-- Free warp slots. -/
def Occ.free (o : Occ) : Nat := 64 - o.slots.length

/-- The quadrant with the most free warp slots, the lowest on a tie (R152). -/
def Occ.quad (o : Occ) : Nat :=
  let used (q : Nat) : Nat := (o.slots.filter (fun s => s % 4 == q)).length
  [1, 2, 3].foldl (fun b q => if used q < used b then q else b) 0

/-- The placement of a shape's warps (R151, R152): their slots and what is taken afterwards. -/
def Occ.place (o : Occ) (s : Shape) : Option (List Nat × Occ) :=
  let q0 := o.quad
  let go := (List.range s.warps).foldl (fun (acc : Option (List Nat × Occ)) i =>
    match acc with
    | none => none
    | some (l, o) =>
      let q := (q0 + i) % 4
      match ((List.range 16).map (fun k => 4 * k + q)).find? (fun k => !o.slots.contains k) with
      | none => none
      | some k =>
        let r := o.regs.getD q 0 + s.regs
        if r > 1024 then none else some (l ++ [k], { o with slots := o.slots ++ [k], regs := o.regs.set q r }))
    (some ([], o))
  match go with
  | none => none
  | some (l, o) =>
    if o.scratch + s.scratch > Config.scratchCap ∨ (s.stream ∧ o.streams ≥ 4) then none
    else some (l, { o with scratch := o.scratch + s.scratch, streams := o.streams + b2n s.stream })

/-- What the resident groups of a core hold. -/
def occOf (d : Dev) (c : Nat) : Occ :=
  d.groups.foldl (fun o p =>
    let g := p.2
    if g.core ≠ c then o
    else { slots := o.slots ++ g.slots
           regs := g.slots.foldl (fun r s => r.set (s % 4) (r.getD (s % 4) 0 + g.shape.regs)) o.regs
           scratch := o.scratch + g.shape.scratch, streams := o.streams + b2n g.shape.stream }) {}

/-- A core could hold one group of a shape were it empty. -/
def fitsEmpty (s : Shape) : Bool := (({} : Occ).place s).isSome

/-- The cores of a pass's mask in a tower. -/
def maskCores (p : Pass) (t : Nat) : List Nat :=
  ((List.range 64).filter (fun c => (if t = 0 then p.mask0 else p.mask1).getLsbD c)).map (fun c => t * 64 + c)

/-- The members a gang of `k` takes of the cores that can supply it (R358): both cores of the lowest
column for a gang of 2. -/
def gangCores (k : Nat) (cs : List Nat) : Option (List Nat) :=
  if k = 2 then
    (cs.find? (fun c => c % 2 == 0 && cs.contains (c + 1))).map (fun c => [c, c + 1])
  else if cs.length < k then none else some (cs.take k)

/-- MASK (R347, code 7) for one tower: a gang of the pass's shape could be placed on its enabled cores. -/
def maskOk (d : Dev) (l : Launch) (p : Pass) (t : Nat) : Bool :=
  let s := l.shape p.shape
  let cs := (maskCores p t).filter (fun c => columnUsable d t (c / 2 % 32))
  fitsEmpty s && (gangCores s.gang cs).isSome

/-! ### Windows, pairs and depth (R348 to R350) -/

/-- Extent of a consumer's mapped tiles in a resource: bx1 − bx0. -/
def mapSpan (p : Pass) (r : Res) : Nat := tileEdge p.tsize / tileEdge r.tsize - 1

/-- The stencil's offsets, 0 for FORM 1. -/
def stenOffs (s : Stencil) : Stencil := if s.form = 1 then { form := 1, x0 := 0, x1 := 0, y0 := 0, y1 := 0 } else s

/-- SIZE for one input: its window stays within −7 to +7 (R349). -/
def windowOk (p : Pass) (r : Res) (s : Stencil) : Bool :=
  let o := stenOffs s
  s.form == 2 || decide (-7 ≤ o.x0 ∧ mapSpan p r + o.x1 ≤ 7 ∧ -7 ≤ o.y0 ∧ mapSpan p r + o.y1 ≤ 7)

/-- D of R350. -/
def depthOf (p : Pass) (r : Res) (s : Stencil) : Nat :=
  let o := stenOffs s
  if s.form = 2 then (r.gridw + 1) * (r.gridh + 1)
  else
    let w := (mapSpan p r + o.x1 - o.x0 + 1).toNat
    let h := (mapSpan p r + o.y1 - o.y0 + 1).toNat
    (h - 1) * (r.gridw + 1) + w

/-- Tiles of a rectangle. -/
def Rect.count (r : Rect) : Nat := (r.x1 - r.x0 + 1).toNat * (r.y1 - r.y0 + 1).toNat

/-- The pairs of one input of a pass: a sum over columns times a sum over the rows of this card. -/
def pairsOf (l : Launch) (p : Pass) (r : Res) (s : Stencil) : Nat :=
  let xs := (List.range (p.gridw + 1)).foldl (fun n x =>
    let c := cover p x 0 r s
    n + (c.x1 - c.x0 + 1).toNat) 0
  let ys := (l.rows p).foldl (fun n y =>
    let c := cover p 0 y r s
    n + (c.y1 - c.y0 + 1).toNat) 0
  xs * ys

/-- Each step drops the passes whose inputs no remaining pass writes. -/
def sortPasses : Nat → List Pass → List Pass
  | 0, ps => ps
  | n + 1, ps => sortPasses n (ps.filter (fun p => p.ins.any (fun i => ps.any (fun q => q.outs.contains i.1))))

/-- CYCLE (R347, code 3). -/
def cycleBad (g : Graph) : Bool :=
  let rs := List.range g.res.length
  rs.any (fun r => decide ((g.passes.filter (fun p => p.outs.contains r)).length > 1)) ||
    g.passes.any (fun p => p.ins.any (fun i => p.outs.contains i.1)) ||
    !(sortPasses (g.passes.length + 1) g.passes).isEmpty

/-- SIZE (R347, code 4). -/
def sizeBad (l : Launch) : Bool :=
  l.graph.passes.any (fun p =>
    p.outs.any (fun r =>
      let x := l.resD r
      x.tsize != p.tsize || x.gridw != p.gridw || x.gridh != p.gridh) ||
    p.ins.any (fun i => !windowOk p (l.resD i.1) (l.sten i.2)))

/-- RING (R347, code 5). -/
def ringBad (l : Launch) : Bool :=
  l.graph.passes.any (fun p => p.ins.any (fun i =>
    let r := l.resD i.1
    r.transient && decide (r.slots + (if r.overflow then r.ovfslots else 0) < depthOf p r (l.sten i.2))))

/-- PAIRS (R347, code 6). -/
def pairsTotal (l : Launch) : Nat :=
  l.graph.passes.foldl (fun n p => p.ins.foldl (fun n i => n + pairsOf l p (l.resD i.1) (l.sten i.2)) n) 0

/-- The towers that hold tiles of a pass. -/
def Launch.passTowers (l : Launch) (p : Pass) : List Nat := [0, 1].filter (fun t => (l.rows p).any (fun y => l.rowTower p y == t))

/-- The towers that hold a writer or a reader of a resource (R359). -/
def Launch.resTowers (l : Launch) (r : Nat) : List Nat :=
  [0, 1].filter (fun t => l.graph.passes.any (fun p =>
    (p.outs.contains r || p.ins.any (fun i => i.1 == r)) && (l.passTowers p).contains t))

/-- CARD (R347, code 11). -/
def cardBad (l : Launch) : Bool :=
  (List.range l.graph.res.length).any (fun r => (l.resD r).transient &&
    (let ps := l.graph.passes.filter (fun p => p.outs.contains r || p.ins.any (fun i => i.1 == r))
     ps.any (fun p => decide (0 < p.cardrow)) && ps.any (fun p => decide (p.cardrow ≤ p.gridh))))

/-! ### Rings (R103, R359) -/

/-- The pieces of a slot of `n` bytes at an offset of the ways it was placed in, as offsets in the ways a
context holds now. -/
def slotPieces (now_ ways : List Nat) (off n : Nat) : List (Nat × Nat) :=
  (List.range ((off + n - 1) / 2 ^ 19 + 1 - off / 2 ^ 19)).map (fun i =>
    let k := off / 2 ^ 19 + i
    let lo := max off (k * 2 ^ 19)
    let hi := min (off + n) ((k + 1) * 2 ^ 19)
    (now_.findIdx (fun x => some x == ways[k]?) * 2 ^ 19 + lo % 2 ^ 19, hi - lo))

/-- Extents that a context's bound slots occupy in a bank: offset and length. -/
def bankUsed (d : Dev) (ctx t bank : Nat) : List (Nat × Nat) :=
  let now_ := (d.tower t).ways.get ctx []
  d.launches.flatMap (fun p =>
    let l := p.2
    if l.ctx ≠ ctx ∨ l.finished then []
    else l.rings.flatMap (fun q =>
      if q.2.tower ≠ t then []
      else (q.2.places.zipIdx.filter (fun x => x.1.1 == bank && (q.2.moved.find? x.2).isNone && !q.2.lost.contains x.2)).flatMap
        (fun x => slotPieces now_ x.1.2.2 x.1.2.1 (l.resD (q.1 / 2)).slotbytes)))

/-- The lowest free space of `n` bytes below `cap` among extents. -/
def lowestSpace (us : List (Nat × Nat)) (n cap : Nat) : Option Nat :=
  let fits (a : Nat) : Bool := decide (a + n ≤ cap) && us.all (fun u => decide (a + n ≤ u.1 ∨ u.1 + u.2 ≤ a))
  let cands := (0 :: us.map (fun u => u.1 + u.2)).filter fits
  match cands with
  | [] => none
  | x :: r => some (r.foldl min x)

/-- The places of one ring's slots, beside the extents `us` already taken by the launch (bank, offset,
length). -/
def ringPlaces (d : Dev) (ctx t : Nat) (r : Res) (us : List (Nat × Nat × Nat)) :
    Option (List (Nat × Nat × List Nat) × List (Nat × Nat × Nat)) :=
  let tw := d.tower t
  let ways := tw.ways.get ctx []
  let cap := ways.length * 2 ^ 19
  let homes := tw.homes
  (List.range r.slots).foldl (fun acc i =>
    match acc with
    | none => none
    | some (ps, us) =>
      let bank := homes.getD (i % max 1 homes.length) 0
      let taken := bankUsed d ctx t bank ++ (us.filter (fun u => u.1 == bank)).map (fun u => (u.2.1, u.2.2))
      match lowestSpace taken r.slotbytes cap with
      | none => none
      | some a => some (ps ++ [(bank, a, ways)], us ++ [(bank, a, r.slotbytes)])) (some ([], us))

/-- Every ring of a launch in every tower that needs it; none when one does not fit (R347, code 8). -/
def bindRings (d : Dev) (l : Launch) : Option (SMap Ring) :=
  (((List.range l.graph.res.length).foldl (fun (acc : Option (SMap Ring × List (Nat × Nat × Nat × Nat))) r =>
    if !(l.resD r).transient then acc
    else (l.resTowers r).foldl (fun acc t =>
      match acc with
      | none => none
      | some (rs, us) =>
        let mine := (us.filter (fun u => u.1 == t)).map (fun u => u.2)
        match ringPlaces d l.ctx t (l.resD r) mine with
        | none => none
        | some (ps, us') =>
          some (rs.set (r * 2 + t) { tower := t, places := ps }, us.filter (fun u => u.1 != t) ++ us'.map (fun u => (t, u)))) acc)
    (some ([], [])))).map (·.1)

/-! ### The load checks (R347) -/

/-- VERSION: the table's entry, in state LOADED or PATCHABLE (R401). -/
def versionOk (d : Dev) (ctx id : Nat) : Bool :=
  match cvtFind d ctx id with
  | some a =>
    let s := d.mem.readN (a + 4) 4 % 4
    s == 1 || s == 2
  | none => false

/-- A line of [pa, pa + n) is logged as lost, or was lost with the log full. -/
def linesLost (d : Dev) (pa n : Nat) : Bool :=
  let hit (k : Nat) : Bool := decide (pa / 128 ≤ k ∧ k ≤ (pa + n - 1) / 128)
  d.towers.any (fun t => t.2.lost.any (fun x => hit x.2.line) || t.2.unlogged.any hit)

/-- The parts of the arena's extent in its pages of 64 KiB: address and length. -/
def arenaParts (l : Launch) : List (Nat × Nat) :=
  let n := 64 * l.arenasz
  let a := l.arena.toNat
  (List.range ((a % 65536 + n + 65535) / 65536)).map (fun i =>
    let lo := max a (a / 65536 * 65536 + 65536 * i)
    (lo, min (a + n) (a / 65536 * 65536 + 65536 * (i + 1)) - lo))

/-- The whole extent of the arena can be written: each page, and no line of it is lost. -/
def arenaOk (d : Dev) (l : Launch) (t : Nat := 2) : Bool :=
  decide (l.arena.toNat + 64 * l.arenasz ≤ 2 ^ 64) &&
    (arenaParts l).all (fun p => match engPiecesOf d l.ctx (BitVec.ofNat 64 p.1) 1 .write with
      | some [(pa, _, _, _)] => !linesLost d pa p.2 && !(List.range (p.2 / 4096 + 2)).any (fun i =>
          decide (4096 * i < pa % 4096 + p.2) && linkCut d t (pa / 4096 * 4096 + 4096 * i))
      | _ => false)

/-- Launches a tower holds. -/
def towerFull (d : Dev) (t : Nat) : Bool := decide (launchesOf d t ≥ 16)

/-- A launch as acceptance finds it: its reason of R347, 0 for none, the launch with its graph, and
whether the reason is BUSY of a tower. -/
def loadCheck (d : Dev) (ctx v : Nat) (t : Nat := 2) : Nat × Launch :=
  let l := launchOf v ctx
  let busy := [0, 1].any (fun t => l.towers.testBit t && towerFull d t)
  let early (r : Nat) : Nat × Launch := (if launchBad v then 2 else if busy then 12 else r, l)
  let base := BitVec.ofNat 64 (bitsN v 0 64)
  match engRead d ctx base 64 t with
  | none => early 13
  | some hv =>
    let h := gheaderOf hv
    if !h.countsOk then (1, l)
    else match readGraph d ctx base h t with
    | none => if h.bad then (2, l) else early 13
    | some raw =>
      let io := elems raw.io 32 h.nio
      let ps := elems raw.passes 512 h.npass
      let g := graphOf h raw
      let l := { l with graph := g }
      if !ps.all (fun p => passCounts h p io) then (1, l)
      else if launchBad v || h.bad || ps.any (fun p => passBad p io) || (elems raw.res 256 h.nres).any resBad ||
          (elems raw.stencils 64 h.nsten).any stencilBad || (elems raw.shapes 128 h.nshape).any gshapeBad ||
          io.any (fun x => x / 2 ^ 14 != 0) || g.passes.any (fun p => p.gang != (l.shape p.shape).gang) ||
          g.passes.any (fun p => p.present && !p.outs.any (fun r => !(l.resD r).transient)) then (2, l)
      else if cycleBad g then (3, l)
      else if sizeBad l then (4, l)
      else if ringBad l then (5, l)
      else if pairsTotal l > 2 ^ 20 then (6, l)
      else if g.passes.any (fun p => (l.passTowers p).any (fun t => !maskOk d l p t)) then (7, l)
      else match bindRings d l with
      | none => (8, l)
      | some rings =>
        let binds := engRead d ctx l.bind (8 * h.nres) t
        let l := { l with rings := rings, binds := elems (binds.getD 0) 64 h.nres |>.map (BitVec.ofNat 64) }
        if g.passes.any (fun p => decide (p.cls > l.classcap)) then (9, l)
        else if !versionOk d ctx l.codever then (10, l)
        else if cardBad l then (11, l)
        else if busy then (12, l)
        else if binds.isNone || (l.done != 0 && (engPiecesOf d ctx l.done 8 .write t).isNone) || !arenaOk d l t then (13, l)
        else (0, l)

/-- The reads that acceptance makes for a launch record: the header of the graph, its arrays, the binding table; and
the write it looks at, of the DONE word. -/
def loadReads (d : Dev) (ctx v : Nat) (t : Nat := 2) : List (DWord × Nat × AKind) :=
  let l := launchOf v ctx
  let base := BitVec.ofNat 64 (bitsN v 0 64)
  let rest := match (engRead d ctx base 64 t).map gheaderOf with
    | none => []
    | some h =>
      if !h.countsOk then []
      else ([(h.passoff, 64 * h.npass), (h.resoff, 32 * h.nres), (h.stenoff, 8 * h.nsten), (h.iooff, 4 * h.nio),
          (h.shapeoff, 16 * h.nshape)].map (fun x => (base + BitVec.ofNat 64 x.1, x.2, AKind.read))) ++
        [(l.bind, 8 * h.nres, .read)] ++ (if l.done = 0 then [] else [(l.done, 8, .write)])
  (base, 64, .read) :: rest

/-- What the reads of an accepted launch leave behind, and those of one refused with FETCH. -/
def loadMark (d : Dev) (ctx v : Nat) (t : Nat := 2) : Dev :=
  (loadReads d ctx v t).foldl (fun d r => if r.2.2 = .read then engMark d ctx r.1 r.2.1 t else d) d
def loadFail (e : Env) (d : Dev) (ctx v : Nat) (t : Nat := 2) : Dev :=
  (loadReads d ctx v t).foldl (fun d r => engFail e d ctx r.1 r.2.1 r.2.2 t) d

/-! ### Acceptance (R352) -/

/-- The producer pass of a resource. -/
def Launch.producer (l : Launch) (r : Nat) : Option Nat :=
  (List.range l.graph.passes.length).find? (fun p => (l.pass p).outs.contains r)

/-- A resource tile; one never touched stands as R351 starts it. -/
def Launch.rt (l : Launch) (k : Nat) : RTile :=
  match l.rts.find? k with
  | some t => t
  | none => if !(l.resD (k / 2 ^ 24)).transient && (l.producer (k / 2 ^ 24)).isNone then { st := .ready, seen := true } else {}

/-- Fields of a tile key. -/
def tkP (k : Nat) : Nat := k / 2 ^ 24
def tkY (k : Nat) : Nat := k / 2 ^ 12 % 2 ^ 12
def tkX (k : Nat) : Nat := k % 2 ^ 12

/-- The resource tiles a consumer tile covers, one entry for each input that covers it. -/
def Launch.covers (l : Launch) (k : Nat) : List Nat :=
  let p := l.pass (tkP k)
  p.ins.flatMap (fun i => (cover p (tkX k) (tkY k) (l.resD i.1) (l.sten i.2)).tiles.map (fun t => rtKey i.1 t.1 t.2))

/-- The inputs of a consumer tile that cover a resource tile. -/
def Launch.coverCount (l : Launch) (k r : Nat) : Nat :=
  let p := l.pass (tkP k)
  (p.ins.filter (fun i => i.1 == tkP r &&
    (cover p (tkX k) (tkY k) (l.resD i.1) (l.sten i.2)).has (tkX r) (tkY r))).length

/-- The tower that runs a tile. -/
def Launch.tileTower (l : Launch) (k : Nat) : Nat := l.rowTower (l.pass (tkP k)) (tkY k)

/-- A number joins a rising list. -/
def insNat (x : Nat) : List Nat → List Nat
  | [] => [x]
  | y :: r => if x < y then x :: y :: r else if x = y then y :: r else y :: insNat x r

/-- A tile joins its pass's dispatch queue: the order is that of the cycle of its release, then row-major
(R353); a re-execution stands at the head, as released in cycle 0 (R360). -/
def Launch.enqueue (l : Launch) (k cyc : Nat) : Launch :=
  let q := tkP k * 2 + l.tileTower k
  { l with queues := l.queues.set q (insNat (cyc * 2 ^ 24 + k % 2 ^ 24) (l.queues.get q [])) }

/-- A tile leaves its queue. -/
def Launch.dequeue (l : Launch) (k : Nat) : Launch :=
  let q := tkP k * 2 + l.tileTower k
  { l with queues := l.queues.set q ((l.queues.get q []).filter (fun x => !(x % 2 ^ 24 == k % 2 ^ 24))) }

/-- The tower whose scoreboard changes a resource tile: that of its producer, or, of a row of the other card, tower 1
with the Ethernet ports (R6, R365, R366); none of a resource that no pass writes. -/
def Launch.homeOf (l : Launch) (k : Nat) : Option Nat :=
  (l.producer (tkP k)).map (fun p =>
    if rowCard (l.pass p) (tkY k) = l.card then l.rowTower (l.pass p) (tkY k) else 1)

/-- A resource tile is READY for the scoreboard of a tower: in its own tower when it is, in the other one while the
mirror messages say so (R365). -/
def Launch.readyFor (l : Launch) (t k : Nat) : Bool :=
  match l.homeOf k with
  | none => (l.rt k).st == .ready
  | some h => if h = t then (l.rt k).st == .ready else (l.rt k).seen

/-- The count of a consumer tile: pairs whose resource tile is not READY for its tower. -/
def Launch.waits (l : Launch) (k : Nat) : Nat := ((l.covers k).filter (fun r => !l.readyFor (l.tileTower k) r)).length

/-- The consumer tiles of a launch as it starts. -/
def Launch.start (l : Launch) (now : Nat) : Launch :=
  let keys := (List.range l.graph.passes.length).flatMap (fun p =>
    (l.rows (l.pass p)).flatMap (fun y => (List.range ((l.pass p).gridw + 1)).map (fun x => rtKey p x y)))
  let l := { l with cts := keys.map (fun k =>
    let n := l.waits k
    (k, if n = 0 then .released else .waiting n)) }
  l.cts.foldl (fun l p => match p.2 with
    | .released => l.enqueue p.1 (now + 1)
    | _ => l) l

/-- REFS of a code version's entry, changed by `f`; RETIRING with none left becomes free (R401). -/
def refsMod (d : Dev) (ctx id : Nat) (f : Nat → Nat) : Dev :=
  match cvtFind d ctx id with
  | none => d
  | some a =>
    let n := f (d.mem.readN (a + 56) 4)
    let d := { d with mem := d.mem.writeN (a + 56) 4 n }
    let s := d.mem.readN (a + 4) 4
    if n = 0 ∧ s % 4 = 3 then { d with mem := d.mem.writeN (a + 4) 4 (s - 3) } else d

/-- READY changes of the other card that came before the launch did (R366). -/
def earlyReady (d : Dev) (l : Launch) : Launch :=
  if !l.graph.spansCards then l
  else (d.eth.early.filter (fun x => x.1 == l.seq.toNat)).foldl (fun (l : Launch) x =>
    { l with rts := l.rts.set x.2 { l.rt x.2 with st := .ready, seen := true } }) l

/-- A launch is accepted by a tower: its number and the state it starts with.  The other tower has its part with a
message; without the link to carry it the launch is aborted (R8, R149, R424). -/
def acceptLaunch (d : Dev) (l : Launch) (sub : Option (Nat × Nat)) (scope : DWord) (v t : Nat) : Dev :=
  let id := d.nextLaunch
  let d := loadMark d l.ctx v t
  let there := l.towers.testBit (1 - t)
  let l := (earlyReady d { l with
    order := id, sub := sub, scope := scope, parts := [t], aborted := there && !d.uciUp, heard := if there && !d.uciUp then [0, 1] else [] }).start d.now
  let d : Dev := { d with
    launches := d.launches.set id l, nextLaunch := id + 1
    eth := { d.eth with early := if l.graph.spansCards then d.eth.early.filter (fun x => !(x.1 == l.seq.toNat)) else d.eth.early } }
  refsMod (if there then mirror d t 4 id 0 else d) l.ctx l.codever (· + 1)

/-- The reason of a refusal in `GSTAT`.LASTREF (R347, R372) of the towers that the launch selects; of
tower 0 when it selects none. -/
def noteRefused (d : Dev) (l : Launch) (reason : Nat) : Dev :=
  let ts := if l.towers = 0 then [0] else [0, 1].filter (fun t => l.towers.testBit t)
  ts.foldl (fun d t => d.modTower t (fun x => { x with lastref := reason })) d

end Sys2Proof.Machine
end

