-- ==== Sys2Proof/Machine/Trellis.lean ====
section
/-! DEFINITION.  Trellis: resource and consumer tiles, dispatch, gangs, successor counters, finish scopes,
retirement and re-execution (R351 to R366). -/

namespace Sys2Proof.Machine

/-- A launch; the reading of one that is not held. -/
def noLaunch : Launch := launchOf 0 0
def Dev.launch (d : Dev) (l : Nat) : Launch := d.launches.get l noLaunch

/-! ### Resource tiles (R351, R352, R365) -/

def Launch.setRt (l : Launch) (k : Nat) (f : RTile → RTile) : Launch := { l with rts := l.rts.set k (f (l.rt k)) }

/-- The place of a tile is given back (R107, R108). -/
def Launch.freePlace (l : Launch) (k : Nat) : Launch :=
  let l1 : Launch := match (l.rt k).place with
    | .slot t n => { l with rings := l.rings.modify (tkP k * 2 + t) (fun r => { r with used := r.used.filter (fun x => !(x == n)) }) }
    | .ovf n => { l with ovf := l.ovf.filter (fun x => !(x == tkP k * 2 ^ 32 + n)) }
    | _ => l
  l1.setRt k (fun t => { t with place := .none })

/-- The lowest-numbered FREE slot of a tile's ring in a tower, else the overflow area (R107, R108). -/
def Launch.freeSlot (l : Launch) (res t : Nat) : Option Place :=
  let r := l.resD res
  let slot := match l.rings.find? (res * 2 + t) with
    | some g => (List.range g.places.length).find? (fun n => !g.used.contains n && !g.lost.contains n)
    | none => none
  match slot with
  | some n => some (.slot t n)
  | none =>
    if r.overflow then
      ((List.range r.ovfslots).find? (fun n => !l.ovf.contains (res * 2 ^ 32 + n))).map (fun n => .ovf n)
    else none

/-- A tile takes a place. -/
def Launch.takePlace (l : Launch) (k : Nat) (p : Place) : Launch :=
  let l1 : Launch := match p with
    | .slot t n => { l with rings := l.rings.modify (tkP k * 2 + t) (fun r => { r with used := insNat n r.used }) }
    | .ovf n => { l with ovf := l.ovf ++ [tkP k * 2 ^ 32 + n] }
    | _ => l
  l1.setRt k (fun t => { t with place := p })

/-- Some consumer tile that a tower runs covers a resource tile. -/
def Launch.usedIn (l : Launch) (t k : Nat) : Bool :=
  l.cts.any (fun p => l.tileTower p.1 == t && decide (l.coverCount p.1 k > 0))

/-- A covered tile has become READY for the consumers of a tower (R352). -/
def Launch.countDown (l : Launch) (t k now : Nat) : Launch :=
  l.cts.foldl (fun l p => match p.2 with
    | .waiting n =>
      let c := if l.tileTower p.1 = t then l.coverCount p.1 k else 0
      if c = 0 then l
      else if n ≤ c then { l with cts := l.cts.set p.1 .released }.enqueue p.1 (if (l.redo.find? p.1).isSome then 0 else now + 1)
      else { l with cts := l.cts.set p.1 (.waiting (n - c)) }
    | _ => l) l

/-- One consumer tile of a re-execution has the answer that it waited for (R360; log 86). -/
def Launch.countOne (l : Launch) (ck k : Nat) : Launch :=
  let c := l.coverCount ck k
  match l.cts.find? ck with
  | some (.waiting n) =>
    if n ≤ c then { l with cts := l.cts.set ck .released }.enqueue ck 0 else { l with cts := l.cts.set ck (.waiting (n - c)) }
  | _ => l

/-- A covered tile has become LOST for the consumers of a tower (R352). -/
def Launch.countUp (l : Launch) (t k : Nat) : Launch :=
  l.cts.foldl (fun l p =>
    let c := if l.tileTower p.1 = t then l.coverCount p.1 k else 0
    if c = 0 then l
    else match p.2 with
      | .waiting n => { l with cts := l.cts.set p.1 (.waiting (n + c)) }
      | .released => { l with cts := l.cts.set p.1 (.waiting c) }.dequeue p.1
      | _ => l) l

/-- Consumer tiles that cover a resource tile and have not retired: CV at first, and the count of R360. -/
def Launch.readers (l : Launch) (k : Nat) : Nat :=
  (l.cts.filter (fun p => p.2 != .retired && decide (l.coverCount p.1 k > 0))).length

/-- A row of the other card reads a persistent tile (R366). -/
def Launch.peerReads (l : Launch) (k : Nat) : Bool :=
  !(l.resD (tkP k)).transient && l.graph.passes.any (fun p => p.ins.any (fun i => i.1 == tkP k &&
    (List.range (p.gridh + 1)).any (fun y => rowCard p y != l.card &&
      (List.range (p.gridw + 1)).any (fun x => (cover p x y (l.resD i.1) (l.sten i.2)).has (tkX k) (tkY k)))))

/-- A READY frame sent through a port stands unacknowledged (R366, R425). -/
def ethSend (d : Dev) (port : Nat) (launch : DWord) (tile : Nat) : Dev :=
  let n := d.eth.tx.get port 0
  { d with eth := { d.eth with
      tx := d.eth.tx.set port ((n + 1) % 2 ^ 64)
      unacked := d.eth.unacked ++ [{ port := port, seq := n, launch := launch, tile := tile, last := d.now, first := d.now }] } }

/-- Decrements of a tile's LRC that the other tower has sent and its own tower has not taken. -/
def decrementsOut (d : Dev) (lid k : Nat) : Nat :=
  (d.agenda.filter (fun e => match e with
    | .ucieMirrorMessage p => p.launch == lid && p.a == k && p.kind == 1
    | _ => false)).length

/-- A resource tile becomes READY in its tower: its last-reader count, of the consumer tiles that have not retired as far
as that tower has heard, and its consumers' counts; the other tower and the other card are told (R351, R360, R365,
R366). -/
def tileReady (d : Dev) (lid k : Nat) : Dev :=
  let l := d.launch lid
  let t := (l.homeOf k).getD 0
  let n := l.readers k + decrementsOut d lid k
  let l1 := l.setRt k (fun x => { x with st := .ready, lrc := n, lost := false })
  let l2 := l1.countDown t k d.now
  let l3 := if n = 0 ∧ (l.resD (tkP k)).transient then (l2.freePlace k).setRt k (fun x => { x with st := .freed }) else l2
  let d1 := { d with launches := d.launches.set lid l3 }
  let d2 := if l.usedIn (1 - t) k then mirror d1 t 0 lid k else d1
  if l.peerReads k && (t == 1 || d.uciUp) then ethSend d2 0 l.seq k else d2

/-- A reader of a READY tile has retired (R107, R351). -/
def Launch.lrcDown (l : Launch) (k : Nat) : Launch :=
  let x := l.rt k
  if x.st != .ready then l
  else
    let n := x.lrc - 1
    let l1 := l.setRt k (fun x => { x with lrc := n })
    if n = 0 ∧ (l.resD (tkP k)).transient then (l1.freePlace k).setRt k (fun x => { x with st := .freed }) else l1

/-! ### Lost tiles (R360) -/

/-- A tile is marked LOST in its tower, and a retired producer is executed again, with the transient inputs it needs; of
an input that the other tower keeps, that tower is asked (R8, R360, points 1 to 4; log 86). -/
def loseTile : Nat → Dev → Nat → Nat → Dev
  | 0, d, _, _ => d
  | n + 1, d, lid, k =>
    let l := d.launch lid
    let x := l.rt k
    let t := (l.homeOf k).getD 0
    let l1 := (l.freePlace k).setRt k (fun x => { x with st := .idle, lost := true, lrc := 0 })
    let l2 := if x.st = .ready then l1.countUp t k else l1
    let d : Dev := { d with launches := d.launches.set lid l2 }
    let d := if (x.st == .ready && l.usedIn (1 - t) k) || (x.st == .freed && x.seen) then mirror d t 2 lid k else d
    match l.producer (tkP k) with
    | none => d
    | some p =>
      let ck := rtKey p (tkX k) (tkY k)
      match l.cts.find? ck with
      | some .retired =>
        let ins := ((l2.covers ck).eraseDups).filter (fun r => (l2.resD (tkP r)).transient)
        let here (r : Nat) : Bool := (l2.homeOf r).getD t == t
        let asked (r : Nat) : Bool := !here r && l2.readyFor t r
        let d := (ins.filter here).foldl (fun d r =>
          let y := (d.launch lid).rt r
          if y.st = .freed then loseTile n d lid r
          else if y.st = .ready then d.modLaunch lid (fun l => l.setRt r (fun z => { z with lrc := z.lrc + 1 }))
          else d) d
        let d := (ins.filter (fun r => !here r)).foldl (fun d r =>
          mirrorSend d { src := t, seq := 0, kind := 8, launch := lid, a := r, b := ck * 2 + b2n (asked r) }) d
        let d := d.modTower (l.tileTower ck) (fun w => { w with reexec := min 0xFFFF (w.reexec + 1) })
        d.modLaunch lid (fun (l : Launch) =>
          let l : Launch := { l with redo := l.redo.set ck d.now }
          let w := (ins.filter asked).foldl (fun w r => w + l.coverCount ck r) (l.waits ck)
          if w = 0 then ({ l with cts := l.cts.set ck .released } : Launch).enqueue ck 0
          else { l with cts := l.cts.set ck (.waiting w) })
      | _ => d

/-- A tower is asked for a resource tile that a re-execution in the other one covers: it keeps the tile for one more
reader, or has it produced again, and answers (R360; log 86). -/
def needTile (d : Dev) (lid k b : Nat) : Dev :=
  let l := d.launch lid
  let t := (l.homeOf k).getD 0
  let d := match (l.rt k).st with
    | .freed => loseTile 65 d lid k
    | .ready => d.modLaunch lid (fun l => l.setRt k (fun z => { z with lrc := z.lrc + 1 }))
    | _ => d
  if b % 2 = 1 then mirrorSend d { src := t, seq := 0, kind := 9, launch := lid, a := k, b := b } else d

/-! ### Task records (R355, R356, R361) -/

/-- A task record from its 64 bytes. -/
def taskOf (v : Nat) : Task :=
  { entry := BitVec.ofNat 64 (bitsN v 0 64), arg := BitVec.ofNat 64 (bitsN v 64 64), tx := bitsN v 128 16
    ty := bitsN v 144 16, pass := bitsN v 160 8, cls := bitsN v 168 3, flags := bitsN v 176 3
    succ := BitVec.ofNat 64 (bitsN v 192 64), fscope := bitsN v 256 8, shape := bitsN v 264 8, codever := bitsN v 288 32
    bind := BitVec.ofNat 64 (bitsN v 320 64), user0 := BitVec.ofNat 64 (bitsN v 384 64)
    user1 := BitVec.ofNat 64 (bitsN v 448 64), rz := bitsN v 171 5 + bitsN v 179 13 + bitsN v 272 16 }

/-- The 64 bytes of a task record. -/
def taskBits (t : Task) : Nat :=
  t.entry.toNat + t.arg.toNat * 2 ^ 64 + t.tx * 2 ^ 128 + t.ty * 2 ^ 144 + t.pass * 2 ^ 160 + t.cls * 2 ^ 168 +
    t.flags * 2 ^ 176 + t.succ.toNat * 2 ^ 192 + t.fscope * 2 ^ 256 + t.shape * 2 ^ 264 + t.codever * 2 ^ 288 +
    t.bind.toNat * 2 ^ 320 + t.user0.toNat * 2 ^ 384 + t.user1.toNat * 2 ^ 448

/-- An address translates for atomic access, whatever the access would meet there (R361). -/
def transAtomic (d : Dev) (ctx : Nat) (va : DWord) : Bool :=
  match plainTarget d ctx va .atomic 0 with
  | .ok _ => true
  | .error (.data s _) => s == 4
  | .error _ => false

/-- R361: a record that a task outside the scoreboard may have; its counter must translate for atomic access. -/
def taskOk (d : Dev) (l : Launch) (t : Task) : Bool :=
  t.rz == 0 && t.entry.toNat % 12 == 0 && t.pass == 0xFF && decide (t.cls ≤ l.classcap) && t.flags % 4 == 0 &&
    decide (t.fscope ≤ 5) && decide (t.shape < l.graph.shapes.length) && versionOk d l.ctx t.codever &&
    (t.succ == 0 || (t.succ.toNat % 16 == 0 && transAtomic d l.ctx t.succ))

/-- The lowest free arena record from `lo` on, below `hi`. -/
def freeRec (l : Launch) (lo hi : Nat) : Option Nat := ((List.range (hi - lo)).map (· + lo)).find? (fun i => !l.recs.contains i)
/-- VA of an arena record. -/
def recVa (l : Launch) (i : Nat) : DWord := l.arena + BitVec.ofNat 64 (64 * i)
/-- Index of an arena record. -/
def recIdx (l : Launch) (va : DWord) : Nat := (va - l.arena).toNat / 64

/-- A failed write of `n` bytes by the engine (R450). -/
def writeFailed (e : Env) (d : Dev) (t lid : Nat) (va : DWord) (n : Nat) : Dev :=
  let d := engFail e d (d.launch lid).ctx va n .write t
  abortLaunch (d.modTower t (fun w => { w with wrerr := min 0xFFFF (w.wrerr + 1), gerrva := va })) t lid

/-- A record enters the spawn queue of its class in a tower, copied into the arena of its launch; none
when no record is free. -/
def spawnTask (e : Env) (d : Dev) (t lid : Nat) (task : Task) (scope : DWord) (held : Option DWord) : Option Dev :=
  let l := d.launch lid
  match (match held with
    | some va => some va
    | none => (freeRec l 8192 l.arenasz).map (recVa l)) with
  | none => none
  | some va =>
    let d := d.modLaunch lid (fun l => { l with
      recs := if l.recs.contains (recIdx l va) then l.recs else l.recs ++ [recIdx l va], extra := l.extra + 1 })
    match (if held.isSome then some d else engStore e d l.ctx va 64 (taskBits task) t) with
    | none => some (writeFailed e (d.modLaunch lid (fun l => { l with
        recs := l.recs.filter (fun x => !(x == recIdx l va)), extra := l.extra - 1 })) t lid va 64)
    | some d =>
      some (d.modTower t (fun w => { w with
        spawn := w.spawn.set task.cls (w.spawn.get task.cls [] ++ [{ launch := lid, va := va, task := task, scope := scope }]) }))

/-! ### Finish scopes (R363) -/

/-- Fields of a scope handle. -/
def scopeIdx (h : DWord) : Nat := fieldN h 8 8
def scopeTower (h : DWord) : Nat := fieldN h 32 1
/-- The entry that a handle names while its generation matches. -/
def scopeFind (d : Dev) (h : DWord) : Option FScope :=
  let w := d.tower (scopeTower h)
  if h.getLsbD 33 && fieldN h 34 30 == 0 && fieldN h 0 8 == 0 && w.scopeGen.get (scopeIdx h) 0 == fieldN h 16 16 then
    w.scopes.find? (scopeIdx h)
  else none

def scopeSet (d : Dev) (h : DWord) (f : FScope → FScope) : Dev :=
  d.modTower (scopeTower h) (fun w => { w with scopes := w.scopes.modify (scopeIdx h) f })

/-- COUNT falls by `n`; at 0 the continuation is enqueued as a member of the parent, the parent loses the
entry's hold, and the entry is freed (R363).  A parent in the other tower keeps its COUNT: the member that joins and
the hold that goes are one. -/
def scopeDown (e : Env) : Nat → Dev → DWord → Nat → Dev
  | 0, d, _, _ => d
  | fuel + 1, d, h, n =>
    match scopeFind d h with
    | none => d
    | some s =>
      if s.count > n then scopeSet d h (fun s => { s with count := s.count - n })
      else
        let d := d.modTower (scopeTower h) (fun w => { w with
          scopes := w.scopes.erase (scopeIdx h)
          scopeGen := w.scopeGen.set (scopeIdx h) ((w.scopeGen.get (scopeIdx h) 0 + 1) % 65536) })
        let far := s.parent != 0 && scopeTower s.parent != scopeTower h
        let live := s.parent != 0 && !far && (scopeFind d s.parent).isSome
        let d := if live then scopeSet d s.parent (fun p => { p with count := p.count + 1 }) else d
        let d := if (d.launch s.launch).aborted then
            d.modLaunch s.launch (fun l => { l with recs := l.recs.filter (fun x => !(x == recIdx l s.va)) })
          else (spawnTask e d (scopeTower h) s.launch s.cont (if live || far then s.parent else 0) (some s.va)).getD d
        if live then scopeDown e fuel d s.parent 1 else d

/-- A member leaves its scope, from a tower: a scope of the other tower hears of it over UCIe. -/
def scopeLeave (e : Env) (d : Dev) (t : Nat) (h : DWord) : Dev :=
  if h = 0 then d
  else if scopeTower h = t then scopeDown e 512 d h 1
  else mirror d t 6 0 h.toNat
/-- The scope of a task still stands, as its tower or, from the other one, the task's membership says. -/
def scopeLive (d : Dev) (t : Nat) (h : DWord) : Bool := h != 0 && (scopeTower h != t || (scopeFind d h).isSome)
/-- A member joins the scope of the task that a tower retires or that issued a command there. -/
def scopeEnter (d : Dev) (t : Nat) (h : DWord) : Dev :=
  if scopeTower h = t then scopeSet d h (fun s => { s with count := s.count + 1 }) else mirror d t 7 0 h.toNat

/-! ### Successor counters (R362) -/

/-- Where a counter is, translated for atomic access by a tower's engine. -/
def counterAt (d : Dev) (ctx : Nat) (va : DWord) (t : Nat := 2) : Option (Nat × Page × List ADSet) :=
  if va.toNat % 16 ≠ 0 ∨ windowOf va.toNat ≠ 0 then none
  else match plainTarget d ctx va .atomic (d.opt 1) with
    | .ok (.mem pa pg, ads) => if linkCut d t pa || (readErr d pa).isSome || (writeErr d pa).isSome then none else some (pa, pg, ads)
    | _ => none

/-- What a counter that cannot be read leaves in the logs (R105). -/
def counterFail (e : Env) (d : Dev) (ctx : Nat) (va : DWord) (t : Nat := 2) : Dev :=
  if va.toNat % 16 ≠ 0 then d else engFail e d ctx va 16 .atomic t

/-- The outcome of a decrement: COUNT afterwards, or why it fails. -/
inductive Succ where
  | done (d : Dev) (count : Nat)
  | under
  | refused
  | full
  | failed

/-- One decrement of a successor counter by `n`; the one that reaches 0 enqueues the record. -/
def succDown (e : Env) (d : Dev) (t lid : Nat) (va : DWord) (n : Nat) (scope : DWord) : Succ :=
  let l := d.launch lid
  match counterAt d l.ctx va t with
  | none => .failed
  | some (pa, pg, ads) =>
    let c := d.mem.readN pa 4
    let put (d : Dev) (v : Nat) : Dev := memWrite e (touch d l.ctx ads) pa 4 v pg
    if c < n then .under
    else if c > n then .done (put d (c - n)) (c - n)
    else
      let rva := BitVec.ofNat 64 (d.mem.readN (pa + 8) 8)
      match (if rva.toNat % 64 ≠ 0 then none else engRead d l.ctx rva 64 t) with
      | none => .failed
      | some v =>
        let task := taskOf v
        if !taskOk d l task then .refused
        else
          let live := scopeLive d t scope
          let d1 := put (engMark d l.ctx rva 64 t) 0
          let d2 := if live then scopeEnter d1 t scope else d1
          match spawnTask e d2 t lid task (if live then scope else 0) none with
          | none => .full
          | some d3 => .done d3 0

/-- The decrement at retirement; a failure is counted and dropped. -/
def succRetire (e : Env) (d : Dev) (t lid : Nat) (va scope : DWord) : Dev :=
  if va = 0 then d
  else match succDown e d t lid va 1 scope with
    | .done d _ => d
    | _ => (counterFail e d (d.launch lid).ctx va t).modTower t (fun w => { w with succerr := min 0xFFFF (w.succerr + 1), gerrva := va })

/-! ### The end of a launch (R352, R389, R420) -/

/-- A completion entry, and its interrupt; one that cannot be written is logged, and brings none (R414, R420; log 88). -/
def complete (e : Env) (d : Dev) (q n status reason : Nat) : Dev :=
  let x := d.queue q
  let k := x.cqtail
  let phase := (k / 2 ^ (x.log2sz + 1)) % 2
  let lo := n % 2 ^ 64
  let hi := status + reason * 2 ^ 8 + q * 2 ^ 16 + (1 - phase) * 2 ^ 63
  let pa := x.cqbase.toNat + 16 * (k % 2 ^ (x.log2sz + 1))
  let (d, ok) := physOut e d ((ctxOfAsid d x.asid).getD 0) pa 16 (lo + hi * 2 ^ 64)
  let d := d.modQueue q (fun x => { x with cqtail := (k + 1) % 2 ^ 32 })
  if ok then d.msi q else d

/-- Groups of a launch, resident or saved. -/
def launchGroups (d : Dev) (lid : Nat) : Bool :=
  d.groups.any (fun p => p.2.launch == lid) || d.saved.any (fun s => s.group.launch == lid)

/-- The tower that completes a launch: that of its queue, which is tower 0's, or else the lowest of those that the launch
selects (R6, R8). -/
def Launch.doneTower (l : Launch) : Nat := if l.towers.testBit 0 ∨ l.sub.isSome then 0 else 1

/-- The other tower has sent word of a retirement or of the abort that has not been taken (R8). -/
def wordOut (d : Dev) (lid : Nat) : Bool := d.agenda.any (fun e => match e with
  | .ucieMirrorMessage p => p.launch == lid && (p.kind == 10 || p.kind == 11)
  | _ => false)

/-- Nothing of a launch is left to do, as far as the tower that completes it has heard. -/
def launchOver (d : Dev) (lid : Nat) : Bool :=
  let l := d.launch lid
  !l.finished && (d.launches.find? lid).isSome && !launchGroups d lid && !wordOut d lid &&
    (d.uciUp || l.towers.testBit l.doneTower || (l.aborted && l.heard.contains 0)) &&
    (l.aborted || (l.cts.all (fun p => p.2 == .retired) && l.redo.isEmpty && l.extra == 0))

/-- Scopes that still name a launch. -/
def scopesOf (d : Dev) (lid : Nat) : Bool := d.towers.any (fun p => p.2.scopes.any (fun s => s.2.launch == lid))

/-- A completed launch that nothing names any more is forgotten. -/
def reapLaunch (d : Dev) (lid : Nat) : Dev :=
  let l := d.launch lid
  if l.finished && !launchGroups d lid && !scopesOf d lid && (l.aborted || l.extra == 0) then
    { d with launches := d.launches.erase lid }
  else d

/-- A launch that has come to its end: DONE, the second completion entry, its scope; its rings are
unbound (R352, R389, R450). -/
def finishLaunch (e : Env) (d : Dev) (lid : Nat) : Dev :=
  if !launchOver d lid then reapLaunch d lid
  else
    let l := d.launch lid
    let t := l.doneTower
    let v := if l.aborted then ~~~l.seq else l.seq
    let (d, failed) := if l.done = 0 then (d, false)
      else match engStore e d l.ctx l.done 8 v.toNat t with
        | some d => (d, false)
        | none => (writeFailed e d t lid l.done 8, true)
    let d := match l.sub with
      | some (q, n) => complete e d q n (if l.aborted || failed then 3 else 2) 0
      | none => d
    let d := refsMod d l.ctx l.codever (· - 1)
    let d : Dev := { d with towers := d.towers.map (fun (p : Nat × Tower) => (p.1, { p.2 with
      spawn := p.2.spawn.map (fun q => (q.1, q.2.filter (fun s => !(s.launch == lid))))
      gangs := p.2.gangs.filter (fun g => !(g.launch == lid)) })) }
    let d := d.modLaunch lid (fun l => { l with finished := true, rings := [], ovf := [], queues := [], cts := [], redo := [] })
    reapLaunch (scopeLeave e d t l.scope) lid

/-! ### Dispatch (R354) -/

/-- What a core holds beside its groups: the uncommitted reservations of a tower's gangs, those of a class
below `below` and the gang numbered `skip` apart (R358). -/
def heldBy (g : GangRes) : List Nat := g.members.take (g.reserved + b2n (g.since != 0))
def occRes (d : Dev) (t c below : Nat) (skip : Option Nat) : Occ :=
  ((d.tower t).gangs.zipIdx.filter (fun x => decide (below ≤ x.1.cls) && some x.2 != skip && (heldBy x.1).contains c)).foldl
    (fun o x => match o.place x.1.shape with
      | some (_, o') => o'
      | none => o) (occOf d c)

/-- The head of a dispatch queue or of a spawn queue, as the dispatcher ranks it. -/
structure Cand where
  cls : Nat
  order : Nat
  /-- Pass index, 64 for a spawn queue. -/
  idx : Nat
  launch : Nat
  /-- Tile key, or the spawn queue's class. -/
  key : Nat
  shape : Shape
  cores : List Nat
  spawned : Option Spawned
  deriving DecidableEq, Repr

def candBefore (a b : Cand) : Bool :=
  if a.cls ≠ b.cls then decide (b.cls < a.cls) else decide (a.order < b.order ∨ a.order = b.order ∧ a.idx < b.idx)
def insCand (x : Cand) : List Cand → List Cand
  | [] => [x]
  | y :: r => if candBefore x y then x :: y :: r else y :: insCand x r

/-- The heads of a tower's queues, highest ranked first; an aborted launch dispatches nothing. -/
def candsOf (d : Dev) (t : Nat) : List Cand :=
  let tiles := d.launches.flatMap (fun q =>
    let l := q.2
    if (l.aborted && l.heard.contains t) || l.finished || !l.parts.contains t then []
    else (List.range l.graph.passes.length).filterMap (fun p =>
      match (l.queues.get (p * 2 + t) []).head? with
      | none => none
      | some x =>
        let k := p * 2 ^ 24 + x % 2 ^ 24
        let ps := l.pass p
        let c := if (l.redo.find? k).isSome then 7 else l.classes.get (p * 2 + t) ps.cls
        let s := l.shape ps.shape
        some { cls := c, order := l.order, idx := p, launch := q.1, key := k, shape := s
               cores := (maskCores ps t).filter (fun c => coreUsable d c s.stream), spawned := none }))
  let spawns := (d.tower t).spawn.filterMap (fun q => match q.2.head? with
    | none => none
    | some x =>
      let l := d.launch x.launch
      if l.aborted && l.heard.contains t then none
      else
        let s := l.shape x.task.shape
        some { cls := q.1, order := l.order, idx := 64, launch := x.launch, key := q.1, shape := s
               cores := ((List.range 64).map (· + 64 * t)).filter (fun c => coreUsable d c s.stream), spawned := some x })
  (tiles ++ spawns).foldl (fun acc c => insCand c acc) []

/-- A tile's transient outputs that need a place at dispatch, and the places they take; none when one finds
none (R108). -/
def placesFor (l : Launch) (k : Nat) : Option (List (Nat × Place)) :=
  let p := l.pass (tkP k)
  let t := l.tileTower k
  (p.outs.eraseDups.foldl (fun (acc : Option (Launch × List (Nat × Place))) r =>
    match acc with
    | none => none
    | some (l, ps) =>
      let rk := rtKey r (tkX k) (tkY k)
      let x := l.rt rk
      if !(l.resD r).transient || !(x.st == .idle || x.st == .freed) then some (l, ps)
      else match l.freeSlot r t with
        | none => none
        | some pl => some (l.takePlace rk pl, ps ++ [(rk, pl)])) (some (l, []))).map (·.2)

/-- A head has its arena record and its ring slots. -/
def candReady (d : Dev) (c : Cand) : Bool :=
  c.spawned.isSome || ((freeRec (d.launch c.launch) 0 8192).isSome && (placesFor (d.launch c.launch) c.key).isSome)

/-- What the dispatcher does with a head that can start. -/
inductive Act where
  | start (c : Cand) (core : Nat)
  | gang (c : Cand) (members : List Nat)
  | cancel (gangs : List Nat)
  deriving DecidableEq, Repr

/-- Gangs of a lower class that hold one of some cores. -/
def lowerGangs (d : Dev) (t cls : Nat) (cs : List Nat) : List Nat :=
  ((d.tower t).gangs.zipIdx.filter (fun x => decide (x.1.cls < cls) && (heldBy x.1).any (fun c => cs.contains c))).map (·.2)

/-- Whether a head can start now, and how (R354, R358). -/
def tryCand (d : Dev) (t : Nat) (c : Cand) : Option Act :=
  let w := d.tower t
  if !candReady d c || w.gangs.any (fun g => g.launch == c.launch && g.pass == c.idx && (c.idx != 64 || g.cls == c.cls)) ||
      w.gangHold.any (fun h => h.1 == c.launch && h.2.1 == c.idx && h.2.2 == d.now) then none
  else if c.shape.gang = 1 then
    let best (below : Nat) : Option (Nat × Nat) :=
      (c.cores.filterMap (fun k =>
        let o := occRes d t k below none
        if (o.place c.shape).isSome then some (k, o.free) else none)).foldl
        (fun b x => match b with
          | some y => if x.2 > y.2 then some x else some y
          | none => some x) none
    match best 0 with
    | some x => some (.start c x.1)
    | none => (best c.cls).map (fun x => .cancel (lowerGangs d t c.cls [x.1]))
  else
    let best (below : Nat) : Option (List Nat) :=
      gangCores c.shape.gang (c.cores.filter (fun k => ((occRes d t k below none).place c.shape).isSome))
    match best 0 with
    | some ms => some (.gang c ms)
    | none => (best c.cls).map (fun ms => .cancel (lowerGangs d t c.cls ms))

/-- The heads as the dispatcher takes them: those whose gang was cancelled at its limit come last (R358). -/
def headsOf (d : Dev) (t : Nat) : List Cand :=
  let late (c : Cand) : Bool := (d.tower t).gangLate.contains (c.launch, c.idx)
  (candsOf d t).filter (fun c => !late c) ++ (candsOf d t).filter late

/-- The tower's next dispatch, none while every head is held. -/
def dispatchChoice (d : Dev) (t : Nat) : Option Act :=
  if (d.tower t).dispatched > d.now then none else (headsOf d t).findSome? (tryCand d t)

/-- The scope of a task's retirement edge: SYS when a resource of its pass is host-visible or the graph
spans two cards (R356). -/
def passFscope (l : Launch) (p : Pass) : Nat :=
  if l.graph.spansCards || (p.ins.map (·.1) ++ p.outs).any (fun r => (l.resD r).hostvis) then 5 else 4

/-- The record of a scoreboard tile (R356). -/
def tileTask (l : Launch) (c : Cand) : Task :=
  let p := l.pass (tkP c.key)
  { entry := p.entry, arg := l.argbase + BitVec.ofNat 64 p.argoff, tx := tkX c.key, ty := tkY c.key, pass := tkP c.key
    cls := c.cls, flags := 1 + b2n (l.redo.find? c.key).isSome * 2 + b2n p.recarg * 4, succ := 0, fscope := passFscope l p
    shape := p.shape, codever := l.codever, bind := l.bind, user0 := p.user0, user1 := p.user1 }

/-- A warp at the start of its group (R153). -/
def startWarp (gid i : Nat) (s : Shape) (entry : DWord) : Warp :=
  { gid := gid, idx := i, copy := decide (i < s.copies), nregs := s.regs
    fib := (List.range 32).map (fun l => (l, { live := true, pc := entry })) }

/-- A core's L1 gives up blocks of the array: its lines there go, and so do those of writable pages, for a group that
starts (R99, R136). -/
def l1Yield (d : Dev) (core : Nat) (blocks : List Nat) : Dev :=
  if (d.core core).l1.isEmpty then d
  else d.modCore core (fun c => { c with l1 := c.l1.filter (fun p => !p.2.wr && !blocks.contains (p.2.slot / 128)) })

/-- The blocks that a group's scratch takes of those a core's L1 has: the lowest (R99; log 68). -/
def scratchBlocks (d : Dev) (core bytes : Nat) : List Nat := (l1Blocks d core).take (bytes / 16384)

/-- A group starts on a core that can supply it (R99, R151 to R153, R136). -/
def startGroup (d : Dev) (gid core : Nat) (g : Group) : Dev :=
  match (occOf d core).place g.shape with
  | none => d
  | some (slots, _) =>
    let k := d.core core
    let bs := scratchBlocks d core g.shape.scratch
    let g := { g with
      core := core, slots := slots, blocks := bs, seq := k.started, born := d.now
      stream := if g.shape.stream then some { pc := g.shape.scode, cls := g.task.cls, cls0 := g.task.cls } else none }
    let d := d.setGrp gid g
    let d := slots.zipIdx.foldl (fun d s => d.setWarp core s.1 (startWarp gid s.2 g.shape g.task.entry)) d
    l1Yield (d.modCore core (fun k => { k with started := k.started + 1 })) core bs

/-- The columns of which a gang has both cores (R169). -/
def gangColumns (ms : List Nat) : List Nat := (ms.filter (fun c => c % 2 == 0 && ms.contains (c + 1))).map (· / 2)

/-- A head's groups start on the cores given: the task record, its arena copy, the groups (R352, R355). -/
def startCand (e : Env) (d : Dev) (t : Nat) (c : Cand) (ms : List Nat) : Dev :=
  let lid := c.launch
  let l := d.launch lid
  let held := c.spawned.map (·.va)
  match (match held with
    | some va => some va
    | none => (freeRec l 0 8192).map (recVa l)) with
  | none => d
  | some va =>
    let task := match c.spawned with
      | some s => s.task
      | none => tileTask l c
    match (if held.isSome then some d else engStore e d l.ctx va 64 (taskBits task) t) with
    | none => finishLaunch e (writeFailed e d t lid va 64) lid
    | some d =>
      let d := match c.spawned with
        | some _ => d.modTower t (fun w => { w with spawn := w.spawn.modify c.key (fun q => q.tail) })
        | none => d.modLaunch lid (fun (l : Launch) =>
            let ps : List (Nat × Place) := (placesFor l c.key).getD []
            let outs := (l.pass (tkP c.key)).outs.eraseDups
            let l := ps.foldl (fun (l : Launch) (x : Nat × Place) => l.takePlace x.1 x.2) l
            let l := outs.foldl (fun (l : Launch) (r : Nat) =>
              let k := rtKey r (tkX c.key) (tkY c.key)
              let x : RTile := l.rt k
              if x.st = RTState.idle ∨ x.st = RTState.freed then l.setRt k (fun x => { x with st := .writing, lost := false }) else l) l
            let l := l.dequeue c.key
            { l with
              cts := l.cts.set c.key .running, recs := l.recs ++ [recIdx l va]
              moved := l.moved.set (c.idx * 2 + t) d.now })
      let gids := (List.range ms.length).map (· + d.nextGid)
      let base : Group :=
        { core := 0, ctx := l.ctx, shape := c.shape, slots := [], task := task, taskVa := va, launch := lid
          gang := if ms.length > 1 then gids else [], gidx := 0, seq := 0
          scope := match c.spawned with
            | some s => s.scope
            | none => 0 }
      let cols := gangColumns ms
      let d := { d with nextGid := d.nextGid + ms.length }
      let d := (ms.zip gids).zipIdx.foldl (fun d x =>
        startGroup d x.1.2 x.1.1 { base with gidx := x.2, fifo := cols.contains (x.1.1 / 2) }) d
      let gidOn (core : Nat) : Nat := ((ms.zip gids).find? (fun x => x.1 == core)).map (·.2) |>.getD 0
      let d := cols.foldl (fun d k => d.modCol k (fun x => { x with
        holders := some (gidOn (2 * k), gidOn (2 * k + 1)), up := [], down := [] })) d
      ms.foldl (fun d _ => refsMod d l.ctx task.codever (· + 1)) d

/-- Gangs cancelled at their limit come behind the placement that waits for them (R358). -/
def lateHeads (w : Tower) (is : List Nat) : List (Nat × Nat) :=
  w.gangLate ++ (w.gangs.zipIdx.filter (fun x => is.contains x.2)).map (fun x => (x.1.launch, x.1.pass))

/-- A gang's reservations are cancelled: its head starts again in a later cycle (R358). -/
def cancelGangs (d : Dev) (t : Nat) (is : List Nat) : Dev :=
  d.modTower t (fun w =>
    let gone := (w.gangs.zipIdx.filter (fun x => is.contains x.2)).map (·.1)
    { w with
      gangs := (w.gangs.zipIdx.filter (fun x => !is.contains x.2)).map (·.1)
      gangHold := (w.gangHold.filter (fun h => h.2.2 == d.now)) ++ gone.map (fun g => (g.launch, g.pass, d.now)) })

/-- A reservation may begin on a core: none of its resources is held by another placement (R358). -/
def resFree (d : Dev) (t i c : Nat) (s : Shape) : Bool := ((occRes d t c 0 (some i)).place s).isSome

/-- The reservation of a gang's next member begins now, or stalls. -/
def beginMember (d : Dev) (t i : Nat) (g : GangRes) : GangRes :=
  match g.members[g.reserved]? with
  | none => { g with since := 0 }
  | some c => { g with since := if resFree d t i c g.shape then d.now + 1 else 0 }

/-- `TASK_DISPATCH`: the tower's one dispatch of the cycle (R354). -/
def dispatch (e : Env) (d : Dev) (t : Nat) : Dev :=
  match dispatchChoice d t with
  | none => d
  | some a =>
    let d := d.modTower t (fun w => { w with dispatched := d.now + 1 })
    match a with
    | .start c core => startCand e (d.modTower t (fun w => { w with gangLate := [] })) t c [core]
    | .cancel gs => cancelGangs d t gs
    | .gang c ms =>
      let g : GangRes :=
        { launch := c.launch, pass := c.idx, cls := c.cls, shape := c.shape, members := ms, reserved := 0
          started := d.now, since := 0 }
      d.modTower t (fun w => { w with gangs := w.gangs ++ [beginMember d t w.gangs.length g], gangLate := [] })

/-- `TASK_DISPATCH`. -/
def execTaskDispatch (p : Ev.Tower) (s : State) : Host.Outcome State Fault Refusal := s.run (fun e d => dispatch e d p.tower)

/-! ### Gangs (R358) -/

/-- The head that a gang was chosen for. -/
def gangCand (d : Dev) (t : Nat) (g : GangRes) : Option Cand :=
  (candsOf d t).find? (fun c => c.launch == g.launch && c.idx == g.pass && (g.pass != 64 || c.cls == g.cls))

/-- What a gang's reservation does next, if anything: a member's 4 cycles have passed, a stall ends or
fails, or the placement commits. -/
inductive GStep where
  | next (g : GangRes)
  | cancel (gangs : List Nat)
  | commit (c : Cand)
  deriving DecidableEq, Repr

def gangStep (d : Dev) (t i : Nat) (g : GangRes) : Option GStep :=
  if g.members.any (fun c => !coreUsable d c g.shape.stream) then some (.cancel [i])
  else match g.members[g.reserved]? with
  | none =>
    match gangCand d t g with
    | none => some (.cancel [i])
    | some c =>
      if candReady d c && (gangColumns g.members).all (fun k => (d.col k).holders.isNone) then some (.commit { c with cls := g.cls }) else none
  | some c =>
    if g.since ≠ 0 then
      if d.now + 1 ≥ g.since + 4 then some (.next { g with reserved := g.reserved + 1, since := 0 }) else none
    else if ((occOf d c).place g.shape).isNone then some (.cancel [i])
    else if resFree d t i c g.shape then some (.next g)
    else
      match lowerGangs d t g.cls [c] with
      | [] => none
      | gs => some (.cancel gs)

/-- The core whose reservation a gang is at. -/
def gangCore (g : GangRes) : Nat := (g.members[min g.reserved (g.members.length - 1)]?).getD 0

/-- The first gang of a tower at a core whose reservation can move. -/
def gangMoves (d : Dev) (t : Nat) : List (Nat × Nat × GStep) :=
  (d.tower t).gangs.zipIdx.filterMap (fun x => (gangStep d t x.2 x.1).map (fun s => (gangCore x.1, x.2, s)))

/-- `GANG_RESERVATION`: a step of a member core's reservation. -/
def gangReserve (e : Env) (d : Dev) (t core : Nat) : Dev :=
  match (gangMoves d t).find? (fun x => x.1 == core) with
  | none => d
  | some (_, i, .next g) => d.modTower t (fun w => { w with
      gangs := w.gangs.zipIdx.map (fun x => if x.2 = i then beginMember d t i g else x.1) })
  | some (_, _, .cancel gs) => cancelGangs d t gs
  | some (_, i, .commit c) =>
    let ms := ((d.tower t).gangs[i]?.map (·.members)).getD []
    startCand e (d.modTower t (fun w => { w with gangs := (w.gangs.zipIdx.filter (fun x => x.2 != i)).map (·.1) })) t c ms

/-- `GANG_RESERVATION`. -/
def execGangReservation (p : Ev.Gang) (s : State) : Host.Outcome State Fault Refusal :=
  s.run (fun e d => gangReserve e d p.tower p.core)

/-- Gangs of a tower that have not committed 48 cycles after their first reservation. -/
def lateGangs (d : Dev) (t : Nat) : List Nat :=
  ((d.tower t).gangs.zipIdx.filter (fun x => decide (x.1.started + 48 ≤ d.now))).map (·.2)

/-- `GANG_RESERVATION_TIMEOUT`. -/
def execGangReservationTimeout (p : Ev.Tower) (s : State) : Host.Outcome State Fault Refusal :=
  s.run (fun _ d =>
    let is := lateGangs d p.tower
    let late := lateHeads (d.tower p.tower) is
    (cancelGangs d p.tower is).modTower p.tower (fun w => { w with gangLate := late }))

/-! ### Retirement (R145, R352, R427) -/

/-- Data or replies still on their way to a group, a `FENCE.SC`, a walk of `CFLUSH`, or a copy operation
that has not ended (R145). -/
def groupPending (d : Dev) (gid : Nat) : Bool :=
  let g := d.grp gid
  d.agenda.any (fun e => match e with
    | .loadReturn p => (p.core == g.core && g.slots.contains p.slot) || p.strm.any (fun x => x.1 == gid)
    | .commandReply p => p.gid == gid
    | .ucieMirrorMessage p => (p.cmd.map (fun c => c.gid == gid)).getD false
    | .flipsRead p | .gddrCounterRead p | .sentinelCounterRead p =>
      (!p.vec.isEmpty || p.sca.isSome) && p.core == g.core && g.slots.contains p.slot
    | _ => false) ||
  d.walking.any (fun w => w.reply.gid == gid) || d.invals.any (fun x => x.reply.gid == gid) ||
  g.slots.any (fun s => (d.warp g.core s).fenceSc.isSome)

/-- A `PGREQ` of the group has still to be answered; a save does not wait for it (R394). -/
def mgmtPending (d : Dev) (gid : Nat) : Bool :=
  d.mgmt.gating.any (fun q => match q.reply with
    | some r => r.gid == gid
    | none => false) || d.mgmt.ungating.any (fun q => q.2.gid == gid)

/-- A copy operation of the group is still under way. -/
def copiesPending (d : Dev) (gid : Nat) : Bool :=
  (d.core (d.grp gid).core).copies.any (fun p => p.2.gid == gid &&
    (p.2.state == .queued || p.2.state == .running || p.2.state == .parked || p.2.settling))

/-- Operations of the group's stream that have not finished. -/
def streamPending (d : Dev) (gid : Nat) : Bool :=
  match (d.grp gid).stream with
  | some st => !st.out.isEmpty || !st.queue.isEmpty
  | none => false

/-- A group has ended, and everything it issued is complete (R145, R154). -/
def endedWhole (d : Dev) (gid : Nat) : Bool :=
  match d.groups.find? gid with
  | none => false
  | some g => g.ended && g.owed.isEmpty && !groupPending d gid && !mgmtPending d gid && !streamPending d gid && (g.killed || !copiesPending d gid)

/-- A group may retire: it has ended, and of a gang every other member that has not left (R145, R154; log 87). -/
def retireReady (d : Dev) (gid : Nat) : Bool :=
  endedWhole d gid && (d.grp gid).gang.all (fun k =>
    k == gid || endedWhole d k || !((d.groups.find? k).isSome || d.saved.any (fun s => s.gid == k)))

/-- A group leaves its core: its warps, its copy entries and its reservations (R151, R271). -/
def dropGroup (d : Dev) (gid : Nat) : Dev :=
  let g := d.grp gid
  let d := dropCopies d gid
  { d with
    warps := d.warps.filter (fun p => !(p.2.gid == gid && p.1 / 64 == g.core))
    groups := d.groups.erase gid }

/-- Another member of the gang is resident or saved. -/
def gangLeft (d : Dev) (g : Group) : Bool :=
  g.gang.any (fun k => (d.groups.find? k).isSome || d.saved.any (fun s => s.gid == k))

/-- The vertical FIFO of a column is free once neither holder is left. -/
def fifoRelease (d : Dev) : Dev :=
  let left (k : Nat) : Bool := (d.groups.find? k).isSome || d.saved.any (fun s => s.gid == k)
  { d with cols := d.cols.map (fun p => (p.1, match p.2.holders with
    | some (a, b) => if left a || left b then p.2 else { p.2 with holders := none, up := [], down := [] }
    | none => p.2)) }

/-- The flip of a PRESENT pass whose last tile has retired, as far as tower 0 with the heads has heard (R6, R8, R427). -/
def present (d : Dev) (lid p : Nat) : Dev :=
  let l := d.launch lid
  let ps := l.pass p
  let all := l.cts.all (fun q => tkP q.1 != p || q.2 == .retired) && !wordOut d lid
  if !ps.present || !all || l.shown.contains p then d
  else
    let surf := match ps.outs.find? (fun r => !(l.resD r).transient) with
      | some r => (l.binds[r]?).getD 0
      | none => 0
    let d := d.modLaunch lid (fun l => { l with shown := l.shown ++ [p] })
    d.modHead ps.head (fun h => { h with
      pend := surf, drops := if h.pend = 0 then h.drops else (h.drops + 1) % 2 ^ 32 })

/-- The effects of a tile's retirement on the scoreboard (R351, R352, R360). -/
def tileEffects (d : Dev) (lid k : Nat) (killed : Bool) : Dev :=
  let l := d.launch lid
  let t := l.tileTower k
  let outs := (l.pass (tkP k)).outs.eraseDups.map (fun r => rtKey r (tkX k) (tkY k))
  let lost := outs.any (fun r => (l.rt r).lost)
  let d := d.modLaunch lid (fun l => { l with cts := l.cts.set k .retired, redo := l.redo.erase k })
  let d := if killed then d
    else outs.foldl (fun d r =>
      let x := (d.launch lid).rt r
      if x.st = .writing ∧ !x.lost then tileReady d lid r else d) d
  let d := ((l.covers k).eraseDups).foldl (fun d r =>
    match l.homeOf r with
    | none => d
    | some h => if h = t then d.modLaunch lid (fun l => l.lrcDown r) else mirror d t 1 lid r) d
  if lost && !killed then
    outs.foldl (fun d r => if ((d.launch lid).rt r).lost then loseTile 65 d lid r else d) d
  else d

/-- A retirement comes to the tower that completes the launch, and one of a PRESENT pass to tower 0 with the heads: there
at once, from the other tower by a message (R6, R8, R427). -/
def retireWord (d : Dev) (t lid p : Nat) : Dev :=
  let l := d.launch lid
  let d := if t ≠ l.doneTower ∨ (t = 1 ∧ (l.pass p).present) then mirror d t 11 lid p else d
  if t = 0 then present d lid p else d

/-- A group has left its core for good; with the last of its gang its tile or task retires (R145, R352, R362, R363). -/
def leaveGroup (e : Env) (d : Dev) (g : Group) : Dev :=
  let t := g.core / 64
  let lid := g.launch
  let d := refsMod (fifoRelease d) g.ctx g.task.codever (· - 1)
  if gangLeft d g then d
  else
    let d := d.modLaunch lid (fun l => { l with recs := l.recs.filter (fun x => !(x == recIdx l g.taskVa)) })
    let d := if g.task.pass = 255 then d.modLaunch lid (fun l => { l with extra := l.extra - 1 })
      else tileEffects d lid (rtKey g.task.pass g.task.tx g.task.ty) g.killed
    let d := if g.task.pass = 255 ∧ (d.launches.find? lid).isSome then succRetire e d t lid g.task.succ g.scope else d
    let d := retireWord d t lid g.task.pass
    finishLaunch e (scopeLeave e d t g.scope) lid

/-- The `TRETIRE`s of a group take effect: each tile that still is WRITING becomes READY (R351, R353, R369). -/
def tretApply (d : Dev) (gid : Nat) : Dev :=
  let g := d.grp gid
  g.tretDue.foldl (fun d r =>
    let k := rtKey r g.task.tx g.task.ty
    let x := (d.launch g.launch).rt k
    if x.st = .writing ∧ !x.lost then tileReady d g.launch k else d) (d.modGrp gid (fun g => { g with tretDue := [] }))

/-- `TILE_RETIRE`: a group retires. -/
def tileRetire (e : Env) (d : Dev) (gid : Nat) : Dev :=
  if !retireReady d gid then d else leaveGroup e (dropGroup d gid) (d.grp gid)

/-- Saved groups that were ended at system level retire (R389). -/
def dropKilled (e : Env) (d : Dev) : Dev :=
  (d.saved.filter (fun s => s.group.killed)).foldl (fun d s =>
    leaveGroup e (dropCopies { d with saved := d.saved.filter (fun x => !(x.gid == s.gid)) } s.gid) s.group) d

/-- `TILE_RETIRE`. -/
def execTileRetire (p : Ev.GroupRef) (s : State) : Host.Outcome State Fault Refusal := s.run (fun e d => tileRetire e d p.gid)

/-! ### Pre-emption (R360, R393, R394) -/

/-- A save reaches a group: it halts under R379 with no originating warp. -/
def beginSave (d : Dev) (gid : Nat) (pre : Bool) : Dev :=
  let g := d.grp gid
  if g.saving || g.ended then d
  else
    let d := if g.halt.isSome then d
      else g.slots.foldl (fun d s => d.modWarp g.core s (fun w => { w with skidGroups := 0, skidLast := 0 })) d
    (kennelLeave d gid).modGrp gid (fun g => { g with
      saving := true, preempted := pre, halt := if g.halt.isSome then g.halt else some { c := d.clk g.core, save := true } })

/-- The blocks of a context's save pool that are free (R393). -/
def saveBlock (d : Dev) (ctx : Nat) : Option Nat :=
  let n := fieldN (d.ctx ctx).savecfg 16 16
  (List.range n).find? (fun k => !(d.saved.any (fun s => s.ctx == ctx && s.block == k)))

/-- Bytes of a group's save record, an upper bound over its accumulator tiles (R395 to R398). -/
def recordBytes (d : Dev) (gid : Nat) : Nat :=
  let g := d.grp gid
  1024 + g.shape.warps * (6144 + 128 * g.shape.regs) + g.shape.scratch + 4096 + 2048 + b2n g.fifo * 4096 + 128 + 4096 * g.tiles.length

/-- A group can be saved now: its context has a block free that holds its record. -/
def saveFits (d : Dev) (gid : Nat) : Bool :=
  let g := d.grp gid
  (saveBlock d g.ctx).isSome && decide (recordBytes d gid ≤ 65536 * fieldN (d.ctx g.ctx).savecfg 0 16)

/-- 10 µs, 140 µs and 2 ms in nanoseconds (R15, R360, R393, R400). -/
def us10 : Nat := 10000
def us140 : Nat := 140000
def ms2 : Nat := 2000000

/-- CTXPRIO of a context. -/
def prioOf (d : Dev) (ctx : Nat) : Nat := fieldN (d.ctx ctx).ctxprio 0 3

/-- The groups of a core that a placement of a context's priority may save: resident, not already being
saved, of a lower priority, and not protected by R400. -/
def victims (d : Dev) (core prio : Nat) : List (Nat × Group) :=
  d.groups.filter (fun p => p.2.core == core && !p.2.saving && !p.2.ended && decide (prioOf d p.2.ctx < prio) &&
    decide (p.2.pinned ≤ d.now) && saveFits d p.1)

/-- The victim chosen first: the lowest CTXPRIO, then the youngest. -/
def victimOf (d : Dev) (vs : List (Nat × Group)) : Option Nat :=
  (vs.foldl (fun (b : Option (Nat × Group)) p =>
    match b with
    | none => some p
    | some q =>
      let a := prioOf d p.2.ctx
      let c := prioOf d q.2.ctx
      if a < c ∨ (a = c ∧ (q.2.born < p.2.born ∨ q.2.born = p.2.born ∧ q.1 < p.1)) then some p else some q) none).map (·.1)

/-- When a queue's head became it: its release, or the last dispatch from the queue. -/
def headSince (d : Dev) (t : Nat) (c : Cand) : Nat :=
  let l := d.launch c.launch
  let x := ((l.queues.get (c.idx * 2 + t) []).head?).getD 0
  max (x / 2 ^ 24) (l.moved.get (c.idx * 2 + t) 0)

/-- A head that has waited 10 µs for resources, with the groups it may have saved on its cores. -/
def starved (d : Dev) (t : Nat) (c : Cand) : Option (List (Nat × Group)) :=
  if c.spawned.isSome || !candReady d c || (tryCand d t c).isSome || decide (d.now < headSince d t c + d.ns us10) then none
  else
    let busy := c.cores.any (fun k => d.groups.any (fun p => p.2.core == k && p.2.saving))
    let vs := c.cores.flatMap (fun k => victims d k (prioOf d (d.launch c.launch).ctx))
    if busy || vs.isEmpty then none else some vs

/-- `PREEMPTION_TIMEOUT`: the graph engine saves the next group in the way of the first such head (R393). -/
def preempt (d : Dev) (t : Nat) : Dev :=
  match (candsOf d t).findSome? (starved d t) with
  | none => d
  | some vs => match victimOf d vs with
    | none => d
    | some g => beginSave d g true

/-- `PREEMPTION_TIMEOUT`. -/
def execPreemptionTimeout (p : Ev.Tower) (s : State) : Host.Outcome State Fault Refusal := s.run (fun _ d => preempt d p.tower)

/-- A group that waits on a LOST tile: it runs a consumer tile that covers one. -/
def waitsOnLost (d : Dev) (g : Group) : Bool :=
  let l := d.launch g.launch
  g.task.pass != 255 && ((l.covers (rtKey g.task.pass g.task.tx g.task.ty)).any (fun r => (l.rt r).lost || (l.rt r).st == .writing))

/-- The re-execution at the head of a queue that has not been placed within 10 µs (R360, point 7). -/
def lateRedo (d : Dev) (t : Nat) : Option (List (Nat × Group)) :=
  (candsOf d t).findSome? (fun c =>
    let l := d.launch c.launch
    match l.redo.find? c.key with
    | none => none
    | some m =>
      if c.spawned.isSome || decide (d.now < m + d.ns us10) || (tryCand d t c).isSome then none
      else
        let vs := d.groups.filter (fun p => c.cores.contains p.2.core && !p.2.saving && !p.2.ended && waitsOnLost d p.2 && saveFits d p.1)
        let busy := c.cores.any (fun k => d.groups.any (fun p => p.2.core == k && p.2.saving))
        if vs.isEmpty || busy then none else some vs)

/-- `REEXEC_PLACEMENT_TIMEOUT`: the engine pre-empts the lowest-class group of its mask that waits on a LOST
tile. -/
def reexecLate (d : Dev) (t : Nat) : Dev :=
  match lateRedo d t with
  | none => d
  | some [] => d
  | some (v :: vs) =>
    beginSave d (vs.foldl (fun (b : Nat × Group) p => if p.2.task.cls < b.2.task.cls then p else b) v).1 true

/-- `REEXEC_PLACEMENT_TIMEOUT`. -/
def execReexecPlacementTimeout (p : Ev.Tower) (s : State) : Host.Outcome State Fault Refusal :=
  s.run (fun _ d => reexecLate d p.tower)

end Sys2Proof.Machine
end

