-- ==== Sys2Proof/Machine/GraphCmd.lean ====
section
/-! DEFINITION.  The commands of XCMD engine 1, GRAPH (R367 to R370). -/

namespace Sys2Proof.Machine

/-- Status codes of a reply (R368). -/
def stRange : Nat := 1
def stRefused : Nat := 2
def stFull : Nat := 3
def stStale : Nat := 4
def stUnder : Nat := 5

/-- A reply of the graph engine: status, and what stands beyond it. -/
def gReply (d : Dev) (dst : BitVec 6) (status rest : Nat) : Dev :=
  postReply d 1 (reg dst) (BitVec.ofNat 64 (status + rest))

/-- The access of a command to a record or counter of `n` bytes. -/
def recAcc (va : DWord) (n : Nat) : Acc := { lane := 0, va := va, total := n }

/-- What the engine reads of an access: memory's bytes. -/
def recRead (d : Dev) (a : Acc) : Nat :=
  a.parts.foldl (fun v p => match accTarget d d.who .read a p with
    | .ok (t, _) => v + tgtRead d d.cur.gid t p.2 * 2 ^ (8 * p.1)
    | .error _ => v) 0

/-- What translating the access leaves behind (R90, R91). -/
def recTouch (d : Dev) (k : AKind) (a : Acc) : Dev :=
  a.parts.foldl (fun d p => match accTarget d d.who k a p with
    | .ok (_, ads) => touch d d.who.ctx ads
    | .error _ => d) d

/-- What the access of a command meets. -/
def recErrs (e : Env) (d : Dev) (k : AKind) (va : DWord) (n : Nat) : List (Acc × MErr) :=
  (accErrs e d d.who k (recAcc va n)).map (fun x => (recAcc va n, x))
/-- A GRAPH cause, which R370 does not give these commands: the failure is a status (R368). -/
def MErr.isGraph : MErr → Bool
  | .graph .. => true
  | _ => false

/-- The faults of a command's record or counter, where its address is aligned (R370). -/
def recCheck (e : Env) (d : Dev) (k : AKind) (va : DWord) (n al : Nat) : Option Raise :=
  if va.toNat % al ≠ 0 then none
  else raiseOf d k.code ((recErrs e d k va n).filter (fun x => !x.2.isGraph))

/-- The launch and tower of the issuing task. -/
def curLid (d : Dev) : Nat := d.curGrp.launch
def curLaunch (d : Dev) : Launch := d.launch (curLid d)

/-- A handle operand: 0 is no scope; otherwise a valid entry of the issuer's ASID (R368). -/
def staleScope (d : Dev) (asid : Nat) (h : DWord) : Bool :=
  match scopeFind d h with
  | some s => s.asid != asid
  | none => true
/-- A scope's COUNT would pass 2^32 − 1. -/
def scopeOver (d : Dev) (h : DWord) (n : Nat) : Bool :=
  match scopeFind d h with
  | some s => decide (s.count + n > 2 ^ 32 - 1)
  | none => false
/-- A member joins a scope. -/
def scopeJoin (d : Dev) (h : DWord) : Dev := if h = 0 then d else scopeSet d h (fun s => { s with count := s.count + 1 })

/-- A scope opened in a tower: its entry and its handle (R363). -/
def scopeOpen (d : Dev) (t i : Nat) (x : FScope) : Dev × DWord :=
  let g := (d.tower t).scopeGen.get i 0
  (d.modTower t (fun w => { w with scopes := w.scopes.set i x }),
    BitVec.ofNat 64 (i * 2 ^ 8 + g * 2 ^ 16 + t * 2 ^ 32 + 2 ^ 33))

/-- Status and rest of a reply (R368). -/
def gWord (status rest : Nat) : DWord := BitVec.ofNat 64 (status + rest)

/-- What a handle operand of a record command breaks: RANGE where its COUNT would pass its end, or STALE. -/
def handleBad (d : Dev) (c : Ev.GCmd) : Option DWord :=
  if c.h = 0 then none
  else if staleScope d (d.ctx c.ctx).asid.toNat c.h then some (gWord stStale 0)
  else if scopeOver d c.h 1 then some (gWord stRange 0)
  else none

/-- `TSPAWN` in a tower: its effect and its reply. -/
def spawnAct (e : Env) (d : Dev) (t : Nat) (c : Ev.GCmd) : Dev × DWord :=
  let task := taskOf c.record
  match handleBad d c with
  | some v => (d, v)
  | none =>
    if !taskOk d (d.launch c.launch) task then (d, gWord stRefused 0)
    else match spawnTask e (scopeJoin d c.h) t c.launch task c.h none with
      | none => (d, gWord stFull 0)
      | some d => (d, 0)

/-- `FSOPEN` in a tower: the scope is an entry of that tower. -/
def openAct (e : Env) (d : Dev) (t : Nat) (c : Ev.GCmd) : Dev × DWord :=
  let l := d.launch c.launch
  let task := taskOf c.record
  match handleBad d c with
  | some v => (d, v)
  | none =>
    if !taskOk d l task then (d, gWord stRefused 0)
    else match SMap.free (d.tower t).scopes 256, freeRec l 8192 l.arenasz with
      | some i, some r =>
        let rva := recVa l r
        let d := (scopeJoin d c.h).modLaunch c.launch (fun l => { l with recs := l.recs ++ [r] })
        let d := (engStore e d l.ctx rva 64 (taskBits task) t).getD (writeFailed e d t c.launch rva 64)
        scopeOpen d t i { count := 1, cont := task, va := rva, launch := c.launch, parent := c.h, asid := (d.ctx c.ctx).asid.toNat }
      | _, _ => (d, gWord stFull 0)

/-- The common part of `FSCLOSE` and `FSADD`: the operand n, then the handle. -/
def scopeArgs (d : Dev) (c : Ev.GCmd) : Option Nat :=
  if c.n / 2 ^ 16 ≠ 0 ∨ c.n = 0 then some stRange
  else if staleScope d (d.ctx c.ctx).asid.toNat c.h then some stStale
  else none

/-- `FSCLOSE` in the tower of its scope. -/
def closeAct (e : Env) (d : Dev) (c : Ev.GCmd) : Dev × DWord :=
  match scopeArgs d c, scopeFind d c.h with
  | none, some x =>
    if c.n > x.count then (d, gWord stUnder 0) else (scopeDown e 512 d c.h c.n, gWord 0 ((x.count - c.n) * 2 ^ 32))
  | some r, _ => (d, gWord r 0)
  | none, none => (d, gWord stStale 0)

/-- `FSADD` in the tower of its scope. -/
def addAct (d : Dev) (c : Ev.GCmd) : Dev × DWord :=
  match scopeArgs d c, scopeFind d c.h with
  | none, some x =>
    if scopeOver d c.h c.n then (d, gWord stRange 0)
    else (scopeSet d c.h (fun x => { x with count := x.count + c.n }), gWord 0 ((x.count + c.n) * 2 ^ 32))
  | some r, _ => (d, gWord r 0)
  | none, none => (d, gWord stStale 0)

/-- A launch that is accepted; one with no tile on this card is complete at once (R352). -/
def launchIn (e : Env) (d : Dev) (l : Launch) (sub : Option (Nat × Nat)) (scope : DWord) (v t : Nat) : Dev :=
  finishLaunch e (acceptLaunch d l sub scope v t) d.nextLaunch

/-- `GLAUNCH` in a tower. -/
def launchAct (e : Env) (d : Dev) (t : Nat) (c : Ev.GCmd) : Dev × DWord :=
  match handleBad d c with
  | some v => (d, v)
  | none =>
    let (reason, l) := loadCheck d c.ctx c.record t
    if reason = 12 then (d, gWord stFull (12 * 2 ^ 8))
    else if reason ≠ 0 then
      (noteRefused (if reason = 13 then loadFail e d c.ctx c.record t else d) l reason, gWord stRefused (reason * 2 ^ 8))
    else (launchIn e (scopeJoin d c.h) l none c.h c.record t, 0)

/-- A command that names a scope, carried out by a tower's graph engine. -/
def gRun (e : Env) (d : Dev) (t : Nat) (c : Ev.GCmd) : Dev × DWord :=
  match c.func with
  | 0 => spawnAct e d t c
  | 2 => openAct e d t c
  | 3 => closeAct e d c
  | 4 => addAct d c
  | _ => launchAct e d t c

/-- The command of the issuing task. -/
def gCmd (d : Dev) (func : Nat) (dst : BitVec 6) (h : DWord) (n record : Nat) : Ev.GCmd :=
  { func := func, core := d.cur.core, slot := d.cur.slot, gid := d.cur.gid, d := reg dst, launch := curLid d
    ctx := d.curGrp.ctx, h := h, n := n, record := record }

/-- The scope is an entry of the other tower's table. -/
def farScope (d : Dev) (h : DWord) : Bool := h != 0 && scopeTower h != d.curTower

/-- A command on a scope of the other tower needs the link (R363, R424; log 76). -/
def farCheck (d : Dev) (h : DWord) : Option Raise := if farScope d h && !d.uciUp then some (own d .hwerr 6 0 0) else none

/-- A command is carried out here, with its reply, or carried to the other tower over UCIe, in sequence (R363; log
77). -/
def gCommand (e : Env) (d : Dev) (c : Ev.GCmd) : Dev :=
  if farScope d c.h then mirrorSend d { src := d.curTower, seq := 0, kind := 5, launch := c.launch, a := c.h.toNat, cmd := some c }
  else
    let (d1, v) := gRun e d d.curTower c
    postReply d1 1 c.d v

/-- A command that reads a record of 64 bytes: RANGE off its alignment. -/
def recCommand (func : Nat) (f : FmtX) (e : Env) (d : Dev) : Dev :=
  let va := d.sr (reg f.a)
  if va.toNat % 64 ≠ 0 then gReply d f.d stRange 0
  else if !(recErrs e d .read va 64).isEmpty then gReply d f.d stRefused 0
  else gCommand e (recTouch d .read (recAcc va 64)) (gCmd d func f.d (d.sr (reg f.b)) 0 (recRead d (recAcc va 64)))

/-- Its checks: the link to its scope, and the faults of its record. -/
def recCommandCheck (f : FmtX) (e : Env) (d : Dev) : Option Raise :=
  firstRaise [recCheck e d .read (d.sr (reg f.a)) 64 64, farCheck d (d.sr (reg f.b))]

/-- `TSPAWN`. -/
def execTspawn (f : FmtX) (s : State) : Host.Outcome State Fault Refusal :=
  s.run (word (Instr.tspawn f).props (recCommandCheck f) (recCommand 0 f))

/-- The checks of `TSUCC`: the counter, and the record that a decrement to 0 reads. -/
def tsuccCheck (e : Env) (d : Dev) (va nn : DWord) : Option Raise :=
  if va.toNat % 16 ≠ 0 ∨ fieldN nn 32 32 ≠ 0 ∨ fieldN nn 0 32 = 0 then none
  else match firstRaise [recCheck e d .atomic va 16 16, recCheck e d .read va 16 16] with
    | some r => some r
    | none =>
      match counterAt d d.curGrp.ctx va with
      | none => none
      | some (pa, _, _) =>
        if d.mem.readN pa 4 = fieldN nn 0 32 then recCheck e d .read (BitVec.ofNat 64 (d.mem.readN (pa + 8) 8)) 64 64 else none

/-- `TSUCC`. -/
def execTsucc (f : FmtX) (s : State) : Host.Outcome State Fault Refusal :=
  s.run (word (Instr.tsucc f).props (fun e d => tsuccCheck e d (d.sr (reg f.a)) (d.sr (reg f.b)))
    (fun e d =>
      let va := d.sr (reg f.a)
      let nn := d.sr (reg f.b)
      if va.toNat % 16 ≠ 0 ∨ fieldN nn 32 32 ≠ 0 ∨ fieldN nn 0 32 = 0 then gReply d f.d stRange 0
      else match succDown e d d.curTower (curLid d) va (fieldN nn 0 32) d.curGrp.scope with
        | .done d1 c => gReply d1 f.d 0 (c * 2 ^ 32)
        | .under => gReply d f.d stUnder 0
        | .full => gReply d f.d stFull 0
        | .refused | .failed => gReply d f.d stRefused 0))

/-- `FSOPEN`. -/
def execFsopen (f : FmtX) (s : State) : Host.Outcome State Fault Refusal :=
  s.run (word (Instr.fsopen f).props (recCommandCheck f) (recCommand 2 f))

/-- `FSCLOSE`. -/
def execFsclose (f : FmtX) (s : State) : Host.Outcome State Fault Refusal :=
  s.run (word (Instr.fsclose f).props (fun _ d => farCheck d (d.sr (reg f.a)))
    (fun e d => gCommand e d (gCmd d 3 f.d (d.sr (reg f.a)) (d.sr (reg f.b)).toNat 0)))

/-- `FSADD`. -/
def execFsadd (f : FmtX) (s : State) : Host.Outcome State Fault Refusal :=
  s.run (word (Instr.fsadd f).props (fun _ d => farCheck d (d.sr (reg f.a)))
    (fun e d => gCommand e d (gCmd d 4 f.d (d.sr (reg f.a)) (d.sr (reg f.b)).toNat 0)))

/-- `TRETIRE`: the issuing tile's output tile becomes READY as the cycle ends, with the retirements, unless its slot was
lost (R351, R353, R360, R369). -/
def execTretire (f : FmtXA) (s : State) : Host.Outcome State Fault Refusal :=
  s.run (plain (Instr.tretire f).props (fun d =>
    let a := d.sr (reg f.a)
    let g := d.curGrp
    let r := fieldN a 0 8
    let l := curLaunch d
    let k := rtKey r g.task.tx g.task.ty
    let x := l.rt k
    if fieldN a 8 56 ≠ 0 then gReply d f.d stRange 0
    else if g.task.pass = 255 ∨ !(l.pass g.task.pass).outs.contains r ∨ g.trets.contains r ∨
        (x.st ≠ .writing ∧ !x.lost) then gReply d f.d stRefused 0
    else
      let d1 := (if g.gang.isEmpty then [d.cur.gid] else g.gang).foldl (fun d k =>
        d.modGrp k (fun g => { g with trets := g.trets ++ [r] })) d
      gReply (d1.modGrp d.cur.gid (fun g => { g with tretDue := g.tretDue ++ [r] })) f.d 0 0))

/-- `GLAUNCH`. -/
def execGlaunch (f : FmtX) (s : State) : Host.Outcome State Fault Refusal :=
  s.run (word (Instr.glaunch f).props (recCommandCheck f) (recCommand 6 f))

/-- A pass's class as `GPRIO` last set it in a tower. -/
def Launch.classOf (l : Launch) (p t : Nat) : Nat := l.prios.get (p * 2 + t) (l.classes.get (p * 2 + t) (l.pass p).cls)

/-- `GPRIO`: the class counts from the tower's next scoreboard cycle; the other tower hears of it over UCIe (R8, R369). -/
def execGprio (f : FmtX) (s : State) : Host.Outcome State Fault Refusal :=
  s.run (plain (Instr.gprio f).props (fun d =>
    let a := d.sr (reg f.a)
    let b := d.sr (reg f.b)
    let l := curLaunch d
    let p := fieldN a 0 6
    if fieldN a 6 58 ≠ 0 ∨ fieldN b 3 61 ≠ 0 then gReply d f.d stRange 0
    else if d.curGrp.task.pass = 255 ∨ p ≥ l.graph.passes.length ∨ fieldN b 0 3 > l.classcap then gReply d f.d stRefused 0
    else
      let d1 := if l.towers = 3 then mirror d d.curTower 3 (curLid d) (p * 8 + fieldN b 0 3) else d
      gReply (d1.modLaunch (curLid d) (fun l => { l with prios := l.prios.set (p * 2 + d.curTower) (fieldN b 0 3) })) f.d 0
        (l.classOf p d.curTower * 2 ^ 8)))

/-! ### Messages between the towers (R149, R365) -/

/-- A message takes effect in the tower that receives it, in sequence: one before its turn waits. -/
def mirrorTake (e : Env) (d : Dev) (p : Ev.Mirror) : Dev :=
  let t := 1 - p.src
  let turn := (d.tower t).mirrorIn
  if !d.uciUp ∨ (p.seq ≠ turn ∧ (turn + 2 ^ 32 - p.seq) % 2 ^ 32 < 2 ^ 31) then d
  else if p.seq ≠ turn then d.post (.ucieMirrorMessage p)
  else
    let d := d.modTower t (fun w => { w with mirrorIn := (w.mirrorIn + 1) % 2 ^ 32 })
    match p.kind with
    | 0 => d.modLaunch p.launch (fun (l : Launch) => (l.setRt p.a (fun x => { x with seen := true })).countDown t p.a d.now)
    | 1 => d.modLaunch p.launch (fun l => l.lrcDown p.a)
    | 2 => d.modLaunch p.launch (fun (l : Launch) =>
        if (l.rt p.a).seen then (l.setRt p.a (fun x => { x with seen := false })).countUp t p.a else l)
    | 3 => d.modLaunch p.launch (fun l => { l with classes := l.classes.set (p.a / 8 * 2 + t) (p.a % 8) })
    | 4 => d.modLaunch p.launch (fun l => { l with parts := insNat t l.parts })
    | 5 => (match p.cmd with
      | none => d
      | some c =>
        let (d, v) := gRun e d t c
        if c.d = 0 then d
        else d.post (.commandReply { core := c.core, slot := c.slot, gid := c.gid, d := c.d, value := v, eng := 1 }))
    | 6 => scopeDown e 512 d (BitVec.ofNat 64 p.a) 1
    | 8 => needTile d p.launch p.a p.b
    | 9 => d.modLaunch p.launch (fun l => l.countOne (p.b / 2) p.a)
    | 10 => finishLaunch e (d.modLaunch p.launch (fun l => { l with heard := [0, 1] })) p.launch
    | 11 => finishLaunch e (if t = 0 then present d p.launch p.a else d) p.launch
    | 7 => scopeSet d (BitVec.ofNat 64 p.a) (fun x => { x with count := x.count + 1 })
    | _ => d

/-- `UCIE_MIRROR_MESSAGE`. -/
def execUcieMirrorMessage (p : Ev.Mirror) (s : State) : Host.Outcome State Fault Refusal :=
  s.run (fun e d => mirrorTake e d p)

end Sys2Proof.Machine
end

