-- ==== Sys2Proof/Machine/MemSys.lean ====
section
/-! DEFINITION.  The commands of XCMD engine 3, MEMSYS (R119 to R123), and the load of code (R402). -/

namespace Sys2Proof.Machine

/-- A reply of the memory engine: status, and what stands beyond it. -/
def mReply (d : Dev) (dst : BitVec 6) (status rest : Nat) : Dev :=
  postReply d 3 (reg dst) (BitVec.ofNat 64 (status + rest))

/-! ### Code caches -/

/-- Every code cache drops the lines of [a, a + n) under an ASID (R120). -/
def dropCode (d : Dev) (asid a n : Nat) : Dev :=
  { d with cores := d.cores.map (fun p => (p.1, { p.2 with
      code := p.2.code.filter (fun l => !(l.asid == asid && decide (l.va < a + n ∧ a < l.va + 64))) })) }

/-- `ICINV`. -/
def execIcinv (f : FmtX) (s : State) : Host.Outcome State Fault Refusal :=
  s.run (plain (Instr.icinv f).props (fun d =>
    let a := (d.sr (reg f.a)).toNat
    let n := (d.sr (reg f.b)).toNat
    if a + n > 2 ^ 64 then mReply d f.d 1 0
    else mReply (if n = 0 then d else dropCode d d.curAsid a n) f.d 0 0))

/-! ### `CFLUSH` -/

/-- What a flush does to the lines of [pa, pa + n): the dirty ones are written back, and under mode 1 every
copy is dropped; mode 2 drops the issuing core's L1 copies.  Memory's bytes do not change. -/
def flushLines (d : Dev) (core mode pa n : Nat) : Dev × Nat :=
  let inR (k : Nat) : Bool := decide (pa / 128 ≤ k ∧ k ≤ (pa + n - 1) / 128)
  let l1 (c : Core) : Core := { c with l1 := c.l1.filter (fun p => !inR p.1) }
  if mode = 2 then (d.modCore core l1, 0)
  else
    let count := d.towers.foldl (fun c p => c + (p.2.lines.filter (fun q => inR q.1 && q.2.dirty)).length) 0
    let clean (p : Nat × Tower) : Nat × Tower :=
      (p.1, { p.2 with
        lines := if mode = 1 then p.2.lines.filter (fun q => !inR q.1)
          else p.2.lines.map (fun q => (q.1, if inR q.1 then { q.2 with dirty := false } else q.2)) })
    let d1 : Dev := { d with towers := d.towers.map clean }
    (if mode = 1 then { d1 with cores := d1.cores.map (fun p => (p.1, l1 p.2)) } else d1, count)

/-- What a flush does where its range lies in scratch ways (R84): the L1 copies of such lines are dropped. -/
def flushRings (d : Dev) (core mode : Nat) : Dev :=
  let l1 (c : Core) : Core := { c with l1 := c.l1.filter (fun p => decide (p.1 < 2 ^ 45)) }
  if mode = 2 then d.modCore core l1 else if mode = 1 then { d with cores := d.cores.map (fun p => (p.1, l1 p.2)) } else d

/-- What a flush does to the part of its range that a page holds. -/
def flushTarget (d : Dev) (core mode n : Nat) (t : Target) : Dev × Nat :=
  match t with
  | .mem pa _ => flushLines d core mode pa n
  | .ring _ _ => (flushRings d core mode, 0)
  | _ => (d, 0)

/-- How a walk ends: done, parked on a page, or with a fault. -/
inductive FlushEnd where
  | done
  | stop (va : DWord) (left : Nat) (x : MErr)
  deriving DecidableEq, Repr

/-- A translation of a flush that meets nothing of its own to clean: an address with no line behind it, a table entry at an
address with no target, or the register alias at user level (log 84). -/
def flushNone (x : MErr) : Bool :=
  match x with
  | .moving => true
  | .prot r => r == 9
  | .data s _ => s == 4
  | _ => false

/-- One page of a flush's range from `va`: the bytes that it covers, and the target that they begin at if they can hold
lines.  An address in a window is decoded as that window lays down (R80); a page whose walk ends at an
invalid entry is skipped at that entry's level (R120); a line of the other tower is beyond a lost link (R424). -/
def flushPage (d : Dev) (w : Who) (va : DWord) (left : Nat) : Nat × Except MErr (Option (Target × List ADSet)) :=
  let span (level : Nat) : Nat :=
    if windowOf va.toNat = 0 then
      min left (min (2 ^ (16 + 13 * level) - va.toNat % 2 ^ (16 + 13 * level)) (0xFFFFF00000000000 - va.toNat))
    else min left (65536 - va.toNat % 65536)
  match resolveAt d w va 1 0 1 .read (d.opt 1) with
  | .error (.xlate false level _ _) => (span level, .ok none)
  | .error x => (span 0, if flushNone x then .ok none else .error x)
  | .ok (.mem pa pg, ads) =>
    let level := if windowOf va.toNat ≠ 0 then 0
      else match walkFrom d (w.asid d) va (d.opt 1) 4 (fieldN (d.ctx w.ctx).ptbase 12 40 * 4096) [] with
        | .ok x => x.level
        | .error _ => 0
    let n := span level
    let far := [pa, pa / 4096 * 4096 + 4096].find? (fun a => decide (a < pa + n) && inGddr a && homeTower a != w.core / 64)
    (n, match (if d.uciUp then none else far) with
      | some a => .error (.link a)
      | none => .ok (some (.mem pa pg, ads)))
  | .ok (.ring tw key, ads) => (span 0, .ok (some (.ring tw key, ads)))
  | .ok _ => (span 0, .ok none)

/-- The walk of a flush over [va, va + left), page by page. -/
def flushWalk (w : Who) (mode : Nat) : Nat → Dev → DWord → Nat → Nat → Dev × Nat × FlushEnd
  | 0, d, _, _, lines => (d, lines, .done)
  | fuel + 1, d, va, left, lines =>
    if left = 0 then (d, lines, .done)
    else
      match flushPage d w va left with
      | (_, .error x) => (d, lines, .stop va left x)
      | (n, .ok none) => flushWalk w mode fuel d (va + BitVec.ofNat 64 n) (left - n) lines
      | (n, .ok (some (t, ads))) =>
        let (d, k) := flushTarget (touch d w.ctx ads) w.core mode n t
        flushWalk w mode fuel d (va + BitVec.ofNat 64 n) (left - n) (lines + k)

/-- Who walks for a flush. -/
def Walking.who (w : Walking) : Who := { gid := w.reply.gid, ctx := w.ctx, core := w.reply.core }

/-- The lines of a list that a range still to be flushed takes in. -/
def flushHolds (d : Dev) (w : Who) (ks : List Nat) : Nat → DWord → Nat → List Nat
  | 0, _, _ => []
  | fuel + 1, va, left =>
    if left = 0 then []
    else
      let (n, r) := flushPage d w va left
      let here : List Nat := match r with
        | .ok (some (.mem pa _, _)) => ks.filter (fun k => decide (pa / 128 ≤ k ∧ k ≤ (pa + n - 1) / 128))
        | _ => []
      here ++ flushHolds d w ks fuel (va + BitVec.ofNat 64 n) (left - n)

/-- R116: a flush in flight counts the lines of its range that a cache-layer shutdown writes back. -/
def flushCount (d : Dev) (ks : List Nat) : Dev :=
  { d with walking := d.walking.map (fun w =>
      if w.mode = 2 then w
      else { w with lines := w.lines + (flushHolds d w.who ks (w.left / 65536 + 2) w.va w.left).eraseDups.length }) }

/-- A walk of `CFLUSH` runs until it is done, parks or faults (R122). -/
def flushRun (e : Env) (d : Dev) (w : Walking) : Dev :=
  let (d, lines, r) := flushWalk w.who w.mode (w.left / 65536 + 2) d w.va w.left w.lines
  match r with
  | .done =>
    if w.reply.d = 0 then d
    else d.post (.commandReply { w.reply with value := BitVec.ofNat 64 (min lines (2 ^ 32 - 1) * 2 ^ 32) })
  | .stop va left x =>
    let (c, d0, d1, d2) := x.cause 0 0 va
    let fr := { w.frame with cause := c, d0 := d0, d1 := d1, d2 := d2 }
    match (if (d.ctx w.ctx).ctxcfg.getLsbD 0 then x.replayable else none) with
    | some (tva, reason, level, pte) =>
      let t := w.reply.core / 64
      let (d, k) := fbJoin e d t (BitVec.ofNat 64 tva) ((d.ctx w.ctx).asid.toNat % 65536) 0 reason level pte w.reply.core
      { d with walking := d.walking ++ [{ w with
          tower := t, entry := k.getD Config.fbEntries, va := va, left := left, lines := lines, frame := fr }] }
    | none =>
      let d := noteErr e d w.ctx x
      d.modGrp w.reply.gid (fun g => { g with owed := g.owed ++ [fr] })

/-- `CFLUSH`. -/
def execCflush (f : FmtX) (s : State) : Host.Outcome State Fault Refusal :=
  s.run (word (Instr.cflush f).props (fun _ _ => none)
    (fun e d =>
      let a := d.sr (reg f.a)
      let b := d.sr (reg f.b)
      let n := fieldN b 0 48
      let mode := fieldN b 48 2
      if a.toNat + n > 2 ^ 64 ∨ fieldN b 50 14 ≠ 0 ∨ mode = 3 then mReply d f.d 1 0
      else flushRun e d
        { ctx := d.curGrp.ctx, tower := d.curTower, entry := 0, va := a, left := n, mode := mode, lines := 0
          reply := { core := d.cur.core, slot := d.cur.slot, gid := d.cur.gid, d := reg f.d, value := 0, eng := 3 }
          frame := { (curFrame d .none 0 0 0).halt 0 with fromWord := false } }))

/-! ### `CSPLIT` (R103, R120) -/

/-- Ways of a tower that no context holds, highest first. -/
def freeWays (t : Tower) : List Nat :=
  ((List.range 16).reverse).filter (fun w => !t.ways.any (fun p => p.2.contains w))

/-- Numbers in falling order. -/
def insDown (x : Nat) : List Nat → List Nat
  | [] => [x]
  | y :: r => if y < x then x :: y :: r else y :: insDown x r

/-- Whether a context's count in a tower may become `a`. -/
def splitOk (d : Dev) (ctx t a : Nat) : Bool :=
  let tw := d.tower t
  let w := (tw.ways.get ctx []).length
  if w ≤ a then decide (tw.ways.foldl (fun n p => n + p.2.length) 0 + (a - w) ≤ 12)
  else (List.range 64).all (fun bank => (bankUsed d ctx t bank).all (fun u => decide (u.1 + u.2 ≤ a * 2 ^ 19)))

/-- The ways change hands: those gained are written back, invalidated and zero-filled, those returned lose their
contents (R120). -/
def splitTower (d : Dev) (ctx t a : Nat) : Dev :=
  d.modTower t (fun tw =>
    let old := tw.ways.get ctx []
    let new := if old.length ≤ a then ((freeWays tw).take (a - old.length)).foldl (fun l w => insDown w l) old
      else old.take a
    let up := new.filter (fun w => !old.contains w)
    let moved := (new.filter (fun w => !old.contains w)) ++ (old.filter (fun w => !new.contains w))
    { tw with
      ways := tw.ways.set ctx new
      lines := (tw.lines.filter (fun p => !up.contains p.2.way)).map (fun p =>
        (p.1, { p.2 with replicas := p.2.replicas.filter (fun r => !up.contains r.2) }))
      ringMem := tw.ringMem.filter (fun p => !moved.contains (p.1 / 2 ^ 19 % 16)) })

/-- `CSPLIT` of a context in the towers of a mask: the status of R121. -/
def csplit (d : Dev) (ctx towers a : Nat) : Dev × Nat :=
  let ts := [0, 1].filter (fun t => towers.testBit t)
  if a > 12 then (d, 1)
  else if !ts.all (fun t => splitOk d ctx t a) then (d, 2)
  else
    let d := ts.foldl (fun d t => splitTower d ctx t a) d
    (d.modCtx ctx (fun c => { c with
      ways0 := if towers.testBit 0 then a else c.ways0, ways1 := if towers.testBit 1 then a else c.ways1 }), 0)

/-- `CSPLIT`. -/
def execCsplit (f : FmtX) (s : State) : Host.Outcome State Fault Refusal :=
  s.run (plain (Instr.csplit f).props (fun d =>
    let a := (d.sr (reg f.a)).toNat
    let b := d.sr (reg f.b)
    if fieldN b 2 62 ≠ 0 then mReply d f.d 1 0
    else
      let (d1, st) := csplit d d.curGrp.ctx (fieldN b 0 2) a
      mReply d1 f.d st 0))

/-! ### `TLBINV` (R91, R120, R293) -/

/-- The selection of a `TLBINV` takes in a range of an ASID. -/
def tlbSel (a b : DWord) (asid va n : Nat) : Bool :=
  (b.getLsbD 16 || asid == fieldN b 0 16) &&
    (b.getLsbD 17 || decide (va / 65536 ≤ a.toNat / 65536 ∧ a.toNat / 65536 ≤ (va + n - 1) / 65536))

/-- The cached entries a `TLBINV` leaves. -/
def tlbLeft (a b : DWord) (t : TlbEntry) : Bool :=
  !((b.getLsbD 16 || t.asid == fieldN b 0 16) && (b.getLsbD 17 || t.va == a.toNat / 2 ^ (16 + 13 * t.level)))

/-- The private-form weight tiles it selects are dropped, or marked unmatchable while pinned. -/
def tlbWeights (d : Dev) (a b : DWord) : Dev :=
  d.cols.foldl (fun d c => c.2.wbuf.foldl (fun d p =>
    let w := p.2
    if p.1 = w.first ∧ !w.tag.shared ∧ (tlbSel a b w.tag.dom w.tag.src (tileBytes w.tag.format) ∨
        (w.tag.scale ≠ 0 ∧ tlbSel a b w.tag.dom w.tag.scale (scaleBytes w.tag.format))) then
      wInvalidate d c.1 w.first
    else d) d) d

/-- An access whose targets were found before a `TLBINV` took effect has still to perform: that of a weight load or
drain which issued before it, or of a fill (R91, R120, R316). -/
def invalWaits (d : Dev) (i : Inval) : Bool :=
  let sel (asid : Nat) : Bool := i.b.getLsbD 16 || asid % 65536 == fieldN i.b 0 16
  d.groups.any (fun p => sel (d.ctx p.2.ctx).asid.toNat && (match p.2.stream with
    | some st => (st.queue ++ st.out).any (fun m =>
        (m.kind == .mwld || m.kind == .mdrain) && m.done.isNone && decide (m.born ≤ i.tick))
    | none => false)) ||
  d.cols.any (fun c => c.2.wbuf.any (fun q =>
    q.2.filling && sel (d.ctx q.2.ctx).asid.toNat && decide (q.2.born ≤ i.tick)))

/-- The replies of the `TLBINV` commands that need wait no longer. -/
def invalSettle (d : Dev) : Dev :=
  let (wait, go) := d.invals.partition (invalWaits d)
  go.foldl (fun d i => if i.reply.d = 0 then d else d.post (.commandReply i.reply)) { d with invals := wait }

/-- `TLBINV`. -/
def execTlbinv (f : FmtX) (s : State) : Host.Outcome State Fault Refusal :=
  s.run (plain (Instr.tlbinv f).props (fun d =>
    let a := d.sr (reg f.a)
    let b := d.sr (reg f.b)
    if fieldN b 18 46 ≠ 0 then mReply d f.d 1 0
    else
      let d := tlbWeights { d with tlb := d.tlb.filter (tlbLeft a b) } a b
      invalSettle { d with invals := d.invals ++ [{ a := a, b := b, tick := d.tick, reply :=
        { core := d.cur.core, slot := d.cur.slot, gid := d.cur.gid, d := reg f.d, value := 0, eng := 3 } }] }))

/-! ### `PATCH` (R402) -/

/-- The engine's read of a table's dword: the value, if the read succeeds, and what it leaves behind (R90, R105). -/
def engTake (e : Env) (d : Dev) (ctx : Nat) (va : DWord) (n : Nat) (t : Nat := 2) : Dev × Option Nat :=
  match engRead d ctx va n t with
  | some v => (engMark d ctx va n t, some v)
  | none => (engFail e d ctx va n .read t, none)

/-- The slots that the PATCHABLE versions of a context list: the virtual addresses of the elements of their lists, taken
as 8 bytes each (R401; log 85). -/
def patchElems (d : Dev) (ctx : Nat) : List DWord :=
  let base := fieldN (d.ctx ctx).cvtbase 12 52 * 4096
  if base = 0 then []
  else ((List.range 64).map (fun i => base + 64 * i)).flatMap (fun a =>
    if d.mem.readN (a + 4) 4 % 4 = 2 then
      (List.range (d.mem.readN (a + 32) 4)).map (fun j => BitVec.ofNat 64 (d.mem.readN (a + 24) 8 + 8 * j))
    else [])

/-- Whether an address is in those lists, read up to the element that names it, with what the reads leave behind. -/
def patchSlot (e : Env) (d : Dev) (ctx : Nat) (va : DWord) : Dev × Bool :=
  (patchElems d ctx).foldl (fun (x : Dev × Bool) a =>
    if x.2 then x
    else
      let (d, v) := engTake e x.1 ctx a 8 x.1.curTower
      (d, v == some va.toNat)) (d, false)

/-- `PATCH`. -/
def execPatch (f : FmtX) (s : State) : Host.Outcome State Fault Refusal :=
  s.run (word (Instr.patch f).props (fun e d => memCheck e d .patch [recAcc (d.sr (reg f.a)) 8])
    (fun e d =>
      let va := d.sr (reg f.a)
      let (d1, ok) := patchSlot e d d.curGrp.ctx va
      match (if ok then accTarget d d.who .patch (recAcc va 8) (0, 8) else .error .moving) with
      | .ok (t, ads) =>
        let d2 := tgtWrite e (touch d1 d.who.ctx ads) d.who t 8 (d.sr (reg f.b)).toNat true
        mReply (dropCode d2 d2.curAsid va.toNat 8) f.d 0 0
      | .error _ => mReply d1 f.d 2 0))

end Sys2Proof.Machine
end

