-- ==== Sys2Proof/Machine/Save.lean ====
section
/-! DEFINITION.  Context save and restore: the save record, the save of a halted group, and the restores
of R399 and R400 (R282, R283, R310, R392 to R400). -/

namespace Sys2Proof.Machine

/-! ### The save record (R395 to R398) -/

/-- A field of an image: offset, bytes, value. -/
abbrev Field := Nat × Nat × Nat

/-- Fields at consecutive offsets of `n` bytes. -/
def run8 (off n : Nat) (vs : List Nat) : List Field := vs.zipIdx.map (fun x => (off + n * x.2, n, x.1))

/-- PARK of a fibre entry, its park address, and the bits beside it (R397). -/
def parkCode (up : Bool) : Park → Nat × Nat × Nat
  | .running => (0, 0, 0)
  | .join j a => (1, a.toNat, j)
  | .word off gen _ => (2, off, gen * 2 ^ 8)
  | .fifo _ => (3, 0, b2n (!up))
  | .replay _ _ _ => (4, 0, 0)
  | .bind _ _ _ _ _ => (4, 0, 0)
  | .halted => (5, 0, 0)

/-- A fibre entry of 32 bytes (R397). -/
def fibreImage (off : Nat) (f : Fibre) (up : Bool) : List Field :=
  let (k, a, m) := parkCode up f.park
  [(off, 8, if f.live then f.pc.toNat else 0),
   (off + 8, 4, f.preds.toNat + f.base * 2 ^ 16 + f.depth * 2 ^ 20 + b2n f.live * 2 ^ 24 +
      (if f.live then k else 0) * 2 ^ 25 + b2n f.yielded * 2 ^ 28),
   (off + 12, 4, f.stack.toNat), (off + 16, 8, a), (off + 24, 8, m)]

/-- A fibre's FIFO wait is on UP: a push of core A or a pop of core B (R169). -/
def Warp.waitsUp (w : Warp) (core : Nat) (f : Fibre) : Bool := match f.park with
  | .fifo q => w.fifoQ.any (fun x => x.seq == q && x.push == (core % 2 == 0))
  | _ => false

/-- A level record of 1,536 bytes; `up` says of a parked lane whether it waits on UP (R397). -/
def levelImage (off : Nat) (l : Level) (up : Fibre → Bool) : List Field :=
  [(off, 8, l.emupc.toNat), (off + 8, 8, l.emumask.toNat + b2n l.stream * 2 ^ 32 + b2n l.trap * 2 ^ 33)] ++
    run8 (off + 0x10) 8 (l.ow.map (·.toNat)) ++ run8 (off + 0x50) 8 (l.s56.map (·.toNat)) ++
    [(off + 0x90, 8, l.partn.toNat), (off + 0x98, 8, l.enables)] ++ run8 (off + 0xA0) 8 (l.causes.map (·.toNat)) ++
    [(off + 0xD0, 8, if l.stream then l.streamPc.toNat else 0), (off + 0xD8, 8, l.host.toNat)] ++
    l.lanes.flatMap (fun p => fibreImage (off + 0x100 + 32 * p.1) p.2 (up p.2))

/-- A warp's record (R396). -/
def warpImage (off core slot : Nat) (w : Warp) : List Field :=
  run8 off 8 (([w.rmode, w.dseed, w.partn, w.wctl, w.watchdog, w.tcause, w.tdet0, w.tdet1, w.tdet2, w.tpc, w.tskid,
      w.emupc, w.emumask, w.emudepth, w.emuctl, w.pidx] ++ w.ow).map (·.toNat)) ++
    run8 (off + 0xC0) 4 ((List.range 8).map (fun j => (w.jm j).toNat)) ++
    [(off + 0xE0, 8, slot + b2n w.copy * 64)] ++
    run8 (off + 0x100) 8 ((List.range 64).map (fun i => (w.sr i).toNat)) ++
    (List.range 8).flatMap (fun i =>
      let k := w.walkers.get i {}
      run8 (off + 0x300 + 96 * i) 8 (k.desc.map (·.toNat)) ++ run8 (off + 0x340 + 96 * i) 4 k.idx) ++
    [(off + 0x600, 8, w.wflags.toNat)] ++
    (List.range 32).flatMap (fun l => fibreImage (off + 0x800 + 32 * l) (w.fibre l) (w.waitsUp core (w.fibre l))) ++
    w.levels.reverse.zipIdx.flatMap (fun x => levelImage (off + 0xC00 + 0x600 * x.2) x.1 (w.waitsUp core)) ++
    w.v.map (fun p => (off + 0x1800 + 4 * p.1, 4, p.2.toNat))

/-- The 16 bytes of a group shape (R344). -/
def shapeBits (s : Shape) : Nat :=
  (s.warps - 1) + s.copies * 2 ^ 5 + (s.regs / 16 - 1) * 2 ^ 11 + s.scratch / 16384 * 2 ^ 15 + b2n s.stream * 2 ^ 20 +
    (s.gang - 1) * 2 ^ 21 + s.scode.toNat * 2 ^ 64

/-- Sections of a record: their offsets in the order WARPS, SCRATCH, COPY, STREAM, FIFO, ACC, then its end. -/
def recordOffs (g : Group) : List Nat :=
  let w := 1024
  let s := w + g.shape.warps * (6144 + 128 * g.shape.regs)
  let c := s + g.shape.scratch
  let t := c + 4096
  let f := t + 2048
  let a := f + b2n g.fifo * 4096
  [w, s, c, t, f, a, a + 128 + 4096 * g.tiles.length]
def offAt (g : Group) (i : Nat) : Nat := (recordOffs g).getD i 0

/-- An entry of COPY (R398); the places of STATE and REASON beside the handle are the model's. -/
def copyImage (d : Dev) (off k : Nat) (o : CopyOp) : List Field :=
  let total := opChunks d o
  [(off, 8, k + o.gen * 2 ^ 6 + 2 ^ 14 + o.state.code * 2 ^ 16 + o.reason * 2 ^ 20), (off + 8, 8, o.func),
   (off + 16, 8, o.far.toNat), (off + 24, 8, o.xfer.toNat),
   (off + 32, 32, o.shape.row + o.shape.count1 * 2 ^ 32 + o.shape.count2 * 2 ^ 48 + o.shape.mstride1.toNat * 2 ^ 64 +
      o.shape.mstride2.toNat * 2 ^ 128 + o.shape.sstride1 * 2 ^ 192 + o.shape.sstride2 * 2 ^ 224)] ++
    o.members.flatMap (fun m =>
      let old := oldestChunk total m
      let map := (List.range 64).foldl (fun n i => n + b2n (m.arrived.contains (old + i)) * 2 ^ i) 0
      [(off + 64 + 16 * m.gidx, 8, old), (off + 72 + 16 * m.gidx, 8, map)])

/-- A pin slot of STREAM: tag, generation and VALID; their places in its 32 bytes are the model's (R398; log 78). -/
def pinImage (off : Nat) (p : Pin) (held : Bool) : List Field :=
  run8 off 8 [p.tag.src, p.tag.scale, p.tag.dom + p.tag.fields * 2 ^ 16 + b2n p.tag.shared * 2 ^ 24,
    p.gen + b2n held * 2 ^ 16 + p.used % 2 ^ 32 * 2 ^ 32]

/-- STREAM (R398). -/
def streamImage (off : Nat) (st : Stream) : List Field :=
  [(off, 8, st.pc.toNat), (off + 8, 8, st.cls)] ++ run8 (off + 0x10) 8 ((List.range 16).map (fun i => (st.qr i).toNat)) ++
    st.pins.flatMap (fun p => pinImage (off + 0x100 + 32 * p.1) p.2 (!p.2.entries.isEmpty || st.reload.contains p.1))

/-- Entries of a FIFO direction. -/
def fifoImage (off : Nat) (q : List (List Word)) : List Field :=
  q.zipIdx.flatMap (fun x => run8 (off + 128 * x.2) 4 (x.1.map (·.toNat)))

/-- The accumulator tiles a group's stream has named, ascending. -/
def Group.tileList (g : Group) : List Nat := (List.range Config.accTiles).filter (fun t => g.tiles.contains t)

/-- The operations of a group that COPY holds: those not DONE, of which there are at most 16, before the others (R271,
R398). -/
def copyList (cs : List (Nat × CopyOp)) : List (Nat × CopyOp) :=
  (cs.filter (fun p => p.2.state != .done) ++ cs.filter (fun p => p.2.state == .done)).take 16

/-- The record of a group as bytes. -/
def recordImage (e : Env) (d : Dev) (gid : Nat) : Memory :=
  let g := d.grp gid
  let ws := g.slots.map (fun s => (s, d.warp g.core s))
  let col := d.col (g.core / 2)
  let both := g.fifo && g.core % 2 == 0
  let ups := if both then col.up else []
  let downs := if both then col.down else []
  let cs := copyList ((d.core g.core).copies.filter (fun p => p.2.gid == gid))
  let core := d.core g.core
  let ts := g.tileList
  let head : List Field :=
    [(0, 8, 1 + (g.shape.warps - 1) * 2 ^ 16 + b2n g.shape.stream * 2 ^ 21 + b2n g.fifo * 2 ^ 22 +
        b2n (ws.any (fun w => !w.2.levels.isEmpty)) * 2 ^ 23),
     (8, 8, (d.ctx g.ctx).asid.toNat % 2 ^ 16 + g.core * 2 ^ 16 + g.gidx * 2 ^ 23 + (max 1 g.gang.length - 1) * 2 ^ 26),
     (0x10, 8, e.hb (g.core / 64)), (0x18, 8, g.task.codever), (0x20, 16, shapeBits g.shape), (0x40, 64, taskBits g.task)] ++
      run8 0x80 8 ((recordOffs g).take 6) ++ [(0xB0, 8, ups.length + downs.length * 2 ^ 8)]
  let fields := head ++
    ws.zipIdx.flatMap (fun x => warpImage (offAt g 0 + x.2 * (6144 + 128 * g.shape.regs)) g.core x.1.1 x.1.2) ++
    cs.zipIdx.flatMap (fun x => copyImage d (offAt g 2 + 256 * x.2) x.1.1 x.1.2) ++
    (match g.stream with
      | some st => streamImage (offAt g 3) st
      | none => []) ++
    (if g.fifo then fifoImage (offAt g 4) ups ++ fifoImage (offAt g 4 + 2048) downs else []) ++
    [(offAt g 5, 128, ts.foldl (fun n t => n + 2 ^ t) 0)] ++
    ts.zipIdx.flatMap (fun x => (core.acc.filter (fun p => p.1 / 1024 == x.1)).map (fun p =>
      (offAt g 5 + 128 + 4096 * x.2 + 4 * (p.1 % 1024), 4, p.2.toNat)))
  let m : Memory := g.scratch.map (fun p => (p.1 + offAt g 1, p.2))
  fields.foldl (fun m f => m.writeN f.1 f.2.1 f.2.2) m

/-- A record written in pieces of 4 KiB, and whether every write succeeded. -/
def storeRecord (e : Env) (d : Dev) (ctx : Nat) (va : DWord) (m : Memory) (size t : Nat) : Dev × Bool :=
  (List.range ((size + 4095) / 4096)).foldl (fun x i =>
    if !x.2 then x
    else
      let n := min 4096 (size - 4096 * i)
      let a := va + BitVec.ofNat 64 (4096 * i)
      match engStore e x.1 ctx a n (m.readN (4096 * i) n) t with
      | some d => (d, true)
      | none => (engFail e x.1 ctx a n .write t, false)) (d, true)

/-- A record read back, if it can be, and what the reads leave behind. -/
def loadRecord (e : Env) (d : Dev) (ctx : Nat) (va : DWord) (size t : Nat) : Dev × Option Memory :=
  (List.range ((size + 4095) / 4096)).foldl (fun x i =>
    match x.2 with
    | none => x
    | some m =>
      let n := min 4096 (size - 4096 * i)
      let (d, v) := engTake e x.1 ctx (va + BitVec.ofNat 64 (4096 * i)) n t
      (d, v.map (fun v => m.writeN (4096 * i) n v))) (d, some [])

/-! ### Save (R394) -/

/-- The halt of a save is complete: no warp may issue any more (R379). -/
def saveHalted (d : Dev) (g : Group) : Bool :=
  match g.halt with
  | some h => h.save && decide (h.c + 3 < d.clk g.core)
  | none => false

/-- No word of a group is part-way: its VFLT words are complete, and none waits behind a `FENCE.SC` (R392). -/
def wordsDone (d : Dev) (g : Group) : Bool :=
  g.slots.all (fun s => (d.warp g.core s).flagsDue.isEmpty)

/-- Every condition of R394 holds, a block included. -/
def saveReady (d : Dev) (gid : Nat) : Bool :=
  match d.groups.find? gid with
  | none => false
  | some g =>
    g.saving && !g.ended && saveHalted d g && !groupPending d gid && wordsDone d g &&
      (match g.stream with
        | some st => st.out.isEmpty
        | none => true) &&
      !((d.core g.core).copies.any (fun p => p.2.gid == gid && p.2.settling)) && saveFits d gid

/-- The chunks of a group's save leave an operation, and nothing that the engine had read for it is kept (R280, R282). -/
def copyLeave (gid : Nat) (o : CopyOp) : CopyOp :=
  let ws := o.waits.filter (fun w => !o.waitOf gid w)
  let o : CopyOp := { o with waits := ws, state := if o.state = CState.parked && ws.isEmpty then .running else o.state }
  if o.gid = gid then { o with held := [], started := [] } else o.prune gid

/-- Waiters leave the fault-buffer entries they are parked on (R394, point 5). -/
def leaveEntries (d : Dev) (gid : Nat) : Dev :=
  let d := leaveChunks (leaveParked d gid) gid true
  { d with cores := d.cores.map (fun c => (c.1, { c.2 with copies := c.2.copies.map (fun q => (q.1, copyLeave gid q.2)) })) }

/-- The stream's queue is withdrawn: its PC is that of the oldest operation removed (R310).  Its pins are released, to
be loaded again at the restore, and a packet in hand is given up. -/
def withdraw (st : Stream) : Stream :=
  let st : Stream := { st with
    reload := (List.range 32).filter (fun k => st.reload.contains k || !(st.pins.get k {}).entries.isEmpty)
    pins := st.pins.map (fun p => (p.1, { p.2 with entries := [] })), buf := none }
  match st.queue with
  | [] => (match st.park with
    | .replay _ _ _ => { st with park := .running }
    | _ => st)
  | m :: _ => { st with
      pc := m.pc, queue := [], ended := false, park := if st.park = SPark.halted then .halted else .running }

/-- A stream frame that is open, or still owed to a group, resumes at the oldest operation that a save withdraws
(R310, R397). -/
def withdrawFrames (d : Dev) (gid : Nat) : Dev :=
  match (d.grp gid).stream.bind (fun st => st.queue.head?) with
  | none => d
  | some m =>
    let g := d.grp gid
    (d.modWarp g.core (g.slots.headD 0) (fun w => { w with
      levels := w.levels.map (fun l => if l.stream then { l with streamPc := m.pc } else l) })).modGrp gid (fun g => { g with
        owed := g.owed.map (fun h => if h.ostream then { h with streamPc := m.pc } else h) })

/-- `CONTEXT_SAVE`: the record is written and the group's reservations are released (R394). -/
def contextSave (e : Env) (d : Dev) (gid : Nat) : Dev :=
  if !saveReady d gid then d
  else
    let d := leaveEntries d gid
    let img := recordImage e ((withdrawFrames d gid).modStream gid (fun st => { withdraw st with pins := st.pins })) gid
    let d := (withdrawFrames d gid).modStream gid withdraw
    let d := d.modGrp gid (fun g => { g with
      waits := (g.waits.filter (fun w => w.2.2.bind)).map (fun w => (w.1, Config.fbEntries, w.2.2))
      halt := none, saving := false })
    let g := d.grp gid
    let blk := (saveBlock d g.ctx).getD 0
    let va := ((d.ctx g.ctx).savepool &&& 0xFFFFFFFFFFFFF000#64) + BitVec.ofNat 64 (blk * 65536 * fieldN (d.ctx g.ctx).savecfg 0 16)
    match storeRecord e d g.ctx va img (offAt g 6) (g.core / 64) with
    -- R381 lists no SRC for a record that cannot be written: a free value (log 44).
    | (d, false) => hwerr e { d with free := d.free + 1 } gid (fieldN (Config.freeValue d.free) 0 4) 0 va.toNat
    | (d, true) =>
      let col := d.col (g.core / 2)
      let sv : Saved :=
        { ctx := g.ctx, gid := gid, va := va, block := blk, group := g
          warps := g.slots.map (fun s => d.warp g.core s)
          copies := (d.core g.core).copies.filter (fun p => p.2.gid == gid)
          at_ := d.now, preempted := g.preempted, holders := if g.fifo then col.holders else none }
      let d : Dev := { d with
        cores := d.cores.map (fun p => if p.1 = g.core then
          (p.1, { p.2 with copies := p.2.copies.filter (fun q => !(q.2.gid == gid)) }) else p)
        warps := d.warps.filter (fun p => !(p.2.gid == gid && p.1 / 64 == g.core))
        groups := d.groups.erase gid
        saved := d.saved ++ [sv] }
      -- Both sides of a FIFO saved: its entries go with core A's group, and the column is free.
      match col.holders with
      | some (a, b) =>
        if g.fifo && d.saved.any (fun (s : Saved) => s.gid == a) && d.saved.any (fun (s : Saved) => s.gid == b) then
          let d := { d with saved := d.saved.map (fun (s : Saved) => if s.gid = a then { s with up := col.up, down := col.down } else s) }
          let d := d.modCol (g.core / 2) (fun c => { c with holders := none, up := [], down := [] })
          match List.find? (fun (s : Saved) => s.gid == a) d.saved with
          | none => d
          | some s =>
            let m : List Field := (fifoImage (offAt s.group 4) col.up ++ fifoImage (offAt s.group 4 + 2048) col.down ++
              [(0xB0, 8, col.up.length + col.down.length * 2 ^ 8)])
            m.foldl (fun (d : Dev) (f : Field) => (engStore e d s.ctx (s.va + BitVec.ofNat 64 f.1) f.2.1 f.2.2 (g.core / 64)).getD d) d
        else d
      | none => d

/-- System software switches a group's context out: its save begins, if a block of the context is free (R393; log 60). -/
def switchOut (d : Dev) (gid : Nat) : Dev :=
  match d.groups.find? gid with
  | none => d
  | some g => if g.ended || !saveFits d gid then d else (beginSave d gid false).modGrp gid (fun g => { g with out := true })

/-- `CONTEXT_SAVE`: the save of a halted group, or the order that starts one. -/
def execContextSave (p : Ev.GroupRef) (s : State) : Host.Outcome State Fault Refusal :=
  s.run (fun e d => if saveReady d p.gid then contextSave e d p.gid else switchOut d p.gid)

/-! ### Restore (R399) -/

/-- Reads of an image. -/
def im64 (m : Memory) (off : Nat) : DWord := BitVec.ofNat 64 (m.readN off 8)
def im32 (m : Memory) (off : Nat) : Word := BitVec.ofNat 32 (m.readN off 4)

/-- A fibre from its entry; what the entry has no field for comes from the group's own record. -/
def fibreLoad (m : Memory) (off : Nat) (old : Fibre) : Fibre :=
  let b := m.readN (off + 8) 4
  let k := bitsN b 25 3
  { old with
    pc := im64 m off, preds := BitVec.ofNat 16 (b % 2 ^ 16) &&& 0xFFFE, base := bitsN b 16 4, depth := bitsN b 20 4
    live := b.testBit 24, yielded := b.testBit 28, stack := im32 m (off + 12), age := 0
    park := match k with
      | 0 => .running
      | 1 => .join (m.readN (off + 24) 1 % 8) (im64 m (off + 16))
      | 2 => (match old.park with
        | .word _ _ dest => .word (m.readN (off + 16) 8) (m.readN (off + 25) 1 % 64) dest
        | _ => .running)
      | 3 => (match old.park with
        | .fifo s => .fifo s
        | _ => .running)
      | 4 => (match old.park with
        | .bind t _ va r o => .bind t Config.fbEntries va r o
        | _ => .running)
      | _ => .halted }

/-- A level from its record. -/
def levelLoad (m : Memory) (off : Nat) (old : Level) : Level :=
  let x := m.readN (off + 8) 8
  let host := im32 m (off + 0xD8)
  { old with
    emupc := im64 m off, emumask := im32 m (off + 8), stream := x.testBit 32, trap := x.testBit 33
    ow := (List.range 8).map (fun i => im64 m (off + 0x10 + 8 * i)), s56 := (List.range 8).map (fun i => im64 m (off + 0x50 + 8 * i))
    partn := im64 m (off + 0x90), enables := m.readN (off + 0x98) 1 % 32
    causes := (List.range 6).map (fun i => im64 m (off + 0xA0 + 8 * i)), streamPc := im64 m (off + 0xD0), host := host
    lanes := (lanesOf host).map (fun l => (l, fibreLoad m (off + 0x100 + 32 * l) (old.lanes.get l {}))) }

/-- A warp from its record. -/
def warpLoad (m : Memory) (off : Nat) (old : Warp) : Warp :=
  let r (i : Nat) : DWord := im64 m (off + 8 * i)
  let n := old.levels.length
  { old with
    rmode := r 0, dseed := r 1, partn := r 2, wctl := r 3, watchdog := r 4, tcause := r 5, tdet0 := r 6, tdet1 := r 7
    tdet2 := r 8, tpc := r 9, tskid := r 10, emupc := r 11, emumask := r 12, emudepth := r 13, emuctl := r 14, pidx := r 15
    ow := (List.range 8).map (fun i => im64 m (off + 0x80 + 8 * i))
    j := (List.range 8).foldl (fun s i => SMap.put s i (im32 m (off + 0xC0 + 4 * i)) 0) []
    s := (List.range 64).foldl (fun s i => if i = 0 then s else SMap.put s i (im64 m (off + 0x100 + 8 * i)) 0) []
    walkers := (List.range 8).map (fun i =>
      (i, { desc := (List.range 8).map (fun k => im64 m (off + 0x300 + 96 * i + 8 * k))
            idx := (List.range 4).map (fun k => m.readN (off + 0x340 + 96 * i + 4 * k) 4) }))
    wflags := im64 m (off + 0x600)
    fib := (List.range 32).map (fun l => (l, fibreLoad m (off + 0x800 + 32 * l) (old.fibre l)))
    levels := old.levels.zipIdx.map (fun x => levelLoad m (off + 0xC00 + 0x600 * (n - 1 - x.2)) x.1)
    v := (m.slice (off + 0x1800) (128 * old.nregs)).foldl (fun s c =>
      let k := (c.1 - (off + 0x1800)) / 4
      SMap.put s k (im32 m (off + 0x1800 + 4 * k)) 0) []
    skidGroups := 0, skidLast := 0, skidStop := false }

/-- A pin slot from its 32 bytes: the slot, its tile still to be loaded again. -/
def pinLoad (m : Memory) (off : Nat) : Pin :=
  let x := m.readN (off + 16) 8
  { gen := m.readN (off + 24) 2, used := m.readN (off + 28) 4
    tag := { src := m.readN off 8, scale := m.readN (off + 8) 8, dom := x % 2 ^ 16, fields := x / 2 ^ 16 % 128, shared := x.testBit 24 } }

/-- The stream from its section; the tiles of its valid pins are loaded again apart (R310). -/
def streamLoad (m : Memory) (off : Nat) (old : Stream) : Stream :=
  let slot (i : Nat) : Nat := off + 0x100 + 32 * i
  { old with
    pc := im64 m off, cls := m.readN (off + 8) 1 % 8
    q := (List.range 16).foldl (fun s i => if i = 0 then s else SMap.put s i (im64 m (off + 0x10 + 8 * i)) 0) []
    pins := (List.range 32).foldl (fun s i => SMap.put s i (pinLoad m (slot i)) {}) []
    reload := (List.range 32).filter (fun i => (m.readN (slot i + 26) 1).testBit 0)
    queue := [], out := [], leave := 0, wake := 0, skidStop := false, buf := none }

/-- The state of a copy operation from its code (R278). -/
def CState.ofCode : Nat → CState
  | 0 => .free | 1 => .queued | 2 => .running | 3 => .parked | 4 => .done | 5 => .faulted | _ => .cancelled

/-- A copy operation from its entry of COPY (R398).  Its members and what the entry has no field for stay as they were
kept, and so does the end of one whose members have dropped out since (R449). -/
def copyLoad (m : Memory) (off : Nat) (old : CopyOp) : CopyOp :=
  let h := m.readN off 8
  { old with
    gen := bitsN h 6 8, func := m.readN (off + 8) 8, far := im64 m (off + 16), xfer := im64 m (off + 24)
    shape := shapeOf (m.readN (off + 32) 32), reason := bitsN h 20 4
    state := if old.state = CState.done then .done else CState.ofCode (bitsN h 16 4)
    members := old.members.map (fun x =>
      let first := m.readN (off + 64 + 16 * x.gidx) 8
      let map := m.readN (off + 72 + 16 * x.gidx) 8
      { x with arrived := List.range first ++ ((List.range 64).filter (fun i => map.testBit i)).map (first + ·) }) }

/-- The copy operations of a saved group as its record has them. -/
def copiesLoad (m : Memory) (off : Nat) (cs : List (Nat × CopyOp)) : List (Nat × CopyOp) :=
  let listed := copyList cs
  listed.zipIdx.map (fun x => (x.1.1, copyLoad m (off + 256 * x.2) x.1.2)) ++
    cs.filter (fun p => !listed.any (fun q => q.1 == p.1))

/-- Columns whose FIFO a gang would hold must be free. -/
def columnsFree (d : Dev) (ks : List Nat) : Bool := ks.all (fun k => (d.col k).holders.isNone)

/-- The table entries of a saved group's copy operations are free, or DONE, on a core. -/
def copiesFit (d : Dev) (s : Saved) (core : Nat) : Bool :=
  s.copies.all (fun p => match (d.core core).copies.find? p.1 with
    | some o => o.state == .done
    | none => true)

/-- A core can take a saved group. -/
def canTake (d : Dev) (s : Saved) (core : Nat) : Bool :=
  coreUsable d core s.group.shape.stream && ((occRes d (core / 64) core 0 none).place s.group.shape).isSome && copiesFit d s core

/-- The cores a saved group may go to: its pass's mask in the tower of its tile, or the enabled cores of
its tower. -/
def saveCores (d : Dev) (s : Saved) : List Nat :=
  let g := s.group
  let t := g.core / 64
  if g.task.pass = 255 then (List.range 64).map (· + 64 * t)
  else maskCores ((d.launch g.launch).pass g.task.pass) t

/-- Where a saved group goes now, with the rest of its gang when all of it is saved: (group, core).
DESIGN CHOICE: a member of a gang that some member has already left for good goes back to its own core. -/
def restorePlace (d : Dev) (s : Saved) : Option (List (Nat × Nat)) :=
  let g := s.group
  let cs := (saveCores d s).filter (fun c => canTake d s c)
  if g.out then none
  else if g.gang.isEmpty then
    (cs.foldl (fun (b : Option Nat) c => match b with
      | none => some c
      | some x => if (occOf d c).free > (occOf d x).free then some c else some x) none).map (fun c => [(s.gid, c)])
  else
    let mates := g.gang.filterMap (fun k => d.saved.find? (fun x => x.gid == k))
    let holding := mates.any (fun x => !x.up.isEmpty || !x.down.isEmpty)
    if mates.length < g.gang.length then
      let col := d.col (g.core / 2)
      if canTake d s g.core && (!g.fifo || col.holders.isNone || col.holders == s.holders) then some [(s.gid, g.core)] else none
    else
      let ms := if mates.any (fun x => x.group.out) then none
        else if holding then some (mates.map (fun x => x.group.core)) else gangCores mates.length cs
      match ms with
      | none => none
      | some ms =>
        let ps := mates.zip ms
        if ps.all (fun x => canTake d x.1 x.2) && columnsFree d (gangColumns ms) then some (ps.map (fun x => (x.1.gid, x.2))) else none

/-- The pieces of an extent that a saved tag names: of a private tag, where its VA translates now, and a piece that no
longer translates fails with the fill; of a shared one, the physical addresses from its PA (log 78). -/
def reloadTargets (d : Dev) (shared : Bool) (a len : Nat) : List (Target × Nat) :=
  if shared then (lineParts a len).map (fun p => (.mem (a + p.1) {}, p.2))
  else (mxPieces d .read (BitVec.ofNat 64 a) len).map (fun p => match p.2.2 with
    | .ok (t, _) => (t, p.2.1)
    | .error _ => (.fail 7 0, p.2.1))

/-- The fill that a saved tag asks for. -/
def reloadMop (d : Dev) (gid : Nat) (t : WTag) : Mop :=
  let g := d.grp gid
  let d0 : Dev := { d with cur := { d.cur with gid := gid, core := g.core, stream := true } }
  { gid := gid, core := g.core, kind := .mwld, pc := 0, word := 0, born := d.tick
    qa := BitVec.ofNat 64 t.src, qf := t.format, qx := BitVec.ofNat 64 t.scale
    parts := [reloadTargets d0 t.shared t.src (tileBytes t.format), reloadTargets d0 t.shared t.scale (scaleBytes t.format)] }

/-- What translating a reloaded tile leaves behind (R90, R91). -/
def reloadTouch (d : Dev) (gid : Nat) (t : WTag) : Dev :=
  if t.shared then d
  else
    let d0 : Dev := { d with cur := { d.cur with gid := gid, core := (d.grp gid).core, stream := true } }
    { mxTouch d0 .read [(BitVec.ofNat 64 t.src, tileBytes t.format), (BitVec.ofNat 64 t.scale, scaleBytes t.format)] with cur := d.cur }

/-- One pin of a restored stream is loaded again into its slot by its saved tag, its generation unchanged, once entries
are free (R292, R310). -/
def reloadPin (d : Dev) (gid k : Nat) : Dev :=
  match (d.grp gid).stream with
  | none => d
  | some st =>
    let t := (st.pins.get k {}).tag
    let col := (d.grp gid).core / 2
    let found : Option (Dev × Nat) := match wMatch d col t with
      | some i => some (d, i)
      | none =>
        let ks := (wFree d col).take (wNeed t.format)
        if ks.length < wNeed t.format then none else some (wFill (reloadTouch d gid t) col (reloadMop d gid t) t ks)
    match found with
    | none => d
    | some (d, i) => d.modStream gid (fun st => { st with
        pins := st.pins.set k { st.pins.get k {} with entries := wEntries d col i }, reload := st.reload.filter (fun j => j != k) })

/-- The pins of a restored stream are loaded again, the lowest slot first, each in its turn; the stream issues once all
of them are (R310). -/
def reloadPins (d : Dev) (gid : Nat) : Dev :=
  match (d.grp gid).stream with
  | none => d
  | some st => st.reload.foldl (fun d k =>
      if (((d.grp gid).stream.map (fun st => st.reload.headD 32)).getD 32) = k then reloadPin d gid k else d) d

/-- Waits of a restored group re-evaluate against its words (R257, R283). -/
def reWake (d : Dev) (gid : Nat) : Dev :=
  let g := d.grp gid
  let offs := g.slots.flatMap (fun s => (d.warp g.core s).fib.filterMap (fun p => match p.2.park with
    | .word o _ _ => some o
    | _ => none))
  let offs := match g.stream with
    | some st => (match st.park with
      | .mwait o _ _ => offs ++ [o]
      | _ => offs)
    | none => offs
  offs.eraseDups.foldl (fun d o => wakeOn d gid o) d

/-- A warp and a stream whose waits on the clock of their old core are over. -/
def Warp.rested (w : Warp) : Warp := { w with readyAt := [], fib := w.fib.map (fun p => (p.1, { p.2 with wake := 0 })) }
def Stream.rested (st : Stream) : Stream :=
  { st with wake := 0, leave := 0, queue := st.queue.map (fun m => { m with ready := 0 }) }

/-- The replies still on their way to a restored group follow it to its slots (R123, R447). -/
def repliesFollow (d : Dev) (gid core : Nat) (slotOf : Nat → Nat) : Dev :=
  let re (r : PgWait) : PgWait := if r.gid = gid then { r with core := core, slot := slotOf r.slot } else r
  { d with
    agenda := d.agenda.map (fun ev => match ev with
      | .commandReply p => if p.gid = gid then .commandReply { p with core := core, slot := slotOf p.slot } else ev
      | _ => ev)
    mgmt := { d.mgmt with
      gating := d.mgmt.gating.map (fun q => { q with reply := q.reply.map re })
      ungating := d.mgmt.ungating.map (fun q => (q.1, re q.2)) } }

/-- One saved group comes back on a core, holding its column's FIFO if `fifo` says so. -/
def restoreOne (e : Env) (d : Dev) (s : Saved) (core : Nat) (fifo : Bool) : Dev :=
  let g := s.group
  -- A record that cannot be read has no FORMAT of 1 (log 44).
  let (d, got) := loadRecord e d s.ctx s.va (offAt g 6) (core / 64)
  let m := got.getD []
  let bad := m.readN 0 2 != 1
  match (occOf d core).place g.shape with
  | none => d
  | some (slots, _) =>
      let scratch : Memory := if bad then g.scratch else (m.slice (offAt g 1) g.shape.scratch).map (fun p => (p.1 - offAt g 1, p.2))
      let slotOf (x : Nat) : Nat := (slots[g.slots.findIdx (· == x)]?).getD 0
      let bs := scratchBlocks d core g.shape.scratch
      let g' : Group := { g with
        core := core, slots := slots, scratch := scratch, blocks := bs, fifo := fifo
        waits := g.waits.map (fun w => (core / 64, w.2.1, { w.2.2 with oslot := slotOf w.2.2.oslot }))
        owed := g.owed.map (fun h => { h with oslot := slotOf h.oslot })
        stream := g.stream.map (fun st => (if bad then st else streamLoad m (offAt g 3) st).rested) }
      let d : Dev := { d with saved := d.saved.filter (fun x => !(x.gid == s.gid)) }
      let d := repliesFollow (d.setGrp s.gid g') s.gid core slotOf
      let cs := if bad then s.copies else copiesLoad m (offAt g 2) s.copies
      let d := (slots.zip s.warps).zipIdx.foldl (fun d x =>
        d.setWarp core x.1.1 (if bad then x.1.2 else warpLoad m (offAt g 0 + x.2 * (6144 + 128 * g.shape.regs)) x.1.2).rested) d
      let d := d.modCore core (fun c => { c with
        copies := cs.foldl (fun cs p => cs.set p.1 p.2) c.copies
        copyGen := cs.foldl (fun gs p => gs.set p.1 p.2.gen) c.copyGen })
      if bad then hwerr e d s.gid 5 0 0
      else
        -- ACC (R290, R398).
        let map := m.readN (offAt g 5) 128
        let ts := (List.range Config.accTiles).filter (fun t => map.testBit t)
        let asid := (d.ctx s.ctx).asid.toNat
        let d := d.modCore core (fun c => { c with
          accTag := ts.foldl (fun a t => a.set t asid) c.accTag
          acc := ts.zipIdx.foldl (fun a x =>
            let off := offAt g 5 + 128 + 4096 * x.2
            (m.slice off 4096).foldl (fun a b =>
              let k := (b.1 - off) / 4
              SMap.put a (x.1 * 1024 + k) (im32 m (off + 4 * k)) 0) (a.filter (fun p => !(p.1 / 1024 == x.1)))) c.acc })
        -- FAULT updates owed to the member, and multicast residuals that come to it directly (R283).
        let d := s.faults.foldl (fun d off => setFault d s.gid off) d
        let direct (o : CopyOp) : CopyOp := if o.func = 4 then { o with members := o.members.map (fun m =>
            if m.gid = s.gid then { m with direct := true } else m) } else o
        let d : Dev := { d with
          cores := d.cores.map (fun c => (c.1, { c.2 with copies := c.2.copies.map (fun q => (q.1, direct q.2)) }))
          saved := d.saved.map (fun x => { x with copies := x.copies.map (fun q => (q.1, direct q.2)) }) }
        let d := reWake (reloadPins d s.gid) s.gid
        let ws := slots.flatMap (fun sl => (d.warp core sl).fib.filterMap (fun q => match q.2.park with
          | .bind _ _ va r o => some (core, sl, q.1, va, r, o)
          | _ => none))
        let d := s.replies.foldl (fun d r => d.post (.commandReply
          { core := core, slot := (slots[r.1]?).getD 0, gid := s.gid, d := r.2.1, value := r.2.2, eng := 2 })) d
        bindRetry e (l1Yield d core bs) ws

/-- The FIFO entries of a save record: UP, then DOWN (R395, R398). -/
def fifoLoad (e : Env) (d : Dev) (s : Saved) : List (List Word) × List (List Word) :=
  match (loadRecord e d s.ctx s.va (offAt s.group 6) 2).2 with
  | none => (s.up, s.down)
  | some m =>
    let n := m.readN 0xB0 8
    let q (off k : Nat) : List (List Word) := (List.range k).map (fun i =>
      (List.range 32).map (fun l => im32 m (off + 128 * i + 4 * l)))
    (q (offAt s.group 4) (min 16 (n % 32)), q (offAt s.group 4 + 2048) (min 16 (n / 256 % 32)))

/-- The column of a member that comes back alone is held again as before the save, and its entries stand in it
(R171). -/
def fifoAgain (e : Env) (d : Dev) (s : Saved) (core : Nat) : Dev :=
  match s.holders with
  | none => d
  | some (a, b) =>
    if (d.col (core / 2)).holders.isSome then d
    else
      let (up, down) := match (if s.gid = a then some s else d.saved.find? (fun x => x.gid == a)) with
        | some x => fifoLoad e d x
        | none => ([], [])
      d.modCol (core / 2) (fun c => { c with holders := some (a, b), up := up, down := down, fresh := [], gone := [] })

/-- The groups of a restore come back; a gang that is back as a whole takes its columns' FIFOs again. -/
def restoreAll (e : Env) (d : Dev) (ps : List (Nat × Nat)) (pin : Bool) : Dev :=
  let ms := ps.map (·.2)
  let cols := if ps.length > 1 then gangColumns ms else []
  let fifo := (ps.filterMap (fun p => d.saved.find? (fun s => s.gid == p.1))).map (fun s =>
    (s.gid, if s.up.isEmpty && s.down.isEmpty then ([], []) else fifoLoad e d s))
  let d := ps.foldl (fun d p => match d.saved.find? (fun s => s.gid == p.1) with
    | some s =>
      let d := if ps.length > 1 then d else fifoAgain e d s p.2
      restoreOne e d s p.2 (if ps.length > 1 then cols.contains (p.2 / 2) else s.group.fifo)
    | none => d) d
  let d := cols.foldl (fun d k =>
    let at_ (c : Nat) : Nat := ((ps.find? (fun p => p.2 == c)).map (fun (p : Nat × Nat) => p.1)).getD 0
    let a := at_ (2 * k)
    let q := ((fifo.find? (fun x => x.1 == a)).map (fun (x : Nat × List (List Word) × List (List Word)) => x.2)).getD ([], [])
    d.modCol k (fun c => { c with holders := some (a, at_ (2 * k + 1)), up := q.1, down := q.2, fresh := [], gone := [] })) d
  let d := ps.foldl (fun d p => fifoServe (p.2 / 2) 0 64 (fifoServe (p.2 / 2) 1 64 d)) d
  if pin then ps.foldl (fun d p => d.modGrp p.1 (fun g => { g with pinned := d.now + d.ns us140 })) d else d

/-- Heads of higher-priority contexts still wait for one of these cores. -/
def outranked (d : Dev) (ctx : Nat) (cs : List Nat) : Bool :=
  [0, 1].any (fun t => (candsOf d t).any (fun c =>
    c.spawned.isNone && decide (prioOf d ctx < prioOf d (d.launch c.launch).ctx) && candReady d c && c.cores.any (fun k => cs.contains k)))

/-- A saved group may come back: it has a place, and no head of a higher priority waits for it. -/
def restoreReady (d : Dev) (gid : Nat) : Option (List (Nat × Nat)) :=
  match d.saved.find? (fun s => s.gid == gid && !s.group.killed) with
  | none => none
  | some s =>
    match restorePlace d s with
    | none => none
    | some ps => if outranked d s.ctx (ps.map (·.2)) then none else some ps

/-- The oldest group of a context that has stood saved by pre-emption for 2 ms (R400). -/
def starvedGroup (d : Dev) (ctx : Nat) : Option Saved :=
  match d.saved.filter (fun s => s.ctx == ctx && s.preempted && !s.group.killed && !s.group.out && decide (s.at_ + d.ns ms2 ≤ d.now)) with
  | [] => none
  | x :: r => some (r.foldl (fun b s => if s.at_ < b.at_ then s else b) x)

/-- The group is the one that its context's starvation restores (R400). -/
def isStarved (d : Dev) (s : Saved) : Bool := ((starvedGroup d s.ctx).map (·.gid)) == some s.gid

/-- A restore of the package's own is due: the starved groups have their own. -/
def restoreDue (d : Dev) (s : Saved) : Bool := !isStarved d s && (restoreReady d s.gid).isSome

/-- `CONTEXT_RESTORE`: the restore of a saved group, or the order that switches its context in (R393, R399). -/
def execContextRestore (p : Ev.GroupRef) (s : State) : Host.Outcome State Fault Refusal :=
  s.run (fun e d =>
    let d : Dev := { d with saved := d.saved.map (fun x => if x.gid = p.gid then { x with group := { x.group with out := false } } else x) }
    match restoreReady d p.gid with
    | some ps => restoreAll e d ps (ps.any (fun x => d.saved.any (fun s => s.gid == x.1 && isStarved d s)))
    | none => d)

/-- The group that makes room for a starved one: the youngest of a higher CTXPRIO on a core of its mask. -/
def starveVictim (d : Dev) (s : Saved) : Option Nat :=
  let cs := saveCores d s
  if d.groups.any (fun p => p.2.saving && cs.contains p.2.core) then none
  else
    ((d.groups.filter (fun p => cs.contains p.2.core && !p.2.ended && decide (prioOf d s.ctx < prioOf d p.2.ctx) && saveFits d p.1)).foldl
      (fun (b : Option (Nat × Group)) p => match b with
        | none => some p
        | some q => if q.2.born < p.2.born ∨ q.2.born = p.2.born ∧ q.1 < p.1 then some p else some q) none).map (·.1)

/-- `STARVATION_RESTORE`. -/
def starve (e : Env) (d : Dev) (ctx : Nat) : Dev :=
  match starvedGroup d ctx with
  | none => d
  | some s =>
    match restorePlace d s with
    | some ps => restoreAll e d ps true
    | none => match starveVictim d s with
      | some g => beginSave d g true
      | none => d

/-- `STARVATION_RESTORE`. -/
def execStarvationRestore (p : Ev.Ctx) (s : State) : Host.Outcome State Fault Refusal := s.run (fun e d => starve e d p.ctx)

end Sys2Proof.Machine
end

