-- ==== Sys2Proof/Machine/Mgmt.lean ====
section
/-! DEFINITION.  The management core: telemetry, gating, voltage and frequency, temperatures, counters,
attestation (R432 to R447), and the memory engine's work of its own (R111, R112, R115 to R117). -/

namespace Sys2Proof.Machine

/-! ### Keys and the throttle log -/

/-- A layer: (tower × 32 + column) × 8 + layer code. -/
def layerKey (col code : Nat) : Nat := col * 8 + code
/-- The VF block of a logic layer (R435). -/
def vfKey (lk : Nat) : Nat := lk / 8 * 4 + lk % 8 - 3
/-- The latest sample of a layer's temperature. -/
def tempOf (d : Dev) (lk : Nat) : Int := d.mgmt.temps.get lk 0
def modVf (d : Dev) (k : Nat) (f : VfBlock → VfBlock) : Dev :=
  d.modMgmt (fun m => { m with vf := m.vf.set k (f (vfBlock d k)) })

/-- An entry of the throttle log, with the management interrupt (R440, R415). -/
def throttleEntry (e : Env) (d : Dev) (lk why oldp newp : Nat) : Dev :=
  let x := lk / 8 % 64 + lk % 8 * 2 ^ 6 + why % 256 * 2 ^ 9 + oldp % 16 * 2 ^ 17 + newp % 16 * 2 ^ 21 + tempCode (tempOf d lk) * 2 ^ 32
  let entry := [BitVec.ofNat 64 (e.hb 0), BitVec.ofNat 64 x, BitVec.ofNat 64 d.mgmt.throttle.seq, 0]
  (d.modMgmt (fun m => { m with throttle := m.throttle.push 64 entry })).msi 69

/-- WHY of a logic layer with the bit of a reason set or cleared. -/
def setWhy (d : Dev) (lk n : Nat) (b : Bool) : Dev :=
  modVf d (vfKey lk) (fun v => { v with why := v.why - b2n (v.why.testBit n) * 2 ^ n + b2n b * 2 ^ n })

/-! ### Points (R435, R436) -/

def pointMv (d : Dev) (k i : Nat) : Int := (fieldN (vfpt d k i) 0 10 : Int) + (BitVec.ofNat 8 (vfBlock d k).ofs).toInt
def pointMhz (d : Dev) (k i : Nat) : Nat := fieldN (vfpt d k i) 16 12
/-- The ceilings hold a point back. -/
def pointClamped (d : Dev) (k i : Nat) : Bool :=
  decide ((vfBlock d k).vmax < pointMv d k i) || decide ((vfBlock d k).fmax < pointMhz d k i)
/-- A usable point (R436). -/
def pointUsable (d : Dev) (k i : Nat) : Bool :=
  !pointClamped d k i && (List.range i).all (fun j => decide (pointMv d k j ≤ pointMv d k i ∧ pointMhz d k j ≤ pointMhz d k i))
/-- The usable points from PMIN to PMAX. -/
def pointsOf (d : Dev) (k : Nat) : List Nat :=
  (List.range 16).filter (fun i => pointUsable d k i && decide ((vfBlock d k).pmin ≤ i ∧ i ≤ (vfBlock d k).pmax))
/-- The highest permitted point below one, or point 0. -/
def pointBelow (d : Dev) (k i : Nat) : Nat := (((pointsOf d k).filter (fun j => decide (j < i))).getLast?).getD 0

/-- A transition begins: the frequency falls first, the voltage rises first; the applied voltage has 10 bits (R435,
R436). -/
def moveTo (d : Dev) (k newp : Nat) : Dev :=
  let mv := (pointMv d k newp).toNat % 1024
  let mhz := pointMhz d k newp
  modVf d k (fun v => { v with mv := max v.mv mv, mhz := min v.mhz mhz, goal := some (newp, mv, mhz) })

/-! ### Gates and ungates (R443, R444) -/

/-- The groups that a gate of a layer orders saved. -/
def gateGroups (d : Dev) (lk : Nat) : List Nat :=
  let a := lk / 8 * 2
  (d.groups.filter (fun p => !p.2.ended && (match lk % 8 with
    | 4 => p.2.core == a + 1
    | 5 => p.2.core == a && p.2.stream.isSome
    | 6 => p.2.core == a + 1 && p.2.stream.isSome
    | _ => false))).map (·.1)

/-- A `PGREQ` is answered. -/
def pgAnswer (d : Dev) (status : Nat) (r : PgWait) : Dev :=
  if r.d = 0 then d
  else d.post (.commandReply { core := r.core, slot := r.slot, gid := r.gid, d := r.d, value := BitVec.ofNat 64 status, eng := 2 })
def pgAnswers (d : Dev) (rs : List (Option PgWait)) : Dev :=
  rs.foldl (fun d r => match r with
    | some r => pgAnswer d 0 r
    | none => d) d

/-- The MGCMD command that waits for a layer has ended. -/
def jobEnd (d : Dev) (ops : List Nat) (lk : Nat) : Dev :=
  d.modMgmt (fun m => { m with job := m.job.map (fun j => if ops.contains j.1 ∧ j.2.1 = lk then (0, j.2) else j) })

/-- A gate is asked for: its groups are saved; a layer already gated answers at once. -/
def gateAsk (d : Dev) (lk : Nat) (reply : Option PgWait) : Dev :=
  if d.mgmt.gated.contains lk then pgAnswers d [reply]
  else
    let d := (gateGroups d lk).foldl (fun d g => beginSave d g false) d
    d.modMgmt (fun m => { m with gating := m.gating ++ [{ key := lk, up := false, reply := reply }] })

/-- A layer powers up at point 0; with X1, core B counts from here (R172). -/
def powerUp (e : Env) (d : Dev) (lk : Nat) : Dev :=
  let d := d.modMgmt (fun m => { m with gated := m.gated.filter (fun x => !(x == lk)) })
  let d := throttleEntry e (setWhy (moveTo (modVf d (vfKey lk) (fun v => { v with mhz := pointMhz d (vfKey lk) 0 })) (vfKey lk) 0) lk 5 false) lk 0 0 0
  if lk % 8 = 4 then d.modCore (lk / 8 * 2 + 1) (fun c => { c with cycle0 := d.clk (lk / 8 * 2 + 1), started := 0 }) else d

/-- An ungate is asked for; none when it is refused. -/
def ungateAsk (e : Env) (d : Dev) (lk : Nat) (reply : Option PgWait) : Option Dev :=
  if d.mgmt.heldHot.contains lk || d.mgmt.failed.contains lk then none
  else if d.mgmt.gating.any (fun g => g.key == lk) then
    some (d.modMgmt (fun m => { m with gating := m.gating ++ [{ key := lk, up := true, reply := reply }] }))
  else if !d.mgmt.gated.contains lk then some (pgAnswers d [reply])
  else some ((powerUp e d lk).modMgmt (fun m => { m with ungating := m.ungating ++ (match reply with
    | some r => [(lk, r)]
    | none => []) }))

/-- Every group a gate orders saved is saved, no operation that entered with the layer is left (R297), and no transition of
the layer is under way. -/
def gateReady (d : Dev) (lk : Nat) : Bool :=
  d.mgmt.gating.any (fun g => g.key == lk) && (gateGroups d lk).isEmpty && (vfBlock d (vfKey lk)).goal.isNone &&
    !(d.col (lk / 8)).flying.any (fun p => p.2.layers.testBit (lk % 8 - 3))

/-- Power is removed from a layer: the accumulator store on M0 or M1 goes with it.  Every request that came while the gate
ran is complete with it, and an ungate among them powers the layer up again (R444). -/
def gateDone (e : Env) (d : Dev) (lk : Nat) : Dev :=
  let old := (vfBlock d (vfKey lk)).point
  let rs := d.mgmt.gating.filter (fun g => g.key == lk)
  let d := modVf d (vfKey lk) (fun v => { v with point := 0, mv := 0, mhz := 0, goal := none })
  let d := throttleEntry e (setWhy d lk 5 true) lk (2 ^ 5) old 0
  let d := d.modMgmt (fun m => { m with
    gated := m.gated ++ [lk], gating := m.gating.filter (fun g => !(g.key == lk)) })
  let d := if lk % 8 ≥ 5 then d.modCore (lk / 8 * 2 + (lk % 8 - 5)) (fun c => { c with acc := [], accTag := [] }) else d
  let d := jobEnd (pgAnswers d (rs.map (·.reply))) [1, 2] lk
  if rs.any (·.up) then powerUp e d lk else d

/-- Gates that can complete do. -/
def gateSettle (e : Env) (d : Dev) : Dev :=
  (d.mgmt.gating.map (·.key)).foldl (fun d lk => if gateReady d lk then gateDone e d lk else d) d

/-- The bits of a register's written value outside a mask. -/
def strayBits (x : DWord) (mask : Nat) : Bool := x &&& ~~~(BitVec.ofNat 64 mask) != 0

/-- `TELRD` (R446). -/
def execTelrd (f : FmtXA) (s : State) : Host.Outcome State Fault Refusal :=
  s.run (plain (Instr.telrd f).props (fun d =>
    let a := d.sr (reg f.a)
    let item := fieldN a 0 8
    let i := fieldN a 8 8
    let k := d.cur.core / 2
    let m := d.mgmt
    let v : Option Nat :=
      match item with
      | 0 => if i = 0 then some (m.en0 + m.en1 * 2 ^ 8) else none
      | 1 => if i ≤ 6 then some (tempCode (tempOf d (layerKey k i))) else none
      | 2 => if 3 ≤ i ∧ i ≤ 6 then some (fieldN (vfstat (vfBlock d (k * 4 + i - 3))) 0 28) else none
      | 3 => if 3 ≤ i ∧ i ≤ 6 then some (vfBlock d (k * 4 + i - 3)).why else none
      | 4 => if i = 0 then some m.pwr else none
      | 5 => if i = 0 then some (m.sva.get k 0 + m.svb.get k 0 + m.smx.get k 0) else none
      | _ => none
    postReply d 2 (reg f.d) (match (if strayBits a 0xFFFF then none else v) with
      | some v => BitVec.ofNat 64 (v * 2 ^ 16)
      | none => 1)))

/-- `PGREQ` (R447): the reply follows the end of the gate or ungate. -/
def execPgreq (f : FmtX) (s : State) : Host.Outcome State Fault Refusal :=
  s.run (word (Instr.pgreq f).props (fun _ _ => none)
    (fun e d =>
      let a := d.sr (reg f.a)
      let b := d.sr (reg f.b)
      let code := fieldN a 8 3
      let k := fieldN a 5 1 * 32 + fieldN a 0 5
      let lk := layerKey k code
      let r : PgWait := { core := d.cur.core, slot := d.cur.slot, gid := d.cur.gid, d := reg f.d }
      if strayBits a 0x73F || strayBits b 1 || decide (code < 4 ∨ 6 < code) then postReply d 2 (reg f.d) 1
      else if (d.tower (k / 32)).retiring.contains (k % 32) then postReply d 2 (reg f.d) 2
      else if b = 1 then gateAsk d lk (some r)
      else match ungateAsk e d lk (some r) with
        | some d => d
        | none => postReply d 2 (reg f.d) 2))

/-! ### MGCMD (R432, R443, R444) -/

/-- An interface violation: no effect but the log (R417). -/
def violation (e : Env) (d : Dev) (off : Nat) : Dev :=
  { linkOpen e d 0 1 (BitVec.ofNat 64 off) with hostData := 0xFFFFFFFFFFFFFFFF, hostUr := true }

/-- Enabled columns of a tower (R4, R432). -/
def enabledCols (d : Dev) (t : Nat) : Nat := if t = 0 then d.mgmt.en0 else d.mgmt.en1

/-- MGCMD as written. -/
def mgWord (op : Nat) (p : Ev.MgOp) : DWord := BitVec.ofNat 64 (op % 8 + p.column % 32 * 2 ^ 8 + p.tower % 2 * 2 ^ 13 + p.layer % 8 * 2 ^ 16)

/-- A command starts, unless one runs: its status when it breaks a rule of R432, otherwise its effect. -/
def mgStart (e : Env) (d : Dev) (op : Nat) (p : Ev.MgOp) : Dev :=
  if d.mgmt.busy then violation e d 0x2000018
  else
    let k := p.tower % 2 * 32 + p.column % 32
    let t := p.tower % 2
    let c := p.column % 32
    let lk := layerKey k (p.layer % 8)
    let bank := c * 2 + (p.layer % 8 - 1)
    let key := if op ≤ 2 then lk else t * 64 + bank
    let tw := d.tower t
    let range := op = 0 ∨ op > 4 ∨ (op ≠ 4 ∧ c ≥ enabledCols d t) ∨ (op ≤ 2 ∧ (p.layer % 8 < 4 ∨ 6 < p.layer % 8)) ∨
      (op > 2 ∧ (p.layer % 8 < 1 ∨ 2 < p.layer % 8))
    let d := d.modMgmt (fun m => { m with cmd := mgWord op p, busy := true })
    let job (d : Dev) (st : Nat) : Dev := d.modMgmt (fun m => { m with job := some (op, key, st) })
    if range then job d 1
    else match op with
      | 1 => if tw.retiring.contains c then job d 2
        else if d.mgmt.gated.contains lk then jobEnd (job d 0) [1] lk
        else job (gateAsk d lk none) 0
      | 2 => (match ungateAsk e d lk none with
        | some d' => if d.mgmt.gated.contains lk || d.mgmt.gating.any (fun g => g.key == lk) then job d' 0 else jobEnd (job d' 0) [2] lk
        | none => job d 2)
      | 3 => if tw.retiring.contains c || tw.lostBanks.contains bank || tw.gone.contains c then job d 2
        else job (d.modTower t (fun x => { x with retiring := x.retiring ++ [c], evac := x.evac ++ [bank] })) 0
      | _ => if tw.dieOff.contains (p.layer % 8) then job d 2
        else job (d.post (.cacheLayerShutdown { tower := t, layer := p.layer % 8 })) 0

/-- `MGCMD_GATE`. -/
def execMgcmdGate (p : Ev.MgOp) (s : State) : Host.Outcome State Fault Refusal := s.run (fun e d => mgStart e d 1 p)
/-- `MGCMD_UNGATE`. -/
def execMgcmdUngate (p : Ev.MgOp) (s : State) : Host.Outcome State Fault Refusal := s.run (fun e d => mgStart e d 2 p)
/-- `MGCMD_RETIRE_BUS`. -/
def execMgcmdRetireBus (p : Ev.MgOp) (s : State) : Host.Outcome State Fault Refusal := s.run (fun e d => mgStart e d 3 p)
/-- `MGCMD_SHUTDOWN_LAYER`. -/
def execMgcmdShutdownLayer (p : Ev.MgOp) (s : State) : Host.Outcome State Fault Refusal := s.run (fun e d => mgStart e d 4 p)

/-- The command that runs has come to its end. -/
def jobDone (d : Dev) : Bool :=
  match d.mgmt.job with
  | none => false
  | some (op, key, st) =>
    if st = 1 ∨ st = 2 then true
    else match op with
      | 0 => true
      | 1 => false
      | 2 => false
      | 3 => !(d.tower (key / 64)).evac.contains (key % 64)
      | _ => (d.tower (key / 64)).dieOff.contains (key % 2 + 1)

/-- `MGCMD_COMPLETE`: STATUS, BUSY and the interrupt. -/
def execMgcmdComplete (s : State) : Host.Outcome State Fault Refusal :=
  s.run (fun _ d =>
    if !jobDone d then d
    else (d.modMgmt (fun m => { m with
      cmdStatus := (match m.job with
        | some (_, _, st) => st
        | none => 0)
      busy := false, job := none })).msi 69)

/-! ### Voltage and frequency (R436, R437) -/

/-- The logic layers that have power to change: of enabled columns, gated ones apart. -/
def logicLayers (d : Dev) : List Nat :=
  ((List.range 64).filter (fun k => !(d.tower (k / 32)).gone.contains (k % 32))).flatMap (fun k =>
    (List.range 4).map (fun i => layerKey k (3 + i)))

/-- The reasons in force for a layer (R437). -/
def reasonsOf (d : Dev) (lk : Nat) : Nat :=
  let k := vfKey lk
  let v := vfBlock d k
  let t := tempOf d lk
  let free := (List.range 16).filter (pointUsable d k)
  b2n (decide (warnOf d (lk % 8) ≤ t)) + b2n (decide (critOf d (lk % 8) ≤ t)) * 2 + b2n (decide (d.mgmt.pwrLim < d.mgmt.pwr)) * 4 +
    b2n (decide (d.mgmt.curLim < d.mgmt.cur)) * 8 + b2n ((List.range (v.pmax + 1)).any (pointClamped d k)) * 16 +
    b2n (d.mgmt.gated.contains lk) * 32 + b2n (d.mgmt.failed.contains lk) * 64 +
    b2n (match free.getLast? with
      | some i => decide (v.pmax < i)
      | none => false) * 128

/-- A matrix layer that a package limit can still lower; those come first (R437). -/
def matrixFirst (d : Dev) : Bool :=
  (logicLayers d).any (fun lk => lk % 8 ≥ 5 && !d.mgmt.gated.contains lk && decide ((vfBlock d (vfKey lk)).point > 0))

/-- One layer's step of R437.  VMAX and HOST hold a layer only above the highest point they permit; a layer that stays at
its point still takes up a new voltage or frequency of it (R436). -/
def vfStep (e : Env) (first : Bool) (d : Dev) (lk : Nat) : Dev :=
  let k := vfKey lk
  let v := vfBlock d k
  let why := reasonsOf d lk
  let d := modVf d k (fun v => { v with why := why })
  if d.mgmt.gated.contains lk || v.goal.isSome then d
  else
    let ps := pointsOf d k
    let own_ := why % 4 != 0 || why.testBit 6
    let pkg := why.testBit 2 || why.testBit 3
    let newp : Nat :=
      if own_ ∨ (pkg ∧ (lk % 8 ≥ 5 ∨ !first)) then pointBelow d k v.point
      else if pkg then v.point
      else match ps.find? (fun i => decide (v.point < i)) with
        | some i => if ps.contains v.point ∨ ps.all (fun j => decide (v.point < j)) then i else pointBelow d k v.point
        | none => if ps.contains v.point then v.point else pointBelow d k v.point
    if newp ≠ v.point then throttleEntry e (moveTo d k newp) lk why v.point newp
    else if v.mv = (pointMv d k newp).toNat % 1024 ∧ v.mhz = pointMhz d k newp then d
    else moveTo d k newp

/-- `VF_CONTROL_TICK`. -/
def execVfControlTick (s : State) : Host.Outcome State Fault Refusal :=
  s.run (fun e d =>
    let first := matrixFirst d
    ((logicLayers d).foldl (vfStep e first) d).modMgmt (fun m => { m with vfNext := d.now + d.ns 100000 }))

/-- `VF_TRANSITION_COMPLETE`: the layer runs at its point, and an ungate that waited is answered (R444). -/
def execVfTransitionComplete (p : Ev.Layer) (s : State) : Host.Outcome State Fault Refusal :=
  s.run (fun _ d =>
    let lk := layerKey (p.tower % 2 * 32 + p.column % 32) p.layer
    match (vfBlock d (vfKey lk)).goal with
    | none => d
    | some (pt, mv, mhz) =>
      let d := modVf d (vfKey lk) (fun v => { v with point := pt, mv := mv, mhz := mhz, goal := none })
      let rs := d.mgmt.ungating.filter (fun x => x.1 == lk)
      let d := d.modMgmt (fun m => { m with ungating := m.ungating.filter (fun x => !(x.1 == lk)) })
      let d := if d.mgmt.gating.any (fun g => g.key == lk) then d else jobEnd d [2] lk
      rs.foldl (fun d x => pgAnswer d 0 x.2) d)

/-! ### Temperatures (R438, R439) -/

/-- The action of a layer's temperature at or above CRIT, or of its cooling: what a command has gated stays gated. -/
def heat (e : Env) (d : Dev) (lk : Nat) : Dev :=
  let code := lk % 8
  let t := lk / 256
  let v := tempOf d lk
  let crit := decide (critOf d code ≤ v)
  if code = 1 ∨ code = 2 then
    if crit && !(d.tower t).dieOff.contains code && !d.agenda.any (fun x => match x with
        | .cacheLayerShutdown q => q.tower == t && q.layer == code
        | _ => false) then
      d.post (.cacheLayerShutdown { tower := t, layer := code })
    else d
  else if 4 ≤ code then
    if crit && !d.mgmt.heldHot.contains lk then
      let asked := d.mgmt.gated.contains lk || d.mgmt.gating.any (fun g => g.key == lk && !g.up)
      (if asked then d else gateAsk d lk none).modMgmt (fun m => { m with
        heldHot := m.heldHot ++ [lk], hotGated := if asked then m.hotGated else m.hotGated ++ [lk] })
    else if d.mgmt.heldHot.contains lk && decide (v + 40 ≤ warnOf d code) then
      let own := d.mgmt.hotGated.contains lk
      let d := d.modMgmt (fun m => { m with
        heldHot := m.heldHot.filter (fun x => !(x == lk)), hotGated := m.hotGated.filter (fun x => !(x == lk)) })
      if own then (ungateAsk e d lk none).getD d else d
    else d
  else if crit && (d.mgmt.hot.find? t).isNone then
    let d := d.modMgmt (fun m => { m with hot := m.hot.set t d.now })
    ((logicLayers d).filter (fun x => x / 256 == t && !d.mgmt.gated.contains x)).foldl (fun d x =>
      let v := vfBlock d (vfKey x)
      let old := v.point
      if old = 0 ∧ (v.goal.map (·.1)).getD 0 = 0 then d else throttleEntry e (moveTo d (vfKey x) 0) x 2 old 0) d
  else d

/-- X0 or P of a tower stands at CRIT. -/
def towerCrit (d : Dev) (t : Nat) : Bool :=
  d.mgmt.temps.any (fun p => p.1 / 256 == t && (p.1 % 8 == 0 || p.1 % 8 == 3) && decide (critOf d (p.1 % 8) ≤ p.2))

/-- `SENSOR_SAMPLE`. -/
def execSensorSample (p : Ev.Sensors) (s : State) : Host.Outcome State Fault Refusal :=
  s.run (fun e d =>
    let ts := p.temps.filter (fun x => decide (x.1 < 448))
    let d := d.modMgmt (fun m =>
      let temps := ts.foldl (fun (a : SMap Int) x => a.set (layerKey (x.1 / 7) (x.1 % 7)) (BitVec.ofNat 16 x.2).toInt) m.temps
      let all := temps.map (·.2)
      { m with
        temps := temps, pwr := p.power % 1024, cur := p.current % 1024
        tmax := match all with
          | [] => m.tmax
          | x :: r => r.foldl max x })
    let d := ts.foldl (fun d x => heat e d (layerKey (x.1 / 7) (x.1 % 7))) d
    d.modMgmt (fun m => { m with hot := m.hot.filter (fun x => towerCrit d x.1) }))

/-- A tower has stood at CRIT for 1 ms. -/
def tooHot (d : Dev) (t : Nat) : Bool :=
  match d.mgmt.hot.find? t with
  | some c => decide (c + d.ns 1000000 ≤ d.now)
  | none => false

/-- `THERMAL_POWER_DOWN`: the tower's groups end with HWERR and the package powers down. -/
def execThermalPowerDown (p : Ev.Tower) (s : State) : Host.Outcome State Fault Refusal :=
  let e := s.env
  let d := s.dev
  if !tooHot d p.tower then .next s
  else
    -- R381 lists no SRC for this end: a free value (log 44).
    let src := fieldN (Config.freeValue d.free) 0 4
    let code := if d.mgmt.temps.any (fun x => x.1 / 256 == p.tower && x.1 % 8 == 3 && decide (critOf d 3 ≤ x.2)) then 3 else 0
    let d : Dev := { d with free := d.free + 1 }
    let d := d.groups.foldl (fun d g => if g.2.core / 64 = p.tower ∧ !g.2.killed then hwerr e d g.1 src code 0 else d) d
    .next { env := { e with off := true }, dev := d.msi 70 }

/-! ### Counters (R441, R442) -/

/-- The GDDR 7 channel of a line, numbered through both towers: T × 32 + G (R102, R113). -/
def gddrChannel (pa : Nat) : Nat := homeTower pa * 32 + ((pa / 2 ^ 7 % 32) ^^^ (pa / 2 ^ 20 % 32))

/-- `GDDR_TRANSFER_ERROR`, at the channel in which the line lives; the memory-IO supply of the snapshot is a free value
(log 44). -/
def execGddrTransferError (p : Ev.GddrError) (s : State) : Host.Outcome State Fault Refusal :=
  s.run (fun e d =>
    let g := gddrChannel (p.line * 128)
    let k := p.kind % 5
    let snap := [BitVec.ofNat 64 (e.hb (g / 32)),
      BitVec.ofNat 64 (fieldN (Config.freeValue d.free) 0 12 + (vfBlock d (g * 4)).mv % 2 ^ 12 * 2 ^ 12 + tempCode (tempOf d (layerKey g 0)) * 2 ^ 24),
      BitVec.ofNat 64 (p.line * 128)]
    if p.channel ≠ g then d
    else
      let d : Dev := { d with free := d.free + 1 }
      let d := d.modMgmt (fun m => { m with
        gddr := m.gddr.set (g * 8 + k) (min 0xFFFFFFFF (m.gddr.get (g * 8 + k) 0 + 1))
        gddrSnap := m.gddrSnap.set (g * 8 + k) snap })
      if k = 4 ∨ p.uncorrectable then loseLine e d (p.line * 128) 1 else d)

/-- Layer code of a SLAST unit. -/
def unitCode (u : Nat) : Nat := if u < 2 then 3 + u else 1 + u

/-- One mismatch of a column's unit; the sixteenth of a matrix layer within a second marks it failed. -/
def mismatch (e : Env) (d : Dev) (x : Nat × Nat) : Dev :=
  let (k, u) := x
  let lk := layerKey k (unitCode u)
  let v := vfBlock d (vfKey lk)
  let d := d.modMgmt (fun m => { m with
    sva := if u = 0 then m.sva.set k ((m.sva.get k 0 + 1) % 2 ^ 16) else m.sva
    svb := if u = 1 then m.svb.set k ((m.svb.get k 0 + 1) % 2 ^ 16) else m.svb
    smx := if u ≥ 2 then m.smx.set k ((m.smx.get k 0 + 1) % 2 ^ 16) else m.smx
    slast := m.slast.set k [BitVec.ofNat 64 (e.hb (k / 32)), BitVec.ofNat 64 (u % 8 + v.mv % 1024 * 2 ^ 3 + v.mhz % 4096 * 2 ^ 13)] })
  if u < 2 then d
  else
    let old := (d.mgmt.smiss.get lk []).filter (fun c => decide (d.now < c + d.ns 1000000000))
    let d := d.modMgmt (fun m => { m with smiss := m.smiss.set lk (old ++ [d.now]) })
    if old.length + 1 ≥ 16 ∧ !d.mgmt.failed.contains lk then
      let d := d.modMgmt (fun m => { m with failed := m.failed ++ [lk] })
      engineReenter (throttleEntry e (setWhy d lk 6 true) lk (2 ^ 6) v.point 0) k
    else d

/-- `SENTINEL_RUN`. -/
def execSentinelRun (p : Ev.Sentinel) (s : State) : Host.Outcome State Fault Refusal :=
  s.run (fun e d =>
    let ks := (List.range 64).filter (fun k => !(d.tower (k / 32)).gone.contains (k % 32))
    let d := d.modMgmt (fun m => ks.foldl (fun (m : Mgmt) k =>
      if p.skipped.contains k then { m with sskips := m.sskips.set k ((m.sskips.get k 0 + 1) % 2 ^ 32) }
      else { m with sruns := m.sruns.set k ((m.sruns.get k 0 + 1) % 2 ^ 32) }) m)
    (p.bad.filter (fun x => ks.contains x.1 && !p.skipped.contains x.1 && decide (x.2 < 6))).foldl (mismatch e) d)

/-- A read that clears: the host's data, or data on its way to a warp (R13). -/
def readReturn (d : Dev) (p : Ev.ReadClear) (v : DWord) : Dev :=
  let x := v.toNat / 2 ^ p.lo % 2 ^ p.bits
  let y := if p.sx ∧ x.testBit (p.bits - 1) then 2 ^ 64 - 2 ^ p.bits + x else x
  if p.vec.isEmpty ∧ p.sca.isNone then { d with hostData := x, hostUr := false }
  else d.post (.loadReturn
    { core := p.core, slot := p.slot
      vec := p.vec.zipIdx.map (fun r => (r.1, BitVec.ofNat 32 (y / 2 ^ (32 * r.2))))
      sca := match p.sca with
        | some r => [(r, BitVec.ofNat 64 x)]
        | none => [] })

/-- The read touches the field of `w` bits at `lo`. -/
def Ev.ReadClear.takes (p : Ev.ReadClear) (lo w : Nat) : Bool := decide (p.lo < lo + w ∧ lo < p.lo + p.bits)

/-- `FLIPS_READ`. -/
def execFlipsRead (p : Ev.ReadClear) (s : State) : Host.Outcome State Fault Refusal :=
  s.run (fun _ d =>
    let h := d.head p.idx
    let d := readReturn d p (BitVec.ofNat 64 (h.flips + h.drops * 2 ^ 32))
    d.modHead p.idx (fun h => { h with
      flips := if Ev.ReadClear.takes p 0 32 then 0 else h.flips, drops := if Ev.ReadClear.takes p 32 32 then 0 else h.drops }))

/-- `GDDR_COUNTER_READ`. -/
def execGddrCounterRead (p : Ev.ReadClear) (s : State) : Host.Outcome State Fault Refusal :=
  s.run (fun _ d =>
    let k := p.idx * 8 + p.off / 8
    let d := readReturn d p (BitVec.ofNat 64 (d.mgmt.gddr.get k 0))
    if Ev.ReadClear.takes p 0 32 then d.modMgmt (fun m => { m with gddr := m.gddr.erase k }) else d)

/-- `SENTINEL_COUNTER_READ`. -/
def execSentinelCounterRead (p : Ev.ReadClear) (s : State) : Host.Outcome State Fault Refusal :=
  s.run (fun _ d =>
    let k := p.idx
    let m := d.mgmt
    if p.off = 0 then
      (readReturn d p (BitVec.ofNat 64 (m.sruns.get k 0 + m.sskips.get k 0 * 2 ^ 32))).modMgmt (fun m => { m with
        sruns := if Ev.ReadClear.takes p 0 32 then m.sruns.erase k else m.sruns
        sskips := if Ev.ReadClear.takes p 32 32 then m.sskips.erase k else m.sskips })
    else
      (readReturn d p (BitVec.ofNat 64 (m.sva.get k 0 + m.svb.get k 0 * 2 ^ 16 + m.smx.get k 0 * 2 ^ 32))).modMgmt (fun m => { m with
        sva := if Ev.ReadClear.takes p 0 16 then m.sva.erase k else m.sva
        svb := if Ev.ReadClear.takes p 16 16 then m.svb.erase k else m.svb
        smx := if Ev.ReadClear.takes p 32 16 then m.smx.erase k else m.smx }))

/-! ### Attestation (R431, R433) -/

/-- `ATTESTATION_REQUEST`: ignored while a report is on its way. -/
def execAttestationRequest (s : State) : Host.Outcome State Fault Refusal :=
  s.run (fun _ d => if d.mgmt.attBusy then d else d.modMgmt (fun m => { m with attBusy := true, attNonce := m.nonce }))

/-- `ATTESTATION_COMPLETE`: three measurements, the nonce, the signature, and the interrupt. -/
def execAttestationComplete (s : State) : Host.Outcome State Fault Refusal :=
  s.run (fun _ d =>
    if !d.mgmt.attBusy then d
    else (d.modMgmt (fun m => { m with
      attBusy := false, signed := true, report := (List.range 12).map Config.measurement ++ m.attNonce })).msi 69)

/-! ### Power and time (R138, R425, R429) -/

/-- The physical site of a logical column in the blob's map, and its spare sites (R3, R430; log 42). -/
def blobSite (t c : Nat) : Nat := Config.blobField (8192 + 64 * t + c) % 34
def spareSite (t i : Nat) : Nat := Config.blobField (8192 + 64 * t + 32 + i) % 34

/-- A spare site takes the logical number of a column (R4). -/
def useSpare (t c : Nat) (x : Tower) : Tower :=
  { x with
    spares := x.spares - 1, sites := x.sites.set c (spareSite t (2 - x.spares)), badSites := x.badSites ++ [x.sites.get c 0] }

/-- The bank of the highest home number takes a lost bank's number (R102). -/
def compactHomes (hs : List Nat) (b : Nat) : List Nat :=
  match hs.getLast? with
  | none => []
  | some z => (hs.map (fun x => if x = b then z else x)).dropLast

/-- A bank is lost without a spare: the home-bank numbers are compacted, and the throttle log takes the lost bank and
the bank that moved (R102). -/
def loseBank (e : Env) (d : Dev) (t b : Nat) : Dev :=
  let hs := (d.tower t).homes
  let moved := (hs.getLast?).getD b
  let d := throttleEntry e d (layerKey (t * 32 + b / 2) (1 + b % 2)) 0 0 0
  let d := d.modTower t (fun x => { x with homes := compactHomes hs b, lostBanks := x.lostBanks ++ [b] })
  throttleEntry e d (layerKey (t * 32 + moved / 2) (1 + moved % 2)) 0 0 0

/-- A bus that fails bring-up's self-test (R4): a spare site, one for both buses of a column, takes the column's number;
with none left, the column is disabled with the bank.  `swapped` are the columns that a spare has taken. -/
def harvestBus (e : Env) (t : Nat) (x : Dev × List Nat) (b : Nat) : Dev × List Nat :=
  let (d, swapped) := x
  let c := b / 2
  if swapped.contains c then x
  else if (d.tower t).spares > 0 ∧ !(d.tower t).gone.contains c then (d.modTower t (useSpare t c), swapped ++ [c])
  else
    let d := loseBank e d t b
    (if (d.tower t).gone.contains c then d else d.modTower t (fun x => { x with gone := x.gone ++ [c] }), swapped)

/-- What step 2 loads from the configuration blob beside the VF points: the board maker's limits and levels, and the
column map (R3, R14, R430, R432, R435; log 42). -/
def blobLoad (d : Dev) : Dev :=
  let codes := List.range 7
  let d := d.modMgmt (fun m => { m with
    pwrLim := Config.blobOr 4097 500 % 1024, curLim := Config.blobOr 4098 400 % 1024, pwrMax := Config.blobOr 4099 680 % 1024
    warn := codes.map (fun n => (n, Config.blobOr (4100 + n) 0x02F8 % 65536))
    crit := codes.map (fun n => (n, Config.blobOr (4108 + n) 0x0348 % 65536))
    vf := (List.range 256).map (fun k => (k, { vfBlock d k with
      vmax := Config.blobOr (4352 + 2 * k) 480 % 1024, fmax := Config.blobOr (4353 + 2 * k) 3400 % 4096 })) })
  [0, 1].foldl (fun d t => d.modTower t (fun x => { x with sites := (List.range 32).map (fun c => (c, blobSite t c)) })) d

/-- Step 1: every domain ramps to the boot point of the blob. -/
def bootRamp (d : Dev) : Dev :=
  let boot := Config.blobField 4096 % 16
  d.modMgmt (fun m => { m with vf := (List.range 256).map (fun k =>
    (k, { vfBlock d k with point := boot, mv := (pointMv d k boot).toNat % 1024, mhz := pointMhz d k boot })) })

/-- Step 3: the buses that fail self-test are harvested, and the enabled columns counted (R4). -/
def bootHarvest (e : Env) (d : Dev) : Dev :=
  let bad (t : Nat) : List Nat := (List.range 64).filter (fun b => (d.opt (8 + t)).testBit b)
  let d := [0, 1].foldl (fun d t => ((bad t).foldl (harvestBus e t) (d, [])).1) d
  let en (t : Nat) : Nat := 32 - (d.tower t).gone.length
  d.modMgmt (fun m => { m with en0 := en 0, en1 := en 1 })

/-- `POWER_ON`: steps 1 to 5 of R429 in their order, each with its effect only if the steps before it are done; a step that
fails asserts the fault output.  Choice 7 names a step of 1, 2, 4 and 5 that fails (of step 2, the images' verification
under the boot ROM's key), choices 8 and 9 the buses of each tower that fail self-test (log 40). -/
def execPowerOn (s : State) : Host.Outcome State Fault Refusal :=
  let e := s.env
  let d := s.dev
  let halt (k : Nat) (d : Dev) : Host.Outcome State Fault Refusal :=
    .next { env := { e with step := k - 1, failStep := k, off := true, fault := true }, dev := d }
  if e.step ≠ 0 ∨ e.off then .next s
  else if d.opt 7 = 1 then halt 1 d
  else
    let d1 := bootRamp d
    if d.opt 7 = 2 then halt 2 d1
    else
      let d2 := (blobLoad d1).modMgmt (fun m => { m with identity := true })
      let d3 := bootHarvest e d2
      if d3.mgmt.en0 = 0 ∨ d3.mgmt.en1 = 0 then halt 3 d3
      else if d.opt 7 = 4 ∨ d.opt 7 = 5 then halt (d.opt 7) d3
      else .next { env := { e with step := 5 }, dev := d3 }

/-- `HOST_RELEASES_RESET`: step 6 completes, and steps 7 to 9 follow; bring-up goes on unlocked. -/
def execHostReleasesReset (s : State) : Host.Outcome State Fault Refusal :=
  let e := s.env
  if e.step ≠ 5 ∨ e.off then .next s
  else .next { s with env := { e with
    step := 9, ready := true, clk := { e.clk with running := true, nextTick := s.dev.now + s.dev.ns Config.tickNs, lastTick := s.dev.now } } }

/-- `HEARTBEAT_TICK`: both towers' counts advance by one; the period follows the discipline, and the part of a cycle that
it leaves is carried on (log 5). -/
def execHeartbeatTick (s : State) : Host.Outcome State Fault Refusal :=
  let c := s.env.clk
  if !c.running then .next s
  else
    let part : Int := c.part + Config.tickNs * s.dev.rate * (1000000 + c.ppm)
    let n := part / 1000000000
    .next { s with env := { s.env with clk := { c with
      hb0 := (c.hb0 + 1) % 2 ^ 64, hb1 := (c.hb1 + 1) % 2 ^ 64, part := part - n * 1000000000
      nextTick := (s.dev.now + n : Int).toNat, lastTick := s.dev.now } } }

/-- `TIME_SYNC`: port 0 disciplines the heartbeat, or port 1 while port 0 has no grandmaster; the last period
stays when lock is lost. -/
def execTimeSync (p : Ev.TimeSync) (s : State) : Host.Outcome State Fault Refusal :=
  let g := s.dev.eth.grandmaster
  let g' := if p.port > 1 then g else g - b2n (g.testBit p.port) * 2 ^ p.port + b2n p.locked * 2 ^ p.port
  let use := p.locked && (p.port == 0 || (p.port == 1 && !g'.testBit 0))
  .next {
    env := { s.env with
      locked := decide (g' ≠ 0)
      clk := if use then { s.env.clk with ppm := max (-200) (min 200 p.ppm) } else s.env.clk }
    dev := { s.dev with eth := { s.dev.eth with grandmaster := g' } } }

/-! ### The cache dies and the loop fabric (R111, R112, R115) -/

/-- `READ_COUNT_WINDOW`. -/
def execReadCountWindow (p : Ev.Bank) (s : State) : Host.Outcome State Fault Refusal :=
  s.run (fun _ d => d.modTower (p.bank / 64) (fun t => { t with
    lines := t.lines.map (fun l => if t.bankOf l.1 = p.bank % 64 then (l.1, { l.2 with reads := 0 }) else l)
    windows := t.windows.set (p.bank % 64) (d.now / 1024) }))

/-- A replica of a line is placed in a bank (R111). -/
def replicate (line : Nat) (t : Tower) (bank : Nat) : Tower :=
  match t.place bank with
  | none => t
  | some (t, w) => { t with lines := t.lines.modify line (fun m => { m with replicas := m.replicas ++ [(bank, w)] }) }

/-- The banks that take copies of the lines of a bank: those of the same die 8, 16 and 24 columns on (R111). -/
def replicaBanks (b : Nat) : List Nat := [8, 16, 24].map (fun n => (b / 2 + n) % 32 * 2 + b % 2)

/-- Some bank can take a copy of a line. -/
def replicaRoom (t : Tower) (line : Nat) : Bool := (replicaBanks (t.bankOf line)).any (fun b => (t.place b).isSome)

/-- `LINE_REPLICATION`. -/
def execLineReplication (p : Ev.Line) (s : State) : Host.Outcome State Fault Refusal :=
  s.run (fun _ d => d.modTower (p.bank / 64) (fun t =>
    match t.lines.find? p.line with
    | none => t
    | some m =>
      let b := p.bank % 64
      if m.ro && decide (m.reads ≥ 256) && m.replicas.isEmpty && t.bankOf p.line == b then
        (replicaBanks b).foldl (replicate p.line) t
      else t))

/-- `LOOP_PORT_POWER_DOWN`. -/
def execLoopPortPowerDown (p : Ev.Station) (s : State) : Host.Outcome State Fault Refusal :=
  s.run (fun _ d => d.modTower (p.bank / 64) (fun t =>
    if t.portDown.contains (p.bank % 64) || decide (d.now < t.portIdle.get (p.bank % 64) 0 + 4096) then t
    else { t with portDown := t.portDown ++ [p.bank % 64] }))

/-- `LOOP_PORT_WAKE`. -/
def execLoopPortWake (p : Ev.Station) (s : State) : Host.Outcome State Fault Refusal :=
  s.run (fun _ d => d.modTower (p.bank / 64) (fun t =>
    match t.portWait.find? (p.bank % 64) with
    | none => t
    | some c =>
      if d.now < c + 32 then t
      else { t with
        portDown := t.portDown.filter (fun x => !(x == p.bank % 64)), portWait := t.portWait.erase (p.bank % 64)
        portIdle := t.portIdle.set (p.bank % 64) d.now }))

/-- The lines over a die's budget written back, least recently used first. -/
def writeBack (die : Nat) : Nat → Tower → Tower
  | 0, t => t
  | n + 1, t => match lruLine (t.dirtyOn die) with
    | none => t
    | some k => writeBack die n { t with lines := t.lines.modify k (fun m => { m with dirty := false }) }

/-- `DIRTY_BUDGET_WRITEBACK`. -/
def execDirtyBudgetWriteback (p : Ev.Die) (s : State) : Host.Outcome State Fault Refusal :=
  s.run (fun _ d =>
    let die := p.layer - 1
    d.modTower p.tower (fun t => writeBack die ((t.dirtyOn die).length - dirtyBudget d p.tower die) t))

/-! ### Shutdown of a cache die, and retirement of a bus (R116, R117, R360) -/

/-- Space in the emergency area (R114, R118). -/
def emergTake (d : Dev) (n : Nat) : Dev × Nat := ({ d with emerg := d.emerg + n }, Config.gddrBytes - emergencyBytes + d.emerg)

/-- The slots of bound rings whose place satisfies `f` of the bank: launch, ring key, slot. -/
def slotsIn (d : Dev) (t : Nat) (f : Nat → Bool) : List (Nat × Nat × Nat) :=
  d.launches.flatMap (fun p =>
    if p.2.finished then []
    else p.2.rings.flatMap (fun q =>
      if q.2.tower ≠ t then []
      else (q.2.places.zipIdx.filter (fun x => f x.1.1 && (q.2.moved.find? x.2).isNone && !q.2.lost.contains x.2)).map
        (fun x => (p.1, q.1, x.2))))

/-- The tiles that stand in a slot. -/
def tilesIn (d : Dev) (x : Nat × Nat × Nat) : List (Nat × RTile) :=
  (d.launch x.1).rts.filter (fun q => tkP q.1 == x.2.1 / 2 && q.2.place == .slot (x.2.1 % 2) x.2.2)

/-- A FREE slot that a moved one can take: of a ring of its context in its tower, in one of some banks, the first that is
large enough (R117; log 89). -/
def freeSlotIn (d : Dev) (ctx t : Nat) (banks : List Nat) (bytes : Nat) : Option (Nat × Nat × Nat) :=
  (slotsIn d t banks.contains).find? (fun y =>
    let l := d.launch y.1
    l.ctx == ctx && decide (bytes ≤ (l.resD (y.2.1 / 2)).slotbytes) &&
      ((l.rings.find? y.2.1).map (fun g => !g.used.contains y.2.2)).getD false)

/-- A slot takes the lowest free space in one of some banks; else, when the resource has an overflow area and it
comes before, the slot is gone; else, of an evacuated bank, it takes a FREE slot of the context, whose ring is then one
shorter; else it moves to the emergency area (R116, R117; log 89). -/
def rebind (d : Dev) (x : Nat × Nat × Nat) (banks : List Nat) (ovf : Bool) : Dev :=
  let (lid, rk, n) := x
  let l := d.launch lid
  let r := l.resD (rk / 2)
  let t := rk % 2
  let ways := (d.tower t).ways.get l.ctx []
  let space := banks.findSome? (fun b => (lowestSpace (bankUsed d l.ctx t b) r.slotbytes (ways.length * 2 ^ 19)).map (fun a => (b, a)))
  let set (d : Dev) (f : Ring → Ring) : Dev := d.modLaunch lid (fun l => { l with rings := l.rings.modify rk f })
  match space with
  | some (b, a) => set d (fun g => { g with places := g.places.set n (b, a, ways) })
  | none =>
    if ovf && r.overflow then set d (fun g => { g with lost := g.lost ++ [n], used := g.used.filter (fun y => !(y == n)) })
    else match (if ovf || (tilesIn d x).isEmpty then none else freeSlotIn d l.ctx t banks r.slotbytes) with
      | some y =>
        let pl := (((d.launch y.1).rings.find? y.2.1).bind (fun g => g.places[y.2.2]?)).getD (0, 0, [])
        let d := d.modLaunch y.1 (fun l => { l with rings := l.rings.modify y.2.1 (fun g => { g with lost := g.lost ++ [y.2.2] }) })
        set d (fun g => { g with places := g.places.set n pl })
      | none =>
        let (d, pa) := emergTake d r.slotbytes
        set d (fun g => { g with moved := g.moved.set n pa })

/-- The output of a running producer takes a new location (R360, point 5; log 89). -/
def newPlace (d : Dev) (lid k : Nat) : Dev :=
  let l := d.launch lid
  let t := (l.homeOf k).getD 0
  let (d, pl) : Dev × Place := match l.freeSlot (tkP k) t with
    | some p => (d, p)
    | none =>
      let (d, pa) := emergTake d (l.resD (tkP k)).slotbytes
      (d, .emerg pa)
  d.modLaunch lid (fun l => (l.takePlace k pl).setRt k (fun x => { x with st := .writing, lost := true }))

/-- Lines that could not be preserved are entered with SRC 2 (R116, step 5): those whose bits choice 4 sets. -/
def unpreserved (e : Env) (d : Dev) (ds : List (Nat × LineMeta)) : Dev :=
  (ds.zipIdx.filter (fun x => (d.opt 4).testBit x.2)).foldl (fun d x => loseLine e d (x.1.1 * 128) 2) d

/-- `CACHE_LAYER_SHUTDOWN` (R116). -/
def execCacheLayerShutdown (p : Ev.Die) (s : State) : Host.Outcome State Fault Refusal :=
  s.run (fun e d =>
    let t := p.tower
    let die := p.layer - 1
    let tw := d.tower t
    if tw.dieOff.contains p.layer then d
    else
      let other := tw.dieOff.contains (3 - p.layer)
      let ds := tw.dirtyOn die
      let slots := slotsIn d t (fun b => b % 2 == die)
      let held := slots.map (fun x => (x, tilesIn d x))
      let d := flushCount d (ds.map (·.1))
      let d := d.modTower t (fun x => { x with
        dieOff := x.dieOff ++ [p.layer]
        lines := (x.lines.filter (fun l => !(x.bankOf l.1 % 2 == die))).map (fun l =>
          (l.1, { l.2 with replicas := l.2.replicas.filter (fun r => !(r.1 % 2 == die)) }))
        homes := if other then x.homes else x.homes.map (fun b => if b % 2 = die then b / 2 * 2 + (1 - die) else b)
        ringMem := x.ringMem.filter (fun m => !(m.1 / 2 ^ 23 % 2 == die)) })
      let d := slots.foldl (fun d x =>
        let b := (((d.launch x.1).rings.find? x.2.1).bind (fun g => g.places[x.2.2]?)).map (·.1) |>.getD 0
        let mate := b / 2 * 2 + (1 - die)
        let rest := (d.tower t).homes.filter (fun y => y % 2 == 1 - die && y != mate)
        rebind d x (if other then [] else mate :: rest.eraseDups) true) d
      let d := held.foldl (fun d x => x.2.foldl (fun d q =>
        let d := loseTile 65 d x.1.1 q.1
        if q.2.st = .writing then newPlace d x.1.1 q.1 else d) d) d
      throttleEntry e (unpreserved e (ringLost d) ds) (layerKey (t * 32) p.layer) 0 0 0)

/-- A slot's bytes before a move. -/
def slotBytes (d : Dev) (x : Nat × Nat × Nat) : List (Nat × Byte) :=
  let l := d.launch x.1
  match (l.rings.find? x.2.1).bind (fun g => g.places[x.2.2]?) with
  | none => []
  | some (b, off, ways) =>
    (List.range (l.resD (x.2.1 / 2)).slotbytes).map (fun i => (i, (d.tower (x.2.1 % 2)).ringMem.read (slotKey b ways (off + i))))

/-- The bytes stand in the slot's new location. -/
def slotFill (d : Dev) (x : Nat × Nat × Nat) (bs : List (Nat × Byte)) : Dev :=
  let l := d.launch x.1
  match l.rings.find? x.2.1 with
  | none => d
  | some g => match g.moved.find? x.2.2 with
    | some pa => { d with mem := bs.foldl (fun m b => m.write (pa + b.1) b.2) d.mem }
    | none =>
      let (b, off, ways) := (g.places[x.2.2]?).getD (0, 0, [])
      d.modTower (x.2.1 % 2) (fun t => { t with ringMem := bs.foldl (fun m y => m.write (slotKey b ways (off + y.1)) y.2) t.ringMem })

/-- The slots of a bank that may move now: a slot in WRITING waits for its producer (R117). -/
def evacMoves (d : Dev) (t bank : Nat) : List (Nat × Nat × Nat) :=
  (slotsIn d t (· == bank)).filter (fun x => !(tilesIn d x).any (fun q => q.2.st == .writing))

/-- An evacuation has a step to take; a shutdown that strikes the column comes first (R118). -/
def evacReady (d : Dev) (t bank : Nat) : Bool :=
  (d.tower t).evac.contains bank && !d.agenda.any (fun x => match x with
    | .cacheLayerShutdown q => q.tower == t
    | _ => false) && (!(evacMoves d t bank).isEmpty || (slotsIn d t (· == bank)).isEmpty)

/-- The last step of an evacuation: a spare site takes the bank's number, or the numbers are compacted. -/
def evacEnd (e : Env) (d : Dev) (t bank : Nat) : Dev :=
  let tw := d.tower t
  let lk := layerKey (t * 32 + bank / 2) (1 + bank % 2)
  let d := throttleEntry e (d.modTower t (fun x => { x with evac := x.evac.filter (fun y => !(y == bank)) })) lk 0 0 0
  if tw.spares > 0 then d.modTower t (fun x => { useSpare t (bank / 2) x with respare := x.respare ++ [bank / 2] })
  else
    let hs := compactHomes tw.homes bank
    let moved := (tw.homes.getLast?).getD bank
    let d := d.modTower t (fun x => { x with
      homes := hs, lostBanks := x.lostBanks ++ [bank]
      lines := x.lines.filter (fun l => x.bankOf l.1 == ({ x with homes := hs } : Tower).bankOf l.1) })
    let d := throttleEntry e d (layerKey (t * 32 + moved / 2) (1 + moved % 2)) 0 0 0
    d.modMgmt (fun m => { m with job := m.job.map (fun j => if j.1 = 3 ∧ j.2.1 = t * 64 + bank then (j.1, j.2.1, 3) else j) })

/-- `BUS_EVACUATION` (R117). -/
def execBusEvacuation (p : Ev.Bank) (s : State) : Host.Outcome State Fault Refusal :=
  s.run (fun e d =>
    let t := p.bank / 64
    let bank := p.bank % 64
    if !evacReady d t bank then d
    else
      let d := d.modTower t (fun x => { x with lines := (x.lines.filter (fun l => !(x.bankOf l.1 == bank))).map (fun l =>
        (l.1, { l.2 with replicas := l.2.replicas.filter (fun r => r.1 != bank) })) })
      let banks := ((d.tower t).homes.eraseDups).filter (fun b => b != bank && !(d.tower t).evac.contains b)
      let d := (evacMoves d t bank).foldl (fun d x =>
        let bs := slotBytes d x
        slotFill (rebind d x banks false) x bs) d
      if (slotsIn d t (· == bank)).isEmpty then evacEnd e d t bank else d)

/-- A retired column has no group left and its data is evacuated. -/
def removalReady (d : Dev) (t c : Nat) : Bool :=
  (d.tower t).retiring.contains c && !(d.tower t).evac.any (fun b => b / 2 == c) &&
    !d.groups.any (fun p => p.2.core / 2 == t * 32 + c)

/-- `COLUMN_REMOVAL` (R4): the column goes, or a spare site carries its number. -/
def execColumnRemoval (p : Ev.Column) (s : State) : Host.Outcome State Fault Refusal :=
  s.run (fun _ d =>
    let t := p.tower
    let c := p.column
    if !removalReady d t c then d
    else
      let spare := (d.tower t).respare.contains c
      let d := d.modTower t (fun x => { x with
        retiring := x.retiring.filter (fun y => !(y == c)), respare := x.respare.filter (fun y => !(y == c))
        gone := if spare then x.gone else x.gone ++ [c] })
      let k := t * 32 + c
      let d := (d.modCore (k * 2) (fun _ => { cycle0 := d.now })).modCore (k * 2 + 1) (fun _ => { cycle0 := d.now })
      let d := d.modCol k (fun _ => {})
      if spare then d
      else d.modMgmt (fun m => { m with en0 := if t = 0 then m.en0 - 1 else m.en0, en1 := if t = 1 then m.en1 - 1 else m.en1 }))

end Sys2Proof.Machine
end

