-- ==== Sys2Proof/Machine/Links.lean ====
section
/-! DEFINITION.  What reaches the device from outside: registers written through BAR0 (R413 to R422), the
submission queues (R418 to R420), BAR2 and AtomicOps (R412, R414), the releases of the fault buffers (R98), UCIe
(R424), Ethernet (R425, R366) and the display heads (R427). -/

namespace Sys2Proof.Machine

/-! ### Register writes (R13, R417, R421, R422) -/

/-- The 64 bits of a register with the bytes of a write in place. -/
def mergeReg (old : DWord) (off size : Nat) (v : DWord) : DWord :=
  let sh := 8 * (off % 8)
  let m := BitVec.ofNat 64 ((2 ^ (8 * size) - 1) * 2 ^ sh)
  (old &&& ~~~m) ||| ((v <<< sh) &&& m)

/-- A write of a context block. -/
def ctxRegWrite (e : Env) (d : Dev) (p : Ev.RegWrite) (k r : Nat) : Dev :=
  let c := d.ctx k
  let idle := ctxIdle d k
  match r with
  | 0x00 =>
    let v := mergeReg (BitVec.ofNat 64 (b2n c.valid + b2n c.sys * 2)) p.off p.size p.value
    let valid := v.getLsbD 0
    let twin := d.ctxs.any (fun x => x.1 != k && x.2.valid && x.2.asid == c.asid)
    if !idle || (valid && twin) then violation e d p.off
    else d.modCtx k (fun c => { c with valid := valid, sys := v.getLsbD 1 })
  | 0x20 => d
  | 0x70 => d
  | _ => match ctxRegAt r with
    | none => d
    | some n =>
      let v := mergeReg (ctxGet c 0 n) p.off p.size p.value
      if (n = 0x40 ∨ n = 0x41) ∧ !idle then violation e d p.off
      else if sregBad n v then violation e d p.off
      else d.modCtx k (fun c => ctxSet c n v)

/-- A write of a queue's registers; one of an RO register is a violation. -/
def queueRegWrite (e : Env) (d : Dev) (p : Ev.RegWrite) (q r : Nat) : Dev :=
  let x := d.queue q
  match r with
  | 0x00 => d.modQueue q (fun x => { x with sqbase := mergeReg x.sqbase p.off p.size p.value &&& ~~~63#64 })
  | 0x08 =>
    let v := mergeReg (sqcfg { x with error := false }) p.off p.size p.value
    let n := fieldN v 0 5
    d.modQueue q (fun x => { x with
      log2sz := if 4 ≤ n ∧ n ≤ 16 then n else 4, enable := v.getLsbD 5, remote := v.getLsbD 6
      error := x.error && !v.getLsbD 7, asid := fieldN v 16 16 })
  | 0x18 => d.modQueue q (fun x => { x with cqbase := mergeReg x.cqbase p.off p.size p.value &&& ~~~15#64 })
  | 0x20 =>
    if p.off % 8 ≥ 4 then violation e d p.off
    else d.modQueue q (fun x => { x with cqhead := fieldN (mergeReg (BitVec.ofNat 64 x.cqhead) p.off p.size p.value) 0 32 })
  | _ => violation e d p.off

/-- An unmasked vector sends the message it held back (R415; log 37). -/
def msixFlush (d : Dev) (v : Nat) : Dev :=
  if d.msix.pending.contains v && !d.msix.fmask && !(d.msix.table.get v (0, 0x100000000)).2.getLsbD 32 then
    ({ d with msix := { d.msix with pending := d.msix.pending.filter (fun x => !(x == v)) } } : Dev).msi v
  else d

/-- A write of the management block. -/
def mgmtRegWrite (e : Env) (d : Dev) (p : Ev.RegWrite) (o : Nat) : Dev :=
  let w (old : DWord) : DWord := mergeReg old p.off p.size p.value
  if o = 0x0008 then
    let v := w (BitVec.ofNat 64 (d.mgmt.pwrLim + d.mgmt.curLim * 2 ^ 16))
    d.modMgmt (fun m => { m with pwrLim := max 300 (min m.pwrMax (fieldN v 0 10)), curLim := fieldN v 16 10 })
  else if o = 0x0018 then
    if p.off % 8 ≥ 3 then d
    else
    let v := w d.mgmt.cmd
    mgStart e d (fieldN v 0 3) { tower := fieldN v 13 1, layer := fieldN v 16 3, column := fieldN v 8 5 }
  else if 0x20 ≤ o ∧ o < 0x58 then
    let n := (o - 0x20) / 8
    d.modMgmt (fun m => { m with warn := m.warn.set n (fieldN (w (BitVec.ofNat 64 (m.warn.get n 0x02F8))) 0 16) })
  else if 0x1000 ≤ o ∧ o < 0x1020 then
    let n := (o - 0x1000) / 8
    d.modMgmt (fun m => { m with nonce := m.nonce.set n (w ((m.nonce[n]?).getD 0)) })
  else if 0x10000 ≤ o ∧ o < 0x20000 then
    let k := (o - 0x10000) / 0x100
    let r := o % 0x100
    if r < 0x80 then modVf d k (fun v => { v with pts := v.pts.set (r / 8) (w (vfpt d k (r / 8)) &&& 0x0FFF03FF) })
    else if r = 0x80 then
      modVf d k (fun v =>
        let x := w (BitVec.ofNat 64 (v.ofs + v.pmax * 2 ^ 8 + v.pmin * 2 ^ 12))
        { v with ofs := fieldN x 0 8, pmax := fieldN x 8 4, pmin := fieldN x 12 4 })
    else d
  else if o = 0x30000 then d.modMgmt (fun m => { m with throttle := m.throttle.clearLost (w 0) })
  else d

/-- A register write under its access code; an offset that no block assigns is a violation. -/
def regWrite (e : Env) (d : Dev) (p : Ev.RegWrite) : Dev :=
  let o := p.off / 8 * 8
  let w (old : DWord) : DWord := mergeReg old p.off p.size p.value
  if (regRead e d o).isNone then violation e d p.off
  else if o < 0x100000 then violation e d p.off
  else if o < 0x101000 then queueRegWrite e d p ((o - 0x100000) / 0x40) (o % 0x40)
  else if o = 0x200000 then { d with linkLog := d.linkLog.clearLost (w 0) }
  else if 0x201000 ≤ o ∧ o < 0x201400 then
    d.modHead ((o - 0x201000) / 0x100) (fun h => match o % 0x100 with
      | 0x00 => { h with surf := w h.surf }
      | 0x10 => { h with hcfg := w h.hcfg &&& 0x1FFFFF }
      | _ => h)
  else if 0x300000 ≤ o ∧ o < 0x310000 then ctxRegWrite e d p ((o - 0x300000) / 0x100) (o % 0x100)
  else if 0x1000000 ≤ o ∧ o < 0x1080000 then
    if o % 0x40000 = 0 then
      d.modTower ((o - 0x1000000) / 0x40000) (fun t => { t with
        fullcnt := (BitVec.ofNat 32 t.fullcnt &&& ~~~((w 0).extractLsb' 16 32)).toNat })
    else d
  else if 0x1800000 ≤ o ∧ o < 0x1880000 then
    if o % 0x40000 = 0 then
      d.modTower ((o - 0x1800000) / 0x40000) (fun t =>
        let clr (x lo : Nat) : Nat := (BitVec.ofNat 16 x &&& ~~~((w 0).extractLsb' lo 16)).toNat
        { t with wrerr := clr t.wrerr 16, reexec := clr t.reexec 32, succerr := clr t.succerr 48 })
    else d
  else if 0x1C00000 ≤ o ∧ o < 0x1C80000 then
    if o % 0x40000 = 0 then d.modTower ((o - 0x1C00000) / 0x40000) (fun t => { t with trapLog := t.trapLog.clearLost (w 0) }) else d
  else if 0x2000000 ≤ o ∧ o < 0x3000000 then mgmtRegWrite e d p (o - 0x2000000)
  else if 0x3FF0000 ≤ o ∧ o < 0x3FF0000 + 16 * 72 then
    let v := (o - 0x3FF0000) / 16
    let (a, c) := d.msix.table.get v (0, 0x100000000)
    let ent := if o % 16 = 0 then (w a &&& ~~~3#64, c) else (a, w c &&& 0x1FFFFFFFF)
    msixFlush { d with msix := { d.msix with table := d.msix.table.set v ent } } v
  else d

/-- `REGISTER_WRITE`. -/
def execRegisterWrite (p : Ev.RegWrite) (s : State) : Host.Outcome State Fault Refusal := s.run (fun e d => regWrite e d p)

/-- `ATTACH_WRITE` (R416). -/
def execAttachWrite (p : Ev.Write) (s : State) : Host.Outcome State Fault Refusal :=
  if p.idx % 8 ≠ 0 then .next s
  else
    let v := p.value.toNat % 256
    .next { env := { s.env with proto := v, attached := v == 1 }, dev := if v = 1 then s.dev else violation s.env s.dev 0x10 }

/-- `CTX_CSPLIT_WRITE` (R421). -/
def execCtxCsplitWrite (p : Ev.Write) (s : State) : Host.Outcome State Fault Refusal :=
  s.run (fun _ d =>
    let (d, st) := csplit d p.idx 3 (fieldN p.value 0 4)
    d.modCtx p.idx (fun c => { c with ctxst := BitVec.ofNat 64 st }))

/-! ### Submission queues (R418 to R420) -/

/-- The limits of R419 and the context of the queue's ASID. -/
def doorbellOk (d : Dev) (x : Queue) (t : Nat) : Bool :=
  let dist (a b : Nat) : Nat := (a + 2 ^ 32 - b) % 2 ^ 32
  (ctxOfAsid d x.asid).isSome && decide (dist t x.sqhead ≤ 2 ^ x.log2sz ∧ dist t x.sqtail ≤ 2 ^ x.log2sz)

/-- `SQ_DOORBELL`; the log's entry of a rejected one carries the number of the queue's next entry (log 76). -/
def execSqDoorbell (p : Ev.Write) (s : State) : Host.Outcome State Fault Refusal :=
  s.run (fun e d =>
    let q := p.idx
    let x := d.queue q
    let off := 0x100010 + 0x40 * q
    let t := fieldN p.value 0 32
    if !e.attached || !x.enable || x.remote then violation e d off
    else if doorbellOk d x t then d.modQueue q (fun x => { x with sqtail := t })
    else linkEntry e (d.modQueue q (fun x => { x with error := true })) 0 1 x.sqtail (BitVec.ofNat 64 off))

/-- A queue's next entry can be consumed (R416, R419). -/
def submitReady (e : Env) (d : Dev) (q : Nat) : Bool :=
  let x := d.queue q
  e.attached && x.sqhead != x.sqtail && (ctxOfAsid d x.asid).isSome &&
    decide ((x.cqtail + 2 ^ 32 - x.cqhead) % 2 ^ 32 + 2 ≤ 2 ^ (x.log2sz + 1)) && !towerFull d 0 && !towerFull d 1

/-- `SUBMISSION_CONSUME`: the launch record is read, checked, and accepted or refused; one that cannot be read is refused
with FETCH (R414; log 88). -/
def execSubmissionConsume (p : Ev.Queue) (s : State) : Host.Outcome State Fault Refusal :=
  s.run (fun e d =>
    let q := p.queue
    if !submitReady e d q then d
    else
      let x := d.queue q
      let n := x.sqhead
      let ctx := (ctxOfAsid d x.asid).getD 0
      let (d, got) := physIn e d ctx (x.sqbase.toNat + 64 * (n % 2 ^ x.log2sz)) 64
      let d := d.modQueue q (fun x => { x with sqhead := (n + 1) % 2 ^ 32 })
      match got with
      | none => complete e (noteRefused d (launchOf 0 ctx) 13) q n 1 13
      | some v =>
        let (reason, l) := loadCheck d ctx v 0
        if reason = 0 then finishLaunch e (complete e (acceptLaunch d l (some (q, n)) 0 v 0) q n 0 0) d.nextLaunch
        else complete e (noteRefused (if reason = 13 then loadFail e d ctx v 0 else d) l reason) q n 1 reason)

/-! ### BAR2 and AtomicOps (R412, R414) -/

/-- The physical address behind an access through BAR2; none outside BAR2 and GDDR 7. -/
def bar2Addr (d : Dev) (off n : Nat) : Option Nat :=
  let pa := d.bar2.toNat + off
  if 0 < n ∧ off + n ≤ 2 ^ d.bar2Size ∧ inGddr (pa + n - 1) then some pa else none

/-- An access that the device answers with Unsupported Request: a read of `n` bytes answers ones. -/
def hostRefuse (d : Dev) (n : Nat := 8) : Dev := { d with hostData := 2 ^ (8 * n) - 1, hostUr := true }

/-- A host access to a part of tower 1 crosses UCIe; with the link down the device answers that its request is lost
(R6, R424; log 76). -/
def hostLost (e : Env) (d : Dev) (pa n : Nat) : Dev := hostRefuse (lostRequest e d pa) n

/-- The lines of a host access, each with what it meets. -/
def bar2Fail (d : Dev) (k : AKind) (pa n : Nat) : Option MErr :=
  (lineParts pa n).findSome? (fun p =>
    if linkCut d 0 (pa + p.1) then some (.link (pa + p.1)) else if k = .write then none else readErr d (pa + p.1))

/-- What a failed host access leaves behind: the line is lost, the link's log, or nothing. -/
def bar2Note (e : Env) (d : Dev) (n : Nat) (x : MErr) : Dev :=
  match x with
  | .data src pa => hostRefuse (if src < 2 then loseLine e d pa src else d) n
  | .link pa => hostLost e d pa n
  | _ => hostRefuse d n

/-- `HOST_BAR2_ACCESS`: a request of at most 512 bytes of payload, or of 4,096 bytes to read (R412). -/
def execHostBar2Access (p : Ev.Bar2) (s : State) : Host.Outcome State Fault Refusal :=
  s.run (fun e d =>
    match (if p.size ≤ (if p.write then 512 else 4096) then bar2Addr d p.off p.size else none) with
    | none => hostRefuse d p.size
    | some pa => match bar2Fail d (if p.write then .write else .read) pa p.size with
      | some x => bar2Note e d p.size x
      | none =>
        let ps := lineParts pa p.size
        if p.write then
          { ps.foldl (fun d q => memWrite e d (pa + q.1) q.2 (p.value / 2 ^ (8 * q.1) % 2 ^ (8 * q.2)) {}) d with hostUr := false }
        else
          { ps.foldl (fun d q => noteRead d (pa + q.1) {}) d with hostData := d.mem.readN pa p.size, hostUr := false })

/-- `HOST_ATOMICOP`: FetchAdd, Swap or CAS of 4 or 8 bytes; the host receives the old value. -/
def execHostAtomicop (p : Ev.AtomicOp) (s : State) : Host.Outcome State Fault Refusal :=
  s.run (fun e d =>
    match bar2Addr d p.off p.size with
    | none => hostRefuse d p.size
    | some pa =>
      if (p.size ≠ 4 ∧ p.size ≠ 8) ∨ pa % p.size ≠ 0 ∨ p.op > 2 then hostRefuse d p.size
      else match bar2Fail d .atomic pa p.size with
        | some x => bar2Note e d p.size x
        | none =>
            let m := 2 ^ (8 * p.size)
            let old := d.mem.readN pa p.size
            let new := match p.op with
              | 0 => (old + p.a.toNat) % m
              | 1 => p.a.toNat % m
              | _ => if old = p.a.toNat % m then p.b.toNat % m else old
            { memWrite e (noteRead d pa {}) pa p.size new {} with hostData := old, hostUr := false })

/-! ### Host accesses beside these (R412, R413, R415, R417, R425) -/

/-- A host read of BAR0: a register that a read clears is cleared, and an offset that no block assigns is a violation. -/
def execHostRead (p : Ev.HostRead) (s : State) : Host.Outcome State Fault Refusal :=
  match regReadN s.env s.dev p.off p.size, regClears p.off { idx := 0, off := 0, lo := 8 * (p.off % 8), bits := 8 * p.size } with
  | none, _ => s.run (fun e d => violation e d p.off)
  | some _, some (.flipsRead q) => execFlipsRead q s
  | some _, some (.gddrCounterRead q) => execGddrCounterRead q s
  | some _, some (.sentinelCounterRead q) => execSentinelCounterRead q s
  | some v, _ => s.run (fun _ d => { regSawRead d p.off with hostData := v, hostUr := false })

/-- PCI configuration space and the management core's allow list (R412, R415, R425; logs 37, 46). -/
def execHostConfig (p : Ev.HostConfig) (s : State) : Host.Outcome State Fault Refusal :=
  s.run (fun _ d => match p.kind with
    | 0 => { d with bar2 := p.value }
    | 1 => { d with bar2Size := max 28 (min 37 p.value.toNat) }
    | 2 =>
      let d : Dev := { d with msix := { d.msix with fmask := p.value.getLsbD 0 } }
      d.msix.pending.foldl msixFlush d
    | 3 => d.modMgmt (fun m => { m with allow := m.allow.set (p.idx % 16) (fieldN p.value 0 48) })
    | _ => d)

/-- The block of BAR0 that a host access reaches, where it lies in tower 1 (R6, R413): the offset. -/
def hostFar (ev : Ev.Event) : Option Nat :=
  let off : Option Nat := match ev with
    | .registerWrite p => some p.off
    | .hostRead p => some p.off
    | .fbRelease p => some (0x1000008 + 0x40000 * p.tower)
    | .fbReleaseAll p => some (0x1000008 + 0x40000 * p.tower)
    | .fbAbort p => some (0x1000008 + 0x40000 * p.tower)
    | .lostLineEntryClear p => some (0x1030000 + 0x40000 * p.tower + 16 * p.index)
    | _ => none
  off.filter (fun o => regTower o == 1)

/-! ### Releases of a fault buffer (R98) -/

/-- The entries named that are valid. -/
def fbNamed (d : Dev) (t : Nat) (p : Nat → Bool) : List (Nat × FbEntry) := (d.tower t).fb.filter (fun x => p x.1)

/-- Batches and streams leave the entries of a tower that `ks` lists, and wait no longer for room in its buffer; those
with no entry left run again (R94, R95). -/
def unpark (d : Dev) (t : Nat) (ks : List Nat) : Dev :=
  let keep (es : List Nat) : List Nat := es.filter (fun k => !ks.contains k)
  let park (q : Park) : Park := match q with
    | .replay t' es _ => if t' = t then (if (keep es).isEmpty then .running else .replay t (keep es) false) else q
    | _ => q
  let spark (q : SPark) : SPark := match q with
    | .replay t' es _ => if t' = t then (if (keep es).isEmpty then .running else .replay t (keep es) false) else q
    | _ => q
  { d with
    warps := d.warps.map (fun w => (w.1, { w.2 with fib := w.2.fib.map (fun f => (f.1, { f.2 with park := park f.2.park })) }))
    groups := d.groups.map (fun g => (g.1, { g.2 with
      waits := g.2.waits.filter (fun x => !(x.1 == t && ks.contains x.2.1 && !x.2.2.bind))
      stream := g.2.stream.map (fun st => { st with park := spark st.park }) })) }

/-- Chunks of copies leave the entries of a tower that `ks` lists. -/
def unparkCopies (d : Dev) (t : Nat) (ks : List Nat) : Dev :=
  { d with cores := d.cores.map (fun c => (c.1, { c.2 with copies := c.2.copies.map (fun o =>
      let ws := o.2.waits.filter (fun w => !(w.2.2.1 == t && ks.contains w.2.2.2))
      (o.1, { o.2 with waits := ws, state := if ws.isEmpty ∧ o.2.state = .parked then .running else o.2.state })) })) }

/-- Whatever waits for room in a tower's buffer tries again (R95). -/
def fullRetry (e : Env) (d : Dev) (t : Nat) : Dev :=
  let d := unparkCopies (unpark d t []) t [Config.fbEntries]
  let ws := d.walking.filter (fun w => w.tower == t && w.entry == Config.fbEntries)
  let d : Dev := { d with walking := d.walking.filter (fun w => !(w.tower == t && w.entry == Config.fbEntries)) }
  let bs := bindWaiters d t Config.fbEntries
  bindRetry e (ws.foldl (fun d w => flushRun e d w) d) bs

/-- Entries are released: every waiter retries (R98). -/
def fbFree (e : Env) (d : Dev) (t : Nat) (ks : List Nat) : Dev :=
  let bs := ks.flatMap (bindWaiters d t)
  let ws := d.walking.filter (fun w => w.tower == t && ks.contains w.entry)
  let d : Dev := { d with walking := d.walking.filter (fun w => !(w.tower == t && ks.contains w.entry)) }
  let d := d.modTower t (fun x => { x with fb := x.fb.filter (fun p => !ks.contains p.1) })
  let d := unparkCopies (unpark d t ks) t ks
  fullRetry e (bindRetry e (ws.foldl (fun d w => flushRun e d w) d) bs) t

/-- The causes that the batches and the stream of a group receive from aborted entries: one for each batch. -/
def abortFrames (g : Group) (t : Nat) (ks : List Nat) : List Halt :=
  (g.waits.filter (fun w => w.1 == t && ks.contains w.2.1)).foldl (fun (acc : List Halt) w =>
    let h := w.2.2
    let same (x : Halt) : Bool := x.oslot == h.oslot && x.ostream == h.ostream && x.gpc == h.gpc &&
      (h.bind && x.bind || x.olanes == h.olanes && !x.bind && !h.bind)
    if acc.any same then acc.map (fun x => if same x then { x with olanes := x.olanes ||| h.olanes } else x) else acc ++ [h]) []

/-- Entries are aborted: every waiter receives the delivered cause (R98, R276, R403). -/
def fbAbort (e : Env) (d : Dev) (t : Nat) (ks : List Nat) : Dev :=
  let reason (k : Nat) : Nat := match (d.tower t).fb.find? k with
    | some f => 1 + f.reason
    | none => 1
  -- Copies stop with XLATE or PROT.
  let hits := d.cores.flatMap (fun c => c.2.copies.filterMap (fun o =>
    (o.2.waits.find? (fun w => w.2.2.1 == t && ks.contains w.2.2.2)).map (fun w => (c.1, o.1, reason w.2.2.2))))
  let d := hits.foldl (fun d h => copyStop d h.1 h.2.1 h.2.2) d
  -- Batches, streams and bind waits.
  let d := d.groups.foldl (fun d g =>
    let hs := abortFrames g.2 t ks
    hs.foldl (fun d h =>
      let mine (w : Nat × Nat × Halt) : Bool := w.2.2.oslot == h.oslot && w.2.2.ostream == h.ostream && w.2.2.gpc == h.gpc &&
        w.2.2.olanes &&& h.olanes == w.2.2.olanes
      let others := g.2.waits.filter (fun w => mine w && !(w.1 == t && ks.contains w.2.1) && decide (w.2.1 < Config.fbEntries))
      let d := others.foldl (fun d w => fbLeave d w.1 w.2.1) d
      let d := d.modGrp g.1 (fun g => { g with waits := g.waits.filter (fun w => !mine w), owed := g.owed ++ [h] })
      if h.ostream then d.modStream g.1 (fun st => { st with park := .halted })
      else d.modWarp g.2.core h.oslot (fun w => w.onLanes h.olanes (fun f => { f with park := .halted }))) d) d
  -- Walks of `CFLUSH`.
  let ws := d.walking.filter (fun w => w.tower == t && ks.contains w.entry)
  let d : Dev := { d with walking := d.walking.filter (fun w => !(w.tower == t && ks.contains w.entry)) }
  let d := ws.foldl (fun d w => d.modGrp w.reply.gid (fun g => { g with owed := g.owed ++ [w.frame] })) d
  let d := d.modTower t (fun x => { x with fb := x.fb.filter (fun p => !ks.contains p.1) })
  let d := fullRetry e d t
  d.groups.foldl (fun d g => owedDeliver e d g.1) d

/-- `FB_RELEASE`. -/
def execFbRelease (p : Ev.TowerEntry) (s : State) : Host.Outcome State Fault Refusal :=
  s.run (fun e d => match (fbNamed d p.tower (· == p.index)).map (·.1) with
    | [] => d
    | ks => fbFree e d p.tower ks)

/-- `FB_RELEASE_ALL`. -/
def execFbReleaseAll (p : Ev.Tower) (s : State) : Host.Outcome State Fault Refusal :=
  s.run (fun e d => match (fbNamed d p.tower (fun _ => true)).map (·.1) with
    | [] => d
    | ks => fbFree e d p.tower ks)

/-- `FB_ABORT`. -/
def execFbAbort (p : Ev.FbAbort) (s : State) : Host.Outcome State Fault Refusal :=
  s.run (fun e d => match (fbNamed d p.tower (fun k => p.all || k == p.index)).map (·.1) with
    | [] => d
    | ks => fbAbort e d p.tower ks)

/-- `LOST_LINE_ENTRY_CLEAR` (R106). -/
def execLostLineEntryClear (p : Ev.TowerEntry) (s : State) : Host.Outcome State Fault Refusal :=
  s.run (fun _ d => d.modTower p.tower (fun t => { t with lost := t.lost.erase p.index }))

/-! ### UCIe (R424) -/

/-- A group has requests of some kind under way. -/
def inFlight (d : Dev) (gid : Nat) : Bool := groupPending d gid || copiesPending d gid || streamPending d gid

/-- A launch holds tiles in both towers. -/
def spansTowers (l : Launch) : Bool :=
  [0, 1].all (fun t => l.cts.any (fun c => l.tileTower c.1 == t))

/-- The link's messages under way: each is lost with the number that its tower gave it (R149, R428). -/
def lostMessages (d : Dev) : List Ev.Mirror := d.agenda.filterMap (fun e => match e with
  | .ucieMirrorMessage p => some p
  | _ => none)

/-- A group whose request the link has lost ends with HWERR, SRC 6 (R424). -/
def endLinked (e : Env) (d : Dev) (gid : Nat) (a : DWord) : Dev :=
  match d.groups.find? gid with
  | some g => if g.killed then d else hwerr e d gid 6 0 a.toNat
  | none => { d with
      launches := d.launches.map (fun l => (l.1,
        if d.saved.any (fun s => s.gid == gid && s.group.launch == l.1) then l.2.abort else l.2))
      saved := d.saved.map (fun s => if s.gid = gid then s.kill else s) }

/-- The physical addresses, as far as the model has them, of the requests of a group that are under way over UCIe: of the
next chunk of each copy, and of the weight loads and drains of its stream (R424; log 76); `d` has lost the link. -/
def requestsOf (d : Dev) (gid : Nat) : List Nat :=
  let g := d.grp gid
  let copies := (d.core g.core).copies.filterMap (fun q =>
    if q.2.gid ≠ gid then none
    else (nextChunks d g.core q.1 q.2).findSome? (fun ch => (chunkAddr d q.2 ch).bind (fun a =>
      match resolve d (q.2.who g.core) a.1 a.2.2 0 a.2.2 (if q.2.puts then .write else .read) (d.opt 1) with
      | .error (.link pa) => some pa
      | _ => none)))
  let ops := match g.stream with
    | none => []
    | some st => ((st.queue ++ st.out).filter (fun m => m.done.isNone)).filterMap (fun m =>
        (m.parts.flatten.find? (fun x => decide ((x.1.tower.getD (g.core / 64)) ≠ g.core / 64))).map (fun x => x.1.pa))
  copies ++ ops

/-- Loads of a group whose data are on their way. -/
def loadsOut (d : Dev) (gid : Nat) : Nat :=
  (d.agenda.filter (fun e => match e with
    | .loadReturn p => (d.warp p.core p.slot).gid == gid && p.core == (d.grp gid).core
    | _ => false)).length

/-- `UCIE_LINK_DOWN`: each message under way is lost and logged, the groups whose commands it carried end, and of the
others with requests under way those that choice 11 names, bit for bit; the addresses of messages and of loads are
free values (logs 44, 76). -/
def execUcieLinkDown (s : State) : Host.Outcome State Fault Refusal :=
  s.run (fun e d =>
    if !d.uciUp then d
    else
      let ms := lostMessages d
      let d : Dev := ({ d with
        uciUp := false
        agenda := d.agenda.filter (fun x => match x with
          | .ucieMirrorMessage _ => false
          | _ => true) } : Dev).msi 70
      let d := ms.foldl (fun d m =>
        let a := Config.freeValue d.free
        let d := linkEntry e { d with free := d.free + 1 } 1 4 m.seq a
        match m.cmd with
        | some c => endLinked e d c.gid a
        | none => d) d
      let gs := (d.groups.filter (fun g => !g.2.killed && inFlight d g.1)).map (·.1)
      let hit := gs.zipIdx.filterMap (fun x => if (d.opt 11).testBit x.2 then some x.1 else none)
      let d := hit.foldl (fun d g =>
        let known := requestsOf d g
        let n := max (loadsOut d g) (b2n known.isEmpty)
        let a := match known with
          | pa :: _ => BitVec.ofNat 64 pa
          | [] => Config.freeValue d.free
        let d := (known ++ List.replicate n 0).foldl (fun d pa => lostRequest e d pa) { d with free := d.free + 1 }
        endLinked e d g a) d
      { d with launches := d.launches.map (fun l => (l.1, if spansTowers l.2 ∧ !l.2.finished then l.2.abort else l.2)) })

/-! ### Ethernet (R366, R425) -/

/-- A frame of version 1 is the next of its source: frames that come twice, or before their turn, are discarded. -/
def ethNext (d : Dev) (p : Ev.Frame) : Bool := p.port ≤ 1 && p.version == 1 && p.seq == d.eth.rx.get p.src 0
/-- The frame is taken, and acknowledged if `ack` says so. -/
def ethTook (d : Dev) (p : Ev.Frame) (ack : Bool := true) : Dev :=
  { d with eth := { d.eth with
      rx := d.eth.rx.set p.src ((p.seq + 1) % 2 ^ 64)
      acks := if ack then d.eth.acks.set p.src p.seq else d.eth.acks } }

/-- A tile of the other card's rows becomes READY for a launch: for tower 1, which holds the ports, at once, and for
tower 0 by a message (R6, R365, R366). -/
def peerReady (d : Dev) (lid k : Nat) : Dev :=
  let l := d.launch lid
  if (l.rt k).st = .ready then d
  else
    let d := d.modLaunch lid (fun (l : Launch) => (l.setRt k (fun x => { x with st := .ready })).countDown 1 k d.now)
    if l.usedIn 0 k then mirror d 1 0 lid k else d

/-- `ETH_READY_MESSAGE`: it comes from the launch's other card and names the launch by its SEQ; one that this card has not
accepted yet finds it waiting. -/
def execEthReadyMessage (p : Ev.Frame) (s : State) : Host.Outcome State Fault Refusal :=
  s.run (fun _ d =>
    if !ethNext d p then d
    else
      let d := ethTook d p
      let ls := d.launches.filter (fun l => l.2.seq.toNat == p.launch && l.2.graph.spansCards && l.2.card != p.card && !l.2.finished)
      if ls.isEmpty then { d with eth := { d.eth with early := d.eth.early ++ [(p.launch, p.a)] } }
      else ls.foldl (fun d l => peerReady d l.1 p.a) d)

/-- The log's entry of a rejected frame, which tower 1 sends over UCIe (R6, R425, R428). -/
def ethReject (e : Env) (d : Dev) (p : Ev.Frame) : Dev := if d.uciUp then linkEntry e d (2 + p.port) 5 p.seq 0 else d

/-- `ETH_LAUNCH_RECORD`: the record joins the remote queue of its ASID (`a`), on tower 0, when its sender is on
the allow list; otherwise, or where the queue cannot be written, it is logged and dropped. -/
def execEthLaunchRecord (p : Ev.Frame) (s : State) : Host.Outcome State Fault Refusal :=
  s.run (fun e d =>
    if !ethNext d p then d
    else
      let d := ethTook d p
      let q := List.find? (fun (x : Nat × Queue) => x.2.remote && x.2.enable && x.2.asid == p.a) d.queues
      match (if d.mgmt.allow.any (fun x => x.2 == p.src) && p.data.length == 64 then q else none) with
      | none => ethReject e d p
      | some (k, x) =>
        if e.attached && d.uciUp && doorbellOk d x ((x.sqtail + 1) % 2 ^ 32) then
          let v := p.data.foldr (fun b n => b.toNat + 256 * n) 0
          match physOut e d ((ctxOfAsid d x.asid).getD 0) (x.sqbase.toNat + 64 * (x.sqtail % 2 ^ x.log2sz)) 64 v with
          | (d, true) => d.modQueue k (fun x => { x with sqtail := (x.sqtail + 1) % 2 ^ 32 })
          | (d, false) => ethReject e d p
        else ethReject e d p)

/-- `ETH_COMPLETION`: the receiver takes it in sequence; no rule gives it another effect. -/
def execEthCompletion (p : Ev.Frame) (s : State) : Host.Outcome State Fault Refusal :=
  s.run (fun _ d => if ethNext d p then ethTook d p else d)

/-- `ETH_ACK`: the frame with number `a` is acknowledged; the peer has been heard. -/
def execEthAck (p : Ev.Frame) (s : State) : Host.Outcome State Fault Refusal :=
  s.run (fun _ d => if !ethNext d p then d
    else
      let d := ethTook d p false
      { d with eth := { d.eth with
          unacked := (d.eth.unacked.filter (fun x => !(x.port == p.port && x.seq == p.a))).map (fun x =>
            if x.port = p.port then { x with first := d.now } else x) } })

/-- `ETH_STREAM_DATA`. -/
def execEthStreamData (p : Ev.Frame) (s : State) : Host.Outcome State Fault Refusal :=
  s.run (fun _ d => if !ethNext d p then d
    else
      let d := ethTook d p
      { d with eth := { d.eth with stream := d.eth.stream.set p.port (d.eth.stream.get p.port [] ++ p.data) } })

/-- 100 µs and 10 ms in nanoseconds (R15). -/
def us100 : Nat := 100000
def ms10 : Nat := 10000000

/-- A frame of a port has stood unacknowledged for 100 µs; and no acknowledgement has come for 10 ms. -/
def ethLate (d : Dev) (port : Nat) : Bool := d.eth.unacked.any (fun x => x.port == port && decide (x.last + d.ns us100 ≤ d.now))
def ethDead (d : Dev) (port : Nat) : Bool := d.eth.unacked.any (fun x => x.port == port && decide (x.first + d.ns ms10 ≤ d.now))

/-- `ETH_RETRANSMIT`: a frame unacknowledged for 100 µs goes out again. -/
def execEthRetransmit (p : Ev.Port) (s : State) : Host.Outcome State Fault Refusal :=
  s.run (fun _ d => { d with eth := { d.eth with unacked := d.eth.unacked.map (fun x =>
    if x.port = p.port ∧ x.last + d.ns us100 ≤ d.now then { x with last := d.now } else x) } })

/-- `ETH_PEER_TIMEOUT`: every shared launch of this card is aborted; the other card's own time-out aborts its. -/
def execEthPeerTimeout (p : Ev.Port) (s : State) : Host.Outcome State Fault Refusal :=
  s.run (fun e d =>
    if !ethDead d p.port then d
    else
      let ls := (d.launches.filter (fun l => l.2.graph.spansCards && !l.2.finished)).map (·.1)
      let d : Dev := { d with
        eth := { d.eth with unacked := d.eth.unacked.filter (fun x => !(x.port == p.port)) }
        launches := d.launches.map (fun l => (l.1, if ls.contains l.1 then l.2.abort else l.2)) }
      ls.foldl (fun d l => finishLaunch e d l) d)

/-! ### Display heads (R427) -/

/-- The scan-out read of a surface under its head's context: of its first line, since no rule gives a surface's
extent (R8, R427; log 79). -/
def scanOut (e : Env) (d : Dev) (h : Head) : Dev :=
  match (if h.hcfg.getLsbD 20 && h.surf != 0 then ctxOfAsid d (fieldN h.hcfg 0 16) else none) with
  | none => d
  | some k => match engPiecesOf d k h.surf 1 .read 0 with
    | some _ => engMark d k h.surf 1 0
    | none => engFail e d k h.surf 1 .read 0

/-- `VBLANK`: a scheduled flip takes effect, and the reads of the surface begin after it. -/
def execVblank (p : Ev.Head) (s : State) : Host.Outcome State Fault Refusal :=
  s.run (fun e d =>
    let d := d.modHead p.head (fun h =>
      if h.pend = 0 then h else { h with surf := h.pend, pend := 0, flips := (h.flips + 1) % 2 ^ 32 })
    scanOut e d (d.head p.head))

end Sys2Proof.Machine
end

