-- ==== Sys2Proof/Machine/CoreEv.lean ====
section
/-! DEFINITION.  The steps of a core that no word makes: data and replies arriving, `FENCE.SC` completing,
the watchdog, the completed halt, and the word that is no instruction (R72, R139, R162, R380). -/

namespace Sys2Proof.Machine

/-- Registers that returned data name, written in one warp. -/
def Warp.land (w : Warp) (vec : List (Nat × Word)) (sca : List (Nat × DWord)) : Warp :=
  let w := vec.foldl (fun (w : Warp) x => w.setPhys (x.1 / 32) (x.1 % 32) x.2) w
  sca.foldl (fun (w : Warp) x => w.setSr x.1 x.2) w

/-- `LOAD_RETURN`: the values land in the registers they name; a warp or stream that is gone takes none. -/
def execLoadReturn (p : Ev.LoadReturn) (s : State) : Host.Outcome State Fault Refusal :=
  s.run (fun _ d =>
    let d : Dev := match d.warps.find? (wkey p.core p.slot) with
      | some w => d.setWarp p.core p.slot (w.land p.vec p.sca)
      | none => d
    p.strm.foldl (fun d x => d.modStream x.1 (fun st => st.setQ x.2.1 x.2.2)) d)

/-- A reply reaches a group that is saved: it is kept for the restore (R394). -/
def keepReply (d : Dev) (p : Ev.Reply) : Dev :=
  { d with saved := d.saved.map (fun x => if x.gid = p.gid then
      { x with replies := x.replies ++ [(x.group.slots.findIdx (fun k => k == p.slot), p.d, p.value)] } else x) }

/-- `COMMAND_REPLY`: the value lands in its scalar register; the reply of a `PATCH` or other MEMSYS command is
a join (R123, R136). -/
def execCommandReply (p : Ev.Reply) (s : State) : Host.Outcome State Fault Refusal :=
  s.run (fun _ d =>
    match d.warps.find? (wkey p.core p.slot) with
    | some w =>
      if w.gid = p.gid then
        let d := d.setWarp p.core p.slot (w.setSr p.d p.value)
        if p.eng = 3 then l1DropWr d p.core else d
      else keepReply d p
    | none => keepReply d p)

/-- The tick that an outstanding `FENCE.SC` waits for has come, and 2 ns after it (R139). -/
def fenceReady (e : Env) (d : Dev) (core slot : Nat) : Bool :=
  match d.warps.find? (wkey core slot) with
  | some w => (match w.fenceSc with
    | some (_, some t) =>
      decide (t < e.hb (core / 64)) || (t == e.hb (core / 64) && decide (e.clk.lastTick + d.ns 2 ≤ d.now))
    | _ => false)
  | none => false

/-- `FENCE_SC_COMPLETE`: the lanes go on, and the L1 drops its writable lines (R136). -/
def execFenceScComplete (p : Ev.WarpRef) (s : State) : Host.Outcome State Fault Refusal :=
  s.run (fun _ d => l1DropWr (d.modWarp p.core p.slot (fun w => { w with fenceSc := none })) p.core)

/-- `WATCHDOG_EXPIRY` (R162): WATCHDOG of the batch whose age reached the limit, its frame that batch and no
word. -/
def execWatchdogExpiry (p : Ev.Batch) (s : State) : Host.Outcome State Fault Refusal :=
  s.run (fun e d =>
    let w := d.warp p.core p.slot
    let pc := (w.fibre (lowLane p.lanes)).pc
    deliver e d
      { gid := w.gid, slot := p.slot, lanes := p.lanes, stream := false, gpc := pc, wpc := pc, cause := .watchdog
        d0 := p.lanes.toNat, d1 := (loWord pc).toNat, d2 := (hiWord pc).toNat, ow := [0, 0, 0, 0, 0, 0, 0, 0]
        fromWord := false, class4 := false, streamPc := 0 })

/-- The halt of a group is complete: the cycles of skid are over, twelve after the origin's cycle in the rest of its gang;
in the origin's own group three, and the handler waits for the eighth, and for the halts of the whole gang (R379, R380,
R383; log 82). -/
def haltReady (d : Dev) (gid : Nat) : Bool :=
  match d.groups.find? gid with
  | some g => (match g.halt with
    | some h =>
      let others := g.gang.any (fun k => k != gid && (match (d.groups.find? k).bind (·.halt) with
        | some x => !x.save && x.ogid == h.ogid
        | none => false))
      !h.save && (if gid = h.ogid then decide (h.c + 7 < d.clk g.core) && !others else decide (h.c + 12 < d.clk g.core))
    | none => false)
  | none => false

/-- `HALT_COMPLETE` (R380). -/
def execHaltComplete (p : Ev.GroupRef) (s : State) : Host.Outcome State Fault Refusal :=
  s.run (fun e d => completeHalt e d p.gid)

/-! ### Words that are no instruction (R72) -/

/-- The REASONs of R386 that apply to a word the decoder rejects with `r`; the lowest is recorded. -/
def badReason (d : Dev) (w : Word) (r : Nat) : Nat :=
  let cls := fieldN w 28 3
  let gr := dismaskGroup cls (if cls = 5 then 0 else fieldN w 22 6) (if cls = 5 then fieldN w 25 3 else 0)
  let off := (match gr with
    | some b => d.curCtx.dismask.getLsbD b
    | none => false)
  let p := (pick w).map (fun i => i.props)
  let pfx := (match p with
    | some p => !pfxOk d p
    | none => false)
  let sys := (match p with
    | some p => d.user && (p.sys || (match p.sreg with
      | some n => sregSys n
      | none => false))
    | none => false)
  if r = 1 then 1 else if off then 2 else if r < 6 then r else if pfx then 6 else if sys then 7 else r

/-- What a word that is no instruction raises: the fates of R72, ranked by their rows. -/
def badRaise (d : Dev) (w : Word) : Option Raise :=
  match decode w with
  | .ok _ => none
  | .error r =>
    let cls := fieldN w 28 3
    let asked : Props := { cls := cls, eng := if cls = 5 then fieldN w 25 3 else 8 }
    match r with
    | .never => some (emulateAt d 0 9)
    | .chain4 => if d.cur.stream
        then some (.cause 1 .encoding (fieldN d.cur.wpc 0 64 % 12 / 4 + 7 * 4) w.toNat 0 w 0)
        else some (roleRaise d)
    | .pfxWord | .short => some (roleRaise d)
    | .emulate k =>
      if roleOk d asked then
        some (emulateAt d 3 (badReason d w k))
      else some (roleRaise d)

/-- `UNASSIGNED_ENCODING`: the word of the issue in progress raises its fate before any effect. -/
def execUnassignedEncoding (p : Ev.Bad) (s : State) : Host.Outcome State Fault Refusal :=
  s.run (fun e d0 =>
    let d : Dev := { d0 with cur := { d0.cur with word := p.word } }
    match badRaise d p.word with
    | some r => takeRaise e d r
    | none => d0)

end Sys2Proof.Machine
end

