-- ==== Sys2Proof/Machine/Ctl.lean ====
section
/-! DEFINITION.  Class 3, CTL: branches, calls, forks, joins, traps and the return from a handler level
(R173 to R183).  Issue has left the batch's PC at the chain group that follows. -/

namespace Sys2Proof.Machine

/-- Taken fibres go to the target, the others to the next chain group (R174). -/
def branchIf (d : Dev) (take : Nat → Bool) (t : DWord) : Dev :=
  d.putPc d.cur.lanes (fun l => if take l then t else d.cur.next)

/-- Predicate p of a lane, inverted by N. -/
def predXor (d : Dev) (p : BitVec 4) (n : BitVec 1) (l : Nat) : Bool :=
  ((d.opW.fibre l).pred p.toNat).xor (n.getLsbD 0)

/-- `BRA`. -/
def execBra (f : FmtB) (s : State) : Host.Outcome State Fault Refusal :=
  s.run (plain (Instr.bra f).props (fun d => branchIf d (predXor d f.p f.n) (branchTo d f.o)))

/-- `BRU`: the predicate is uniform (R166). -/
def execBru (f : FmtB) (s : State) : Host.Outcome State Fault Refusal :=
  s.run (word (Instr.bru f).props
    (fun _ d => uniform d 0 (fun l => b2n ((d.opW.fibre l).pred f.p.toNat)))
    (fun _ d => branchIf d (predXor d f.p f.n) (branchTo d f.o)))

/-- `BRW`: taken while the walker's dimension has not wrapped. -/
def execBrw (f : FmtBW) (s : State) : Host.Outcome State Fault Refusal :=
  s.run (plain (Instr.brw f).props (fun d =>
    branchIf d (fun _ => !d.opW.wflags.getLsbD (4 * f.w.toNat + f.k.toNat)) (branchTo d f.o)))

/-- R175, R176: a target that is not divisible by 12 raises MEM_ALIGN, KIND 3 and ALIGN 15. -/
def targetCheck (d : Dev) (t : Nat → DWord) : Option Raise :=
  match (lanesOf d.cur.lanes).find? (fun l => (t l).toNat % 12 != 0) with
  | some l => some (ownAt d .memAlign (l + 3 * 32 + 15 * 256) (t l))
  | none => none

/-- `JMPR`. -/
def execJmpr (f : FmtA) (s : State) : Host.Outcome State Fault Refusal :=
  s.run (word (Instr.jmpr f).props
    (fun _ d => targetCheck d (fun l => d.vpair (reg f.a) l))
    (fun _ d => d.putPc d.cur.lanes (fun l => d.vpair (reg f.a) l)))

/-- The window stack with an increment pushed, and with its newest popped. -/
def Fibre.push (f : Fibre) (inc : Nat) : Fibre :=
  { f with
    stack := (f.stack &&& ~~~(15#32 <<< (4 * f.depth))) ||| (BitVec.ofNat 32 inc <<< (4 * f.depth))
    depth := f.depth + 1, base := f.base + inc }
def Fibre.pop (f : Fibre) : Fibre :=
  let k := f.depth - 1
  { f with
    base := f.base - fieldN (f.stack >>> (4 * k)) 0 4
    stack := f.stack &&& ~~~(15#32 <<< (4 * k)), depth := k }

/-- REGWIN of a call: depth 8, or a window past the allocation (R176). -/
def callCheck (d : Dev) (inc : Nat) : Option Raise :=
  match (lanesOf d.cur.lanes).find? (fun l =>
    let fb := d.opW.fibre l
    fb.depth == 8 || decide ((fb.base + inc) * 16 ≥ d.opW.nregs)) with
  | some l =>
    let fb := d.opW.fibre l
    some (regwin d l (if fb.depth = 8 then 3 else 2) ((fb.base + inc) * 16))
  | none => none

/-- The call itself: the increment pushed, the link in v0:v1 of the new window. -/
def callEff (d : Dev) (inc : Nat) (t : Nat → DWord) : Dev :=
  let link := d.cur.pkt + 12
  d.modCur (fun w => (lanesOf d.cur.lanes).foldl (fun w l =>
    let o := (d.opW.fibre l).push inc
    let r := o.base * 16
    ((w.modFibre l (fun f => { f with base := o.base, depth := o.depth, stack := o.stack, pc := t l })).setPhys r l (loWord link)).setPhys (r + 1) l (hiWord link)) w)

/-- `CALL`. -/
def execCall (f : FmtBC) (s : State) : Host.Outcome State Fault Refusal :=
  s.run (word (Instr.call f).props (fun _ d => callCheck d f.i.toNat)
    (fun _ d => callEff d f.i.toNat (fun _ => branchTo d f.o)))

/-- `CALLR`. -/
def execCallr (f : FmtBCR) (s : State) : Host.Outcome State Fault Refusal :=
  s.run (word (Instr.callr f).props
    (fun _ d => firstRaise [callCheck d f.i.toNat, targetCheck d (fun l => d.vpair (reg f.a) l)])
    (fun _ d => callEff d f.i.toNat (fun l => d.vpair (reg f.a) l)))

/-- `RET`. -/
def execRet (f : FmtZ) (s : State) : Host.Outcome State Fault Refusal :=
  s.run (word (Instr.ret f).props
    (fun _ d => firstRaise [
      (match (lanesOf d.cur.lanes).find? (fun l => (d.opW.fibre l).depth == 0) with
        | some l => some (regwin d l 4 ((d.opW.fibre l).base * 16))
        | none => none),
      targetCheck d (fun l => d.vpair 0 l)])
    (fun _ d => d.modCur (fun w => (lanesOf d.cur.lanes).foldl (fun w l =>
      let o := (d.opW.fibre l).pop
      w.modFibre l (fun fb => { fb with base := o.base, depth := o.depth, stack := o.stack, pc := d.vpair 0 l })) w)))

/-- `FORK` (R177): sources and idle lanes are paired in ascending order; a new fibre joins a batch from the next cycle. -/
def execFork (f : FmtFork) (s : State) : Host.Outcome State Fault Refusal :=
  s.run (plain (Instr.fork f).props (fun d =>
    let idle := lanesOf (~~~d.opW.liveMask)
    let src := lanesOf (d.withPred f.p.toNat)
    let t := branchTo d f.o
    d.modCur (fun w => src.zipIdx.foldl (fun w p =>
      match idle[p.2]? with
      | some c =>
        let fb := d.opW.fibre p.1
        let w := w.setFibre c { live := true, pc := t, preds := fb.preds, base := fb.base, depth := fb.depth, stack := fb.stack, wake := d.clk d.cur.core + 1 }
        (List.range 4).foldl (fun w k => w.setPhys (fb.base * 16 + k) c (d.vr k p.1)) w
      | none => w.modFibre p.1 (fun fb => fb.setPred f.p.toNat false)) w)))

/-- The fibres of the lanes end (R178). -/
def endFibres (d : Dev) (m : Word) : Dev :=
  d.modCur (fun w => ((w.onLanes m (fun f => { f with live := false, park := .running, yielded := false, age := 0, barked := false })).dropJoins m).releaseJoins (d.clk d.cur.core + 1))

/-- `FEXIT`: with it a handler level may end (R387), and the group (R154). -/
def execFexit (f : FmtZ) (s : State) : Host.Outcome State Fault Refusal :=
  s.run (plain (Instr.fexit f).props (fun d =>
    let host := d.curWarp.inHost d.cur.lanes
    let d1 := endFibres d d.cur.lanes
    let d2 := if host then levelFexit d1 d.cur.gid d.cur.slot else d1
    groupEnd d2 d.cur.gid))

/-- `JSET`. -/
def execJset (f : FmtBJ) (s : State) : Host.Outcome State Fault Refusal :=
  s.run (plain (Instr.jset f).props (fun d =>
    d.modCur (fun w => (w.setJm f.j.toNat (d.withPred f.m.toNat)).releaseJoin f.j.toNat (d.clk d.cur.core + 1))))

/-- `JOIN`: an arriving member parks at (j, address of the word). -/
def execJoin (f : FmtBJ) (s : State) : Host.Outcome State Fault Refusal :=
  s.run (plain (Instr.join f).props (fun d =>
    d.modCur (fun w =>
      (w.onLanes (d.withPred f.m.toNat &&& d.opW.jm f.j.toNat)
        (fun fb => { fb with park := .join f.j.toNat d.cur.wpc })).releaseJoin f.j.toNat (d.clk d.cur.core + 1))))

/-- `JDROP`. -/
def execJdrop (f : FmtJd) (s : State) : Host.Outcome State Fault Refusal :=
  s.run (plain (Instr.jdrop f).props (fun d =>
    d.modCur (fun w => (w.dropJoins (d.withPred f.m.toNat)).releaseJoins (d.clk d.cur.core + 1))))

/-- `YIELD`. -/
def execYield (f : FmtZ) (s : State) : Host.Outcome State Fault Refusal :=
  s.run (plain (Instr.yield f).props (fun d =>
    d.modCur (fun w => w.onLanes d.cur.lanes (fun fb => { fb with yielded := true }))))

/-- `NOPK`. -/
def execNopk (f : FmtZ) (s : State) : Host.Outcome State Fault Refusal :=
  s.run (plain (Instr.nopk f).props (fun d => d))

/-- `TRAP code`: SOFT, with the code and the word's address (R181). -/
def execTrap (f : FmtBT) (s : State) : Host.Outcome State Fault Refusal :=
  s.run (word (Instr.trap f).props (fun _ d => some (ownAt d .soft f.i.toNat d.cur.wpc)) (fun _ d => d))

/-- `BRK code`: DEBUG. -/
def execBrk (f : FmtBT) (s : State) : Host.Outcome State Fault Refusal :=
  s.run (word (Instr.brk f).props (fun _ d => some (ownAt d .debug f.i.toNat d.cur.wpc)) (fun _ d => d))

/-- `EMURET` (R182): EMULATE at depth 0; held outside the host of the innermost level (R384). -/
def execEmuret (f : FmtBE) (s : State) : Host.Outcome State Fault Refusal :=
  s.run (word (Instr.emuret f).props
    (fun _ d =>
      if d.curWarp.levels.isEmpty then some (emulateRaise d 10)
      else if d.curWarp.inHost d.cur.lanes then none else some .hold)
    (fun _ d => leaveLevel d d.cur.gid d.cur.slot (f.y.getLsbD 0)))

end Sys2Proof.Machine
end

