-- ==== Sys2Proof/Machine/Cordic.lean ====
section
/-! DEFINITION.  The CORDIC unit (R226 to R230): its constants, its pass, and the ten functions. -/

namespace Sys2Proof.Machine

/-- AC[i] = Fix(atan(2^-i)) for i = 0 to 37 (R227). -/
def cAC : List Int :=
  [53972150818, 31861621080, 16834805542, 8545610155, 4289387961, 2146785007,
   1073654455, 536859990, 268434091, 134217557, 67108843, 33554429,
   16777216, 8388608, 4194304, 2097152, 1048576, 524288,
   262144, 131072, 65536, 32768, 16384, 8192,
   4096, 2048, 1024, 512, 256, 128,
   64, 32, 16, 8, 4, 2,
   1, 0]

/-- AH[i] = Fix(atanh(2^-i)) for i = 1 to 37, entry 0 unused (R227). -/
def cAH : List Int :=
  [0, 37748030807, 17551834784, 8635098004, 4300572845, 2148183109,
   1073829218, 536881835, 268436821, 134217899, 67108885, 33554435,
   16777216, 8388608, 4194304, 2097152, 1048576, 524288,
   262144, 131072, 65536, 32768, 16384, 8192,
   4096, 2048, 1024, 512, 256, 128,
   64, 32, 16, 8, 4, 2,
   1, 1]

/-- KC for I = 8, 10, ..., 38 (R227). -/
def cKC : List Int :=
  [41730528440, 41730130471, 41730105598, 41730104044, 41730103947, 41730103941,
   41730103940, 41730103940, 41730103940, 41730103940, 41730103940, 41730103940,
   41730103940, 41730103940, 41730103940, 41730103940]

/-- GH for I = 8, 10, ..., 38 (R227). -/
def cGH : List Int :=
  [82977721936, 82978513282, 82978562741, 82978565833, 82978566605, 82978566654,
   82978566657, 82978566657, 82978566657, 82978566657, 82978566657, 82978566657,
   82978566657, 82978566657, 82978566657, 82978566657]

/-- PI = Fix(pi) (R227). -/
def cPI : Int := 215888603272
/-- IPI = Fix(1 / pi) (R227). -/
def cIPI : Int := 21874088818
/-- LN2 = Fix(ln 2) (R227). -/
def cLN2 : Int := 47632711549
/-- L2E2 = Fix(2 / ln 2) (R227). -/
def cL2E2 : Int := 198282496599
/-- The numerator of ln 2 over 2^200, rounded down: precise enough for every Fix and nearest-integer of R230. -/
def ln2Num : Nat := 1113844574712631719546256151097547306333272293549090750737802

/-- Fix of a signed fraction (R227). -/
def fixQ (neg : Bool) (n d : Nat) : Int :=
  let x : Int := (if neg then -1 else 1) * (n * 2 ^ 37 : Nat)
  (x + d).fdiv (2 * d)

/-- FixMul (R227). -/
def fixMul (x y : Int) : Int := (2 * x * y + 2 ^ 36).fdiv (2 ^ 37)

/-- The circular and linear sequences: 0 to I - 1. -/
def seqC (i : Nat) : List Nat := List.range i
/-- The hyperbolic sequence: 1 upwards with 4 and 13 twice. -/
def seqH (i : Nat) : List Nat :=
  ([1, 2, 3, 4, 4, 5, 6, 7, 8, 9, 10, 11, 12, 13, 13] ++ (List.range 30).map (· + 14)).take i

/-- Modes of a pass. -/
inductive CMode where
  | circ | hyp | lin
  deriving DecidableEq, Repr

/-- One iteration (R228). -/
def cordicStep (mode : CMode) (rot : Bool) (p : Int × Int × Int) (i : Nat) : Int × Int × Int :=
  let (x, y, z) := p
  let d : Int := if rot then (if z ≥ 0 then 1 else -1) else (if y < 0 then 1 else -1)
  let xs := x >>> i
  let ys := y >>> i
  match mode with
  | .circ => (x - d * ys, y + d * xs, z - d * cAC.getD i 0)
  | .hyp => (x + d * ys, y + d * xs, z - d * cAH.getD i 0)
  | .lin => (x, y + d * xs, z - d * (2 ^ (36 - i) : Nat))

/-- A pass of I iterations (R228). -/
def cordic (mode : CMode) (rot : Bool) (iters : Nat) (x y z : Int) : Int × Int × Int :=
  (match mode with
    | .hyp => seqH iters
    | _ => seqC iters).foldl (cordicStep mode rot) (x, y, z)

/-- Real(X) × 2^k as an exact value. -/
def realX (x : Int) (k : Int) : XV :=
  .fin (decide (x < 0)) (x.natAbs * 2 ^ k.toNat) (2 ^ 36 * 2 ^ (-k).toNat)

/-- 2^k. -/
def pow2X (k : Int) : XV := .fin false (2 ^ k.toNat) (2 ^ (-k).toNat)

/-- RoundIntRNE of a signed fraction. -/
def roundIntQ (neg : Bool) (n d : Nat) : Int :=
  let (m, _) := roundMag rne neg n d
  if neg then -(m : Int) else m

/-- SinPiCore of r = n / d with sign (R230). -/
def sinPiCore (iters k : Nat) (neg : Bool) (n d : Nat) : XV :=
  if n * 2 ^ 14 < d then .fin neg (cPI.toNat * n) (2 ^ 36 * d)
  else
    let (_, y, _) := cordic .circ true iters (cKC.getD k 0) 0 (fixMul (fixQ neg n d) cPI)
    realX y 0

/-- VSIN of a finite nonzero operand. -/
def vsinX (iters k : Nat) (g : Bool) (n d : Nat) : XV :=
  -- r = x - 2 RoundIntRNE(x / 2), as num / d
  let m := roundIntQ g n (2 * d)
  let num : Int := (if g then -1 else 1) * (n : Int) - 2 * m * d
  let num : Int := if 2 * num > d then d - num else if 2 * num < -(d : Int) then -(d : Int) - num else num
  if num = 0 then .fin g 0 1
  else sinPiCore iters k (decide (num < 0)) num.natAbs d

/-- VCOS of a finite operand. -/
def vcosX (iters k : Nat) (g : Bool) (n d : Nat) : XV :=
  let m := roundIntQ g n (2 * d)
  let num : Int := (if g then -1 else 1) * (n : Int) - 2 * m * d
  -- u = 1/2 - |num / d| = (d - 2 |num|) / 2d
  let u : Int := (d : Int) - 2 * (num.natAbs : Int)
  if u = 0 then .fin false 0 1
  else sinPiCore iters k (decide (u < 0)) u.natAbs (2 * d)

/-- m × 2^n with m in [1, 2): the fraction m and n. -/
def decompose (n d : Nat) : Nat × Nat × Int :=
  let e := expOf n d
  (n * 2 ^ (-e).toNat, d * 2 ^ e.toNat, e)

/-- VATAN2 of finite nonzero y and x. -/
def vatan2X (iters : Nat) (gy : Bool) (ny dy : Nat) (gx : Bool) (nx dx : Nat) : XV :=
  let ex := expOf nx dx
  let ey := expOf ny dy
  let e1 := (if ex ≥ ey then ex else ey) + 1
  let fx := fixQ false (nx * 2 ^ (-e1).toNat) (dx * 2 ^ e1.toNat)
  let fy := fixQ false (ny * 2 ^ (-e1).toNat) (dy * 2 ^ e1.toNat)
  let (_, _, z) := cordic .circ false iters fx fy 0
  let t := fixMul z cIPI
  let t := if gx then 2 ^ 36 - t else t
  realX (if gy then -t else t) 0

/-- VEXP2 of a finite operand. -/
def vexp2X (iters k : Nat) (g : Bool) (n d : Nat) : XV :=
  if !g && decide (n ≥ 128 * d) then pow2X 128
  else if g && decide (n ≥ 151 * d) then pow2X (-151)
  else
    let r := roundIntQ g n d
    let num : Int := (if g then -1 else 1) * (n : Int) - r * d
    if num = 0 then pow2X r
    else
      let (x, y, _) := cordic .hyp true iters (cGH.getD k 0) 0
        (fixMul (fixQ (decide (num < 0)) num.natAbs d) cLN2)
      realX (x + y) r

/-- VLOG2 of a positive finite operand. -/
def vlog2X (iters : Nat) (n d : Nat) : XV :=
  let (a, b, e) := decompose n d
  let (a, b, e) := if 2 * a ≥ 3 * b then (a, 2 * b, e + 1) else (a, b, e)
  if a = b then xint e
  else
    let (_, _, z) := cordic .hyp false iters (fixQ false (a + b) b)
      (fixQ (decide (a < b)) (if a < b then b - a else a - b) b) 0
    (xint e).add false (realX (fixMul z cL2E2) 0)

/-- SqrtFix of m = a / b in [1/2, 2). -/
def sqrtFix (iters k : Nat) (a b : Nat) : Int :=
  let (x, _, _) := cordic .hyp false iters (fixQ false (4 * a + b) (4 * b))
    (fixQ (decide (4 * a < b)) (4 * a - b) (4 * b)) 0
  fixMul x (cGH.getD k 0)

/-- The decomposition with an even exponent. -/
def evenDecompose (n d : Nat) : Nat × Nat × Int :=
  let (a, b, e) := decompose n d
  if e % 2 = 0 then (a, b, e) else (a, 2 * b, e + 1)

/-- VSQRT of a positive finite operand. -/
def vsqrtX (iters k : Nat) (n d : Nat) : XV :=
  let (a, b, e) := evenDecompose n d
  if a = b then pow2X (e / 2) else realX (sqrtFix iters k a b) (e / 2)

/-- VRSQ of a positive finite operand. -/
def vrsqX (iters k : Nat) (n d : Nat) : XV :=
  let (a, b, e) := evenDecompose n d
  if a = b then pow2X (-e / 2)
  else
    let (_, _, z) := cordic .lin false iters (sqrtFix iters k a b) (2 ^ 36) 0
    realX z (-e / 2)

/-- VRCP of a finite nonzero operand. -/
def vrcpX (iters : Nat) (g : Bool) (n d : Nat) : XV :=
  let (a, b, e) := decompose n d
  let v := if a = b then pow2X (-e)
    else
      let (_, _, z) := cordic .lin false iters (fixQ false a b) (2 ^ 36) 0
      realX z (-e)
  if g then v.neg else v

/-- TanhCore of a = n / d > 0 (R230). -/
def tanhCore (iters k : Nat) (n d : Nat) : XV :=
  if n * 2 ^ 13 < d then
    .fin false (3 * n * d * d - n * n * n) (3 * d * d * d)
  else if n ≥ 16 * d then .fin false (2 ^ 40 - 1) (2 ^ 40)
  else
    -- nearest integer to a / ln 2 = n 2^200 / (d ln2Num)
    let kk : Nat := (2 * n * 2 ^ 200 + d * ln2Num) / (2 * d * ln2Num)
    let num : Int := (n : Int) * 2 ^ 200 - (kk : Int) * (d * ln2Num : Nat)
    let f := fixQ (decide (num < 0)) num.natAbs (d * 2 ^ 200)
    let (x, y, _) := cordic .hyp true iters (cGH.getD k 0) 0 f
    let p := x + y
    let q := (x - y) >>> (2 * kk)
    let (_, _, z) := cordic .lin false iters (p + q) (p - q) 0
    realX z 0

/-- VTANH of a finite nonzero operand. -/
def vtanhX (iters k : Nat) (g : Bool) (n d : Nat) : XV :=
  let t := tanhCore iters k n d
  if g then t.neg else t

/-- VSIGM of a finite nonzero operand. -/
def vsigmX (iters k : Nat) (g : Bool) (n d : Nat) : XV :=
  let t := tanhCore iters k n (2 * d)
  (((xint 1).add false (if g then t.neg else t))).mul (.fin false 1 2)

/-- The CORDIC words. -/
inductive CFun where
  | sin | cos | exp2 | log2 | sqrt | rsq | rcp | tanh | sigm
  deriving DecidableEq, Repr

/-- The settled result of a special operand: a value already exact, with flags; or none (R229). -/
def cordicSpecial (f : CFun) (x : XV) : Option (XV × Nat) :=
  match x with
  | .nan s => some (.nan false, if s then fNV else 0)
  | .inf g =>
    match f with
    | .sin | .cos => some (.nan false, fNV)
    | .exp2 => some (if g then .fin false 0 1 else .inf false, 0)
    | .log2 | .sqrt => some (if g then (.nan false, fNV) else (.inf false, 0))
    | .rsq => some (if g then (.nan false, fNV) else (.fin false 0 1, 0))
    | .rcp => some (.fin g 0 1, 0)
    | .tanh => some (.fin g 1 1, 0)
    | .sigm => some (if g then .fin false 0 1 else .fin false 1 1, 0)
  | .fin g n _ =>
    if n = 0 then
      match f with
      | .sin => none
      | .cos | .exp2 => none
      | .log2 => some (.inf true, fDZ)
      | .sqrt => some (.fin g 0 1, 0)
      | .rsq => some (.inf g, fDZ)
      | .rcp => some (.inf g, fDZ)
      | .tanh => some (.fin g 0 1, 0)
      | .sigm => some (.fin false 1 2, 0)
    else if g then
      match f with
      | .log2 | .sqrt | .rsq => some (.nan false, fNV)
      | _ => none
    else none

/-- The value before the final rounding of any other operand (R230). -/
def cordicValue (f : CFun) (n : Nat) (x : XV) : XV :=
  let it := 8 + 2 * n
  match x with
  | .fin g a b =>
    match f with
    | .sin => vsinX it n g a b
    | .cos => vcosX it n g a b
    | .exp2 => vexp2X it n g a b
    | .log2 => vlog2X it a b
    | .sqrt => vsqrtX it n a b
    | .rsq => vrsqX it n a b
    | .rcp => vrcpX it g a b
    | .tanh => vtanhX it n g a b
    | .sigm => vsigmX it n g a b
  | y => y

/-- A one-operand CORDIC word on one lane: result and flags (R226 to R230). -/
def cordicLane (f : CFun) (n : Nat) (k : Rnd) (a : Word) : Word × Nat :=
  match cordicSpecial f (xf32 a) with
  | some (v, fl) =>
    let (r, fl') := roundF32 k v
    (r, flagOr fl fl')
  | none => roundF32 k (cordicValue f n (xf32 a))

/-- VATAN2 on one lane (R229, R230). -/
def atan2Lane (n : Nat) (k : Rnd) (yw xw : Word) : Word × Nat :=
  let y := xf32 yw
  let x := xf32 xw
  match y, x with
  | .nan a, .nan b => roundF32 k (.nan (a || b))
  | .nan a, _ => roundF32 k (.nan a)
  | _, .nan b => roundF32 k (.nan b)
  | .inf gy, .inf gx => roundF32 k (.fin gy (if gx then 3 else 1) 4)
  | .inf gy, .fin _ _ _ => roundF32 k (.fin gy 1 2)
  | .fin gy ny _, .inf gx => if gx then roundF32 k (.fin gy 1 1) else
      (if ny = 0 then roundF32 k (.fin gy 0 1) else roundF32 k (.fin gy 0 1))
  | .fin gy ny dy, .fin gx nx dx =>
    if ny = 0 then (if gx then roundF32 k (.fin gy 1 1) else roundF32 k (.fin gy 0 1))
    else if nx = 0 then roundF32 k (.fin gy 1 2)
    else roundF32 k (vatan2X (8 + 2 * n) gy ny dy gx nx dx)

end Sys2Proof.Machine
end

