-- ==== Sys2Proof/Machine/Flags.lean ====
section
/-! DEFINITION.  Rounding as an issuing word resolves it, the flags its lanes raise, and the ARITH trap
(R27 to R36, R213). -/

namespace Sys2Proof.Machine

/-- What a floating-point word computes in a lane: its result words and the flags it raises. -/
abbrev FRes := List Word × Nat

/-- The resolved rounding of an element (R27, R28, R31). -/
def rndAt (d : Dev) (idx : Nat) : Rnd := { rm := curRm d, seed := loWord d.opW.dseed, idx := idx }
/-- An exact zero sum is −0 under RDN (R18). -/
def isRdn (d : Dev) : Bool := curRm d == 4

/-- The flags enabled to trap, as bits 0 to 4 (R33). -/
def enabledFlags (d : Dev) : Nat := fieldN d.opW.rmode 16 5

/-- The flags of every active lane (R35). -/
def allFlags (d : Dev) (g : Dev → Nat → FRes) : Nat :=
  (lanesOf d.active).foldl (fun a l => a ||| (g d l).2) 0

/-- ARITH (R36, R381): the flags the word would raise, and the lanes that raise an enabled one. -/
def arithCheck (g : Dev → Nat → FRes) (d : Dev) : Option Raise :=
  if enabledFlags d = 0 then none
  else
    let fl := allFlags d g
    if fl &&& enabledFlags d = 0 then none
    else
      let ls := (lanesOf d.active).filter (fun l => (g d l).2 &&& enabledFlags d != 0)
      some (own d .arith fl (maskOf ls).toNat 0)

/-- A VFLT word completes `lat` cycles after its issue; its flags are then ORed into RMODE [12:8] (R35, R212). -/
def raiseFlags (d : Dev) (lat fl : Nat) : Dev :=
  d.modCur (fun w => { w with flagsDue := w.flagsDue ++ [(d.clk d.cur.core + lat, fl % 32)] })

/-- The flags of a warp's words that have completed by a cycle. -/
def Warp.landFlags (w : Warp) (now_ : Nat) : Warp :=
  let fl := (w.flagsDue.filter (fun x => decide (x.1 ≤ now_))).foldl (fun n x => n ||| x.2) 0
  { w with rmode := w.rmode ||| BitVec.ofNat 64 (fl * 256), flagsDue := w.flagsDue.filter (fun x => !decide (x.1 ≤ now_)) }

/-- A floating-point word: `k` result registers from `dst` in each active lane, after its own checks. -/
def fWordChk (p : Props) (dst k : Nat) (chk : Dev → Option Raise) (g : Dev → Nat → FRes) : Op :=
  word p (fun _ d => firstRaise [chk d, arithCheck g d])
    (fun _ d => raiseFlags (d.putVec dst k (fun l j => ((g d l).1[j]?).getD 0)) p.lat (allFlags d g))

/-- A floating-point word without checks of its own beside ARITH. -/
def fWord (p : Props) (dst k : Nat) (g : Dev → Nat → FRes) : Op := fWordChk p dst k (fun _ => none) g

/-- An FP32 operation on exact values with one rounding, idx = lane (R214). -/
def f32At (d : Dev) (l : Nat) (x : XV) : FRes :=
  let (w, fl) := roundF32 (rndAt d l) x
  ([w], fl)

/-- Format R over FP32 values (R214). -/
def fBinary (p : Props) (f : FmtR) (g : Bool → XV → XV → XV → XV) : Op :=
  fWord p (reg f.d) 1 (fun d l => f32At d l
    (g (isRdn d) (xf32 (d.vr (reg f.a) l)) (xf32 (d.bOp f.b f.s l)) (xf32 (d.vr (d.accField (reg f.d)) l))))

/-- Format R over two packed elements, idx = 2 × lane + j (R219). -/
def fPacked (p : Props) (f : FmtR) (fm : Fmt) (g : Bool → XV → XV → XV → XV) : Op :=
  fWord p (reg f.d) 1 (fun d l =>
    let a := d.vr (reg f.a) l
    let b := d.bOp f.b f.s l
    let c := d.vr (d.accField (reg f.d)) l
    let el (j : Nat) : Nat × Nat :=
      fm.round (rndAt d (2 * l + j))
        (g (isRdn d) (fm.decode (halfAt a j)) (fm.decode (halfAt b j)) (fm.decode (halfAt c j)))
    let (x0, f0) := el 0
    let (x1, f1) := el 1
    ([BitVec.ofNat 32 (x0 + x1 * 65536)], f0 ||| f1))

/-- A CORDIC word of one operand (R226 to R230): I = 8 + 2n iterations. -/
def fCordic (p : Props) (f : FmtU) (c : CFun) : Op :=
  fWord p (reg f.d) 1 (fun d l =>
    let (w, fl) := cordicLane c f.n.toNat (rndAt d l) (d.vr (reg f.a) l)
    ([w], fl))

end Sys2Proof.Machine
end

