-- ==== Sys2Proof/Machine/VFlt.lean ====
section
/-! DEFINITION.  Class 1, VFLT: floating point, conversion, CORDIC and ray words (R210 to R234). -/

namespace Sys2Proof.Machine

/-- The class mask of `VCLASS.F32` (R217). -/
def classF32 (w : Word) : Word :=
  let neg := w.getLsbD 31
  let e := fieldN w 23 8
  let m := fieldN w 0 23
  let bit : Nat :=
    if e = 255 then (if m = 0 then (if neg then 0 else 7) else if w.getLsbD 22 then 9 else 8)
    else if e = 0 then (if m = 0 then (if neg then 3 else 4) else if neg then 2 else 5)
    else if neg then 1 else 6
  1#32 <<< bit

/-- `VRND.F32` of a value (R218). -/
def rndIntegral (k : Rnd) (x : XV) : Word × Nat :=
  match x with
  | .nan s => (0x7FC00000, if s then fNV else 0)
  | .inf g => roundF32 rne (.inf g)
  | .fin g n d =>
    let (m, nx) := roundMag k g n d
    ((roundF32 rne (.fin g m 1)).1, if nx then fNX else 0)

/-- A two's-complement code of 8 bits. -/
def int8Code (i : Int) : Nat := (i % 256).toNat
/-- The integer a byte holds. -/
def int8Val (b : Nat) : Int := if b ≥ 128 then (b : Int) - 256 else b

/-- One element of a scaled narrowing word under scale `s`, for T8 (w = 7), T6 (w = 5) and INT8 (w = 8)
(R223, R23). -/
def narrowEl (w s : Nat) (k : Rnd) (x : XV) : Nat × Nat :=
  match quantise s x with
  | .zero => (0, 0)
  | .nan => (if w = 8 then 0 else 2 ^ w, 0)
  | .val y =>
    if w = 8 then
      let (i, fl) := convInt (-128) 127 k y
      (int8Code i, fl)
    else roundTaper w k y

/-- `n` elements of `w + 1` (or 8) bits narrowed into one lane (R223). -/
def narrow (w n bits : Nat) (d : Dev) (a : Nat) (s : Nat) (l : Nat) : FRes :=
  let els := (List.range n).map (fun j => narrowEl w s (rndAt d (n * l + j)) (xf32 (d.vr (a + j) l)))
  let v := (List.range n).foldl (fun x j => x + ((els[j]?).getD (0, 0)).1 * 2 ^ (bits * j)) 0
  ([BitVec.ofNat 32 v], els.foldl (fun x e => x ||| e.2) 0)

/-- `n` codes of a lane widened under a scale (R224). -/
def widen (w n bits : Nat) (d : Dev) (a : Word) (s : Nat) (l : Nat) : FRes :=
  let els := (List.range n).map (fun j =>
    roundF32 (rndAt d (n * l + j)) (scaled s (decodeTaper w (fieldN a (bits * j) bits))))
  (els.map (·.1), els.foldl (fun x e => x ||| e.2) 0)

/-- FP32 operations rounded RNE with their flags dropped (R232, R233). -/
def rMul (a b : Word) : Word := (roundF32 rne ((xf32 a).mul (xf32 b))).1
def rAdd (a b : Word) : Word := (roundF32 rne ((xf32 a).add false (xf32 b))).1
def rSub (a b : Word) : Word := (roundF32 rne ((xf32 a).add false (xf32 b).neg)).1
def rFma (a b c : Word) : Word := (roundF32 rne (((xf32 a).mul (xf32 b)).add false (xf32 c))).1
def rNeg (a : Word) : Word := a ^^^ 0x80000000
def rMin (a b : Word) : Word := (minmaxF32 false a b).1
def rMax (a b : Word) : Word := (minmaxF32 true a b).1
/-- The reciprocal of an FP32 value rounded RNE. -/
def rRcp (a : Word) : Word :=
  match xf32 a with
  | .nan _ => 0x7FC00000
  | .inf g => (roundF32 rne (.fin g 0 1)).1
  | .fin g n d => if n = 0 then (roundF32 rne (.inf g)).1 else (roundF32 rne (.fin g d n)).1
/-- a ≤ b, a = 0 and their like, false with a NaN. -/
def rLe (a b : Word) : Bool := (condF32 3 (xf32 a) (xf32 b)).1
def rIsZero (a : Word) : Bool := (xf32 a).isZero

/-- A vector of three words. -/
structure V3 where
  x : Word
  y : Word
  z : Word
  deriving DecidableEq, Repr

/-- Cross and Dot of R233. -/
def V3.cross (a b : V3) : V3 :=
  { x := rFma a.y b.z (rNeg (rMul a.z b.y))
    y := rFma a.z b.x (rNeg (rMul a.x b.z))
    z := rFma a.x b.y (rNeg (rMul a.y b.x)) }
def V3.dot (a b : V3) : Word := rFma a.z b.z (rFma a.y b.y (rMul a.x b.x))

/-- Group b of a ray word: vector registers, or scalars upward (R232). -/
def rayB (d : Dev) (b : BitVec 7) (s : BitVec 1) (l j : Nat) : Word :=
  if s.getLsbD 0 then loWord (d.sr (reg b + j)) else d.vr (reg b + j) l

/-- Entry and exit of the slab test (R232): `a` and `b` name the words of the operand groups. -/
def rayBox (a b : Nat → Word) : List Word :=
  let t (k : Nat) : Word × Word :=
    let t0 := rMul (rSub (b k) (a k)) (a (3 + k))
    let t1 := rMul (rSub (b (3 + k)) (a k)) (a (3 + k))
    (rMin t0 t1, rMax t0 t1)
  [rMax (rMax (rMax (a 6) (t 0).1) (t 1).1) (t 2).1, rMin (rMin (rMin (a 7) (t 0).2) (t 1).2) (t 2).2]

/-- The triangle test (R233). -/
def rayTri (a b : Nat → Word) : List Word :=
  let o : V3 := ⟨a 0, a 1, a 2⟩
  let dir : V3 := ⟨a 3, a 4, a 5⟩
  let e1 : V3 := ⟨b 3, b 4, b 5⟩
  let e2 : V3 := ⟨b 6, b 7, b 8⟩
  let p := dir.cross e2
  let det := e1.dot p
  let inv := rRcp det
  let s : V3 := ⟨rSub o.x (b 0), rSub o.y (b 1), rSub o.z (b 2)⟩
  let u := rMul (s.dot p) inv
  let q := s.cross e1
  let w := rMul (dir.dot q) inv
  let t := rMul (e2.dot q) inv
  let one : Word := 0x3F800000
  let nz := !(xf32 det).isNaN && !rIsZero det
  let hit := nz && rLe 0 u && rLe 0 w && rLe (rAdd u w) one && rLe (a 6) t && rLe t (a 7)
  [t, u, w, boolW hit]

/-- `VBSCALE`'s format code, tile by tile: uniform in the tile, then one that names a format (R225). -/
def bscaleCheck (d : Dev) (f : FmtR) : Option Raise :=
  let code (l : Nat) : Nat := fieldN (d.bOp f.b f.s l) 0 4
  (tileHeads d).findSome? (fun h => firstRaise [uniformIn d (tileLanes d d.active (h / tileSize d)) 0 code,
    if code h > 4 then some (emulateRaise d 10) else none])

/-- The S12 code of a tile's block (R225, R24). -/
def bscaleAt (d : Dev) (f : FmtR) (l : Nat) : FRes :=
  let ls := tileLanes d d.active (l / tileSize d)
  let vals := ls.flatMap (fun k => (List.range 4).map (fun j => xf32 (d.vr (reg f.a + j) k)))
  let (s, fl) := s12Cover (fieldN (d.bOp f.b f.s (ls.headD l)) 0 4) vals
  ([BitVec.ofNat 32 s], fl)

/-- `VADD.F32` (R214). -/
def execVaddF32 (f : FmtR) (s : State) : Host.Outcome State Fault Refusal :=
  s.run (fBinary (Instr.vaddF32 f).props f (fun z a b _ => a.add z b))

/-- `VSUB.F32` (R214). -/
def execVsubF32 (f : FmtR) (s : State) : Host.Outcome State Fault Refusal :=
  s.run (fBinary (Instr.vsubF32 f).props f (fun z a b _ => a.add z b.neg))

/-- `VMUL.F32` (R214). -/
def execVmulF32 (f : FmtR) (s : State) : Host.Outcome State Fault Refusal :=
  s.run (fBinary (Instr.vmulF32 f).props f (fun _ a b _ => a.mul b))

/-- `VFMA.F32` (R214). -/
def execVfmaF32 (f : FmtR) (s : State) : Host.Outcome State Fault Refusal :=
  s.run (fBinary (Instr.vfmaF32 f).props f (fun z a b c => (a.mul b).add z c))

/-- `VMIN.F32` (R215). -/
def execVminF32 (f : FmtR) (s : State) : Host.Outcome State Fault Refusal :=
  s.run (fWord (Instr.vminF32 f).props (reg f.d) 1 (fun d l =>
    let (w, fl) := minmaxF32 false (d.vr (reg f.a) l) (d.bOp f.b f.s l)
    ([w], fl)))

/-- `VMAX.F32` (R215). -/
def execVmaxF32 (f : FmtR) (s : State) : Host.Outcome State Fault Refusal :=
  s.run (fWord (Instr.vmaxF32 f).props (reg f.d) 1 (fun d l =>
    let (w, fl) := minmaxF32 true (d.vr (reg f.a) l) (d.bOp f.b f.s l)
    ([w], fl)))

/-- `VCMP.F32` (R216). -/
def execVcmpF32 (f : FmtP) (s : State) : Host.Outcome State Fault Refusal :=
  s.run (let cmp (d : Dev) (l : Nat) : FRes :=
      let (r, fl) := condF32 f.k.toNat (xf32 (d.vr (reg f.a) l)) (xf32 (d.bOp f.b f.s l))
      ([boolW r], fl)
    word (Instr.vcmpF32 f).props (fun _ d => arithCheck cmp d)
      (fun _ d => raiseFlags (d.putPred d.active (reg f.p) (fun l => (cmp d l).1 == [1])) (Instr.vcmpF32 f).props.lat (allFlags d cmp)))

/-- `VCLASS.F32` (R217). -/
def execVclassF32 (f : FmtDA) (s : State) : Host.Outcome State Fault Refusal :=
  s.run (fWord (Instr.vclassF32 f).props (reg f.d) 1 (fun d l => ([classF32 (d.vr (reg f.a) l)], 0)))

/-- `VSGNJ` (R217). -/
def execVsgnj (f : FmtR) (s : State) : Host.Outcome State Fault Refusal :=
  s.run (fWord (Instr.vsgnj f).props (reg f.d) 1 (fun d l =>
    ([(d.vr (reg f.a) l &&& 0x7FFFFFFF) ||| (d.bOp f.b f.s l &&& 0x80000000)], 0)))

/-- `VRND.F32` (R218). -/
def execVrndF32 (f : FmtDA) (s : State) : Host.Outcome State Fault Refusal :=
  s.run (fWord (Instr.vrndF32 f).props (reg f.d) 1 (fun d l =>
    let (w, fl) := rndIntegral (rndAt d l) (xf32 (d.vr (reg f.a) l))
    ([w], fl)))

/-- `VADD.H2` (R219). -/
def execVaddH2 (f : FmtR) (s : State) : Host.Outcome State Fault Refusal :=
  s.run (fPacked (Instr.vaddH2 f).props f f16 (fun z a b _ => a.add z b))

/-- `VMUL.H2` (R219). -/
def execVmulH2 (f : FmtR) (s : State) : Host.Outcome State Fault Refusal :=
  s.run (fPacked (Instr.vmulH2 f).props f f16 (fun _ a b _ => a.mul b))

/-- `VFMA.H2` (R219). -/
def execVfmaH2 (f : FmtR) (s : State) : Host.Outcome State Fault Refusal :=
  s.run (fPacked (Instr.vfmaH2 f).props f f16 (fun z a b c => (a.mul b).add z c))

/-- `VADD.B2` (R219). -/
def execVaddB2 (f : FmtR) (s : State) : Host.Outcome State Fault Refusal :=
  s.run (fPacked (Instr.vaddB2 f).props f bf16 (fun z a b _ => a.add z b))

/-- `VMUL.B2` (R219). -/
def execVmulB2 (f : FmtR) (s : State) : Host.Outcome State Fault Refusal :=
  s.run (fPacked (Instr.vmulB2 f).props f bf16 (fun _ a b _ => a.mul b))

/-- `VFMA.B2` (R219). -/
def execVfmaB2 (f : FmtR) (s : State) : Host.Outcome State Fault Refusal :=
  s.run (fPacked (Instr.vfmaB2 f).props f bf16 (fun z a b c => (a.mul b).add z c))

/-- `VDOT2.B2` (R220). -/
def execVdot2B2 (f : FmtR) (s : State) : Host.Outcome State Fault Refusal :=
  s.run (fWord (Instr.vdot2B2 f).props (reg f.d) 1 (fun d l =>
    let a := d.vr (reg f.a) l
    let b := d.bOp f.b f.s l
    let pr (j : Nat) : XV := (bf16.decode (halfAt a j)).mul (bf16.decode (halfAt b j))
    f32At d l (XV.sum (isRdn d) [pr 0, pr 1, xf32 (d.vr (d.accField (reg f.d)) l)])))

/-- `VDOT4.T8` (R220). -/
def execVdot4T8 (f : FmtR) (s : State) : Host.Outcome State Fault Refusal :=
  s.run (fWord (Instr.vdot4T8 f).props (reg f.d) 1 (fun d l =>
    let a := d.vr (reg f.a) l
    let b := d.bOp f.b f.s l
    let pr (j : Nat) : XV := (decodeTaper 7 (byteAt a j)).mul (decodeTaper 7 (byteAt b j))
    f32At d l (XV.sum (isRdn d) [pr 0, pr 1, pr 2, pr 3, xf32 (d.vr (d.accField (reg f.d)) l)])))

/-- `VCVT.F32.S32` (R221). -/
def execVcvtF32S32 (f : FmtDA) (s : State) : Host.Outcome State Fault Refusal :=
  s.run (fWord (Instr.vcvtF32S32 f).props (reg f.d) 1 (fun d l => f32At d l (xint (d.vr (reg f.a) l).toInt)))

/-- `VCVT.F32.Z32` (R221). -/
def execVcvtF32Z32 (f : FmtDA) (s : State) : Host.Outcome State Fault Refusal :=
  s.run (fWord (Instr.vcvtF32Z32 f).props (reg f.d) 1 (fun d l => f32At d l (xint (d.vr (reg f.a) l).toNat)))

/-- `VCVT.S32.F32` (R221). -/
def execVcvtS32F32 (f : FmtDA) (s : State) : Host.Outcome State Fault Refusal :=
  s.run (fWord (Instr.vcvtS32F32 f).props (reg f.d) 1 (fun d l =>
    let (i, fl) := convInt (-2147483648) 2147483647 (rndAt d l) (xf32 (d.vr (reg f.a) l))
    ([BitVec.ofInt 32 i], fl)))

/-- `VCVT.Z32.F32` (R221). -/
def execVcvtZ32F32 (f : FmtDA) (s : State) : Host.Outcome State Fault Refusal :=
  s.run (fWord (Instr.vcvtZ32F32 f).props (reg f.d) 1 (fun d l =>
    let (i, fl) := convInt 0 4294967295 (rndAt d l) (xf32 (d.vr (reg f.a) l))
    ([BitVec.ofInt 32 i], fl)))

/-- `VCVT.H2.F32` (R222). -/
def execVcvtH2F32 (f : FmtR) (s : State) : Host.Outcome State Fault Refusal :=
  s.run (fWord (Instr.vcvtH2F32 f).props (reg f.d) 1 (fun d l =>
    let (x0, f0) := f16.round (rndAt d (2 * l)) (xf32 (d.vr (reg f.a) l))
    let (x1, f1) := f16.round (rndAt d (2 * l + 1)) (xf32 (d.bOp f.b f.s l))
    ([BitVec.ofNat 32 (x0 + x1 * 65536)], f0 ||| f1)))

/-- `VCVT.B2.F32` (R222). -/
def execVcvtB2F32 (f : FmtR) (s : State) : Host.Outcome State Fault Refusal :=
  s.run (fWord (Instr.vcvtB2F32 f).props (reg f.d) 1 (fun d l =>
    let (x0, f0) := bf16.round (rndAt d (2 * l)) (xf32 (d.vr (reg f.a) l))
    let (x1, f1) := bf16.round (rndAt d (2 * l + 1)) (xf32 (d.bOp f.b f.s l))
    ([BitVec.ofNat 32 (x0 + x1 * 65536)], f0 ||| f1)))

/-- `VCVT.F32.H` (R222). -/
def execVcvtF32H (f : FmtDA) (s : State) : Host.Outcome State Fault Refusal :=
  s.run (fWord (Instr.vcvtF32H f).props (reg f.d) 2 (fun d l =>
    let a := d.vr (reg f.a) l
    let (x0, f0) := roundF32 rne (f16.decode (halfAt a 0))
    let (x1, f1) := roundF32 rne (f16.decode (halfAt a 1))
    ([x0, x1], f0 ||| f1)))

/-- `VCVT.F32.B` (R222). -/
def execVcvtF32B (f : FmtDA) (s : State) : Host.Outcome State Fault Refusal :=
  s.run (fWord (Instr.vcvtF32B f).props (reg f.d) 2 (fun d l =>
    let a := d.vr (reg f.a) l
    let (x0, f0) := roundF32 rne (bf16.decode (halfAt a 0))
    let (x1, f1) := roundF32 rne (bf16.decode (halfAt a 1))
    ([x0, x1], f0 ||| f1)))

/-- `VCVT.T8.F32` (R223). -/
def execVcvtT8F32 (f : FmtR) (s : State) : Host.Outcome State Fault Refusal :=
  s.run (fWord (Instr.vcvtT8F32 f).props (reg f.d) 1 (fun d l => narrow 7 4 8 d (reg f.a) (fieldN (d.bOp f.b f.s l) 0 12) l))

/-- `VCVT.T6.F32` (R223). -/
def execVcvtT6F32 (f : FmtR) (s : State) : Host.Outcome State Fault Refusal :=
  s.run (fWord (Instr.vcvtT6F32 f).props (reg f.d) 1 (fun d l => narrow 5 5 6 d (reg f.a) (fieldN (d.bOp f.b f.s l) 0 12) l))

/-- `VCVT.S8.F32` (R223). -/
def execVcvtS8F32 (f : FmtR) (s : State) : Host.Outcome State Fault Refusal :=
  s.run (fWord (Instr.vcvtS8F32 f).props (reg f.d) 1 (fun d l => narrow 8 4 8 d (reg f.a) (fieldN (d.bOp f.b f.s l) 0 12) l))

/-- `VCVT.F32.T8` (R224). -/
def execVcvtF32T8 (f : FmtR) (s : State) : Host.Outcome State Fault Refusal :=
  s.run (fWord (Instr.vcvtF32T8 f).props (reg f.d) 4 (fun d l =>
    widen 7 4 8 d (d.vr (reg f.a) l) (fieldN (d.bOp f.b f.s l) 0 12) l))

/-- `VCVT.F32.T6` (R224). -/
def execVcvtF32T6 (f : FmtR) (s : State) : Host.Outcome State Fault Refusal :=
  s.run (fWord (Instr.vcvtF32T6 f).props (reg f.d) 5 (fun d l =>
    widen 5 5 6 d (d.vr (reg f.a) l) (fieldN (d.bOp f.b f.s l) 0 12) l))

/-- `VBSCALE` (R225). -/
def execVbscale (f : FmtR) (s : State) : Host.Outcome State Fault Refusal :=
  s.run (fWordChk (Instr.vbscale f).props (reg f.d) 1 (fun d => bscaleCheck d f) (fun d l => bscaleAt d f l))

/-- `VSIN` (R229, R230). -/
def execVsin (f : FmtU) (s : State) : Host.Outcome State Fault Refusal :=
  s.run (fCordic (Instr.vsin f).props f .sin)

/-- `VCOS` (R229, R230). -/
def execVcos (f : FmtU) (s : State) : Host.Outcome State Fault Refusal :=
  s.run (fCordic (Instr.vcos f).props f .cos)

/-- `VEXP2` (R229, R230). -/
def execVexp2 (f : FmtU) (s : State) : Host.Outcome State Fault Refusal :=
  s.run (fCordic (Instr.vexp2 f).props f .exp2)

/-- `VLOG2` (R229, R230). -/
def execVlog2 (f : FmtU) (s : State) : Host.Outcome State Fault Refusal :=
  s.run (fCordic (Instr.vlog2 f).props f .log2)

/-- `VSQRT` (R229, R230). -/
def execVsqrt (f : FmtU) (s : State) : Host.Outcome State Fault Refusal :=
  s.run (fCordic (Instr.vsqrt f).props f .sqrt)

/-- `VRSQ` (R229, R230). -/
def execVrsq (f : FmtU) (s : State) : Host.Outcome State Fault Refusal :=
  s.run (fCordic (Instr.vrsq f).props f .rsq)

/-- `VRCP` (R229, R230). -/
def execVrcp (f : FmtU) (s : State) : Host.Outcome State Fault Refusal :=
  s.run (fCordic (Instr.vrcp f).props f .rcp)

/-- `VTANH` (R229, R230). -/
def execVtanh (f : FmtU) (s : State) : Host.Outcome State Fault Refusal :=
  s.run (fCordic (Instr.vtanh f).props f .tanh)

/-- `VSIGM` (R229, R230). -/
def execVsigm (f : FmtU) (s : State) : Host.Outcome State Fault Refusal :=
  s.run (fCordic (Instr.vsigm f).props f .sigm)

/-- `VATAN2` (R229, R230). -/
def execVatan2 (f : FmtU) (s : State) : Host.Outcome State Fault Refusal :=
  s.run (fWord (Instr.vatan2 f).props (reg f.d) 1 (fun d l =>
    let (w, fl) := atan2Lane f.n.toNat (rndAt d l) (d.vr (reg f.a) l) (d.vr (reg f.a + 1) l)
    ([w], fl)))

/-- `VRBOX` (R232). -/
def execVrbox (f : FmtR) (s : State) : Host.Outcome State Fault Refusal :=
  s.run (fWord (Instr.vrbox f).props (reg f.d) 2 (fun d l =>
    (rayBox (fun i => d.vr (reg f.a + i) l) (fun i => rayB d f.b f.s l i), 0)))

/-- `VRTRI` (R233). -/
def execVrtri (f : FmtR) (s : State) : Host.Outcome State Fault Refusal :=
  s.run (fWord (Instr.vrtri f).props (reg f.d) 4 (fun d l =>
    (rayTri (fun i => d.vr (reg f.a + i) l) (fun i => rayB d f.b f.s l i), 0)))

end Sys2Proof.Machine
end

