-- ==== Sys2Proof/Machine/Dispatch.lean ====
section
/-! DEFINITION.  The meaning of every instruction and event: one arm per constructor of `Instr`. -/

namespace Sys2Proof.Machine

def exec (i : Instr) (s : State) : Host.Outcome State Fault Refusal :=
  match i with
  | .vaddS32 f => Sys2Proof.Machine.execVaddS32 f s
  | .vsubS32 f => Sys2Proof.Machine.execVsubS32 f s
  | .vmulS32 f => Sys2Proof.Machine.execVmulS32 f s
  | .vmulhS32 f => Sys2Proof.Machine.execVmulhS32 f s
  | .vmulhZ32 f => Sys2Proof.Machine.execVmulhZ32 f s
  | .vmadS32 f => Sys2Proof.Machine.execVmadS32 f s
  | .vminS32 f => Sys2Proof.Machine.execVminS32 f s
  | .vmaxS32 f => Sys2Proof.Machine.execVmaxS32 f s
  | .vminZ32 f => Sys2Proof.Machine.execVminZ32 f s
  | .vmaxZ32 f => Sys2Proof.Machine.execVmaxZ32 f s
  | .vand f => Sys2Proof.Machine.execVand f s
  | .vor f => Sys2Proof.Machine.execVor f s
  | .vxor f => Sys2Proof.Machine.execVxor f s
  | .vandn f => Sys2Proof.Machine.execVandn f s
  | .vshl f => Sys2Proof.Machine.execVshl f s
  | .vshr f => Sys2Proof.Machine.execVshr f s
  | .vsar f => Sys2Proof.Machine.execVsar f s
  | .vaddi f => Sys2Proof.Machine.execVaddi f s
  | .vmovi f => Sys2Proof.Machine.execVmovi f s
  | .vcmp f => Sys2Proof.Machine.execVcmp f s
  | .vcmpi f => Sys2Proof.Machine.execVcmpi f s
  | .vsel f => Sys2Proof.Machine.execVsel f s
  | .vclz f => Sys2Proof.Machine.execVclz f s
  | .vpopc f => Sys2Proof.Machine.execVpopc f s
  | .vbrev f => Sys2Proof.Machine.execVbrev f s
  | .vbins f => Sys2Proof.Machine.execVbins f s
  | .vffcs f => Sys2Proof.Machine.execVffcs f s
  | .vplset f => Sys2Proof.Machine.execVplset f s
  | .vextr f => Sys2Proof.Machine.execVextr f s
  | .vshflIdx f => Sys2Proof.Machine.execVshflIdx f s
  | .vshflXor f => Sys2Proof.Machine.execVshflXor f s
  | .vshflUp f => Sys2Proof.Machine.execVshflUp f s
  | .vshflDn f => Sys2Proof.Machine.execVshflDn f s
  | .vvote f => Sys2Proof.Machine.execVvote f s
  | .vred f => Sys2Proof.Machine.execVred f s
  | .vscan f => Sys2Proof.Machine.execVscan f s
  | .vmovV f => Sys2Proof.Machine.execVmovV f s
  | .vmovS f => Sys2Proof.Machine.execVmovS f s
  | .vbcast f => Sys2Proof.Machine.execVbcast f s
  | .vlaneid f => Sys2Proof.Machine.execVlaneid f s
  | .vmovs f => Sys2Proof.Machine.execVmovs f s
  | .vaddS64 f => Sys2Proof.Machine.execVaddS64 f s
  | .vmulWideS32 f => Sys2Proof.Machine.execVmulWideS32 f s
  | .vmadWideZ32 f => Sys2Proof.Machine.execVmadWideZ32 f s
  | .vaddF32 f => Sys2Proof.Machine.execVaddF32 f s
  | .vsubF32 f => Sys2Proof.Machine.execVsubF32 f s
  | .vmulF32 f => Sys2Proof.Machine.execVmulF32 f s
  | .vfmaF32 f => Sys2Proof.Machine.execVfmaF32 f s
  | .vminF32 f => Sys2Proof.Machine.execVminF32 f s
  | .vmaxF32 f => Sys2Proof.Machine.execVmaxF32 f s
  | .vcmpF32 f => Sys2Proof.Machine.execVcmpF32 f s
  | .vclassF32 f => Sys2Proof.Machine.execVclassF32 f s
  | .vsgnj f => Sys2Proof.Machine.execVsgnj f s
  | .vrndF32 f => Sys2Proof.Machine.execVrndF32 f s
  | .vaddH2 f => Sys2Proof.Machine.execVaddH2 f s
  | .vmulH2 f => Sys2Proof.Machine.execVmulH2 f s
  | .vfmaH2 f => Sys2Proof.Machine.execVfmaH2 f s
  | .vaddB2 f => Sys2Proof.Machine.execVaddB2 f s
  | .vmulB2 f => Sys2Proof.Machine.execVmulB2 f s
  | .vfmaB2 f => Sys2Proof.Machine.execVfmaB2 f s
  | .vdot2B2 f => Sys2Proof.Machine.execVdot2B2 f s
  | .vdot4T8 f => Sys2Proof.Machine.execVdot4T8 f s
  | .vcvtF32S32 f => Sys2Proof.Machine.execVcvtF32S32 f s
  | .vcvtS32F32 f => Sys2Proof.Machine.execVcvtS32F32 f s
  | .vcvtF32Z32 f => Sys2Proof.Machine.execVcvtF32Z32 f s
  | .vcvtZ32F32 f => Sys2Proof.Machine.execVcvtZ32F32 f s
  | .vcvtH2F32 f => Sys2Proof.Machine.execVcvtH2F32 f s
  | .vcvtF32H f => Sys2Proof.Machine.execVcvtF32H f s
  | .vcvtB2F32 f => Sys2Proof.Machine.execVcvtB2F32 f s
  | .vcvtF32B f => Sys2Proof.Machine.execVcvtF32B f s
  | .vcvtT8F32 f => Sys2Proof.Machine.execVcvtT8F32 f s
  | .vcvtF32T8 f => Sys2Proof.Machine.execVcvtF32T8 f s
  | .vcvtT6F32 f => Sys2Proof.Machine.execVcvtT6F32 f s
  | .vcvtF32T6 f => Sys2Proof.Machine.execVcvtF32T6 f s
  | .vbscale f => Sys2Proof.Machine.execVbscale f s
  | .vcvtS8F32 f => Sys2Proof.Machine.execVcvtS8F32 f s
  | .vsin f => Sys2Proof.Machine.execVsin f s
  | .vcos f => Sys2Proof.Machine.execVcos f s
  | .vatan2 f => Sys2Proof.Machine.execVatan2 f s
  | .vexp2 f => Sys2Proof.Machine.execVexp2 f s
  | .vlog2 f => Sys2Proof.Machine.execVlog2 f s
  | .vsqrt f => Sys2Proof.Machine.execVsqrt f s
  | .vrsq f => Sys2Proof.Machine.execVrsq f s
  | .vrcp f => Sys2Proof.Machine.execVrcp f s
  | .vtanh f => Sys2Proof.Machine.execVtanh f s
  | .vsigm f => Sys2Proof.Machine.execVsigm f s
  | .vrbox f => Sys2Proof.Machine.execVrbox f s
  | .vrtri f => Sys2Proof.Machine.execVrtri f s
  | .ldZ8 f => Sys2Proof.Machine.execLdZ8 f s
  | .ldS8 f => Sys2Proof.Machine.execLdS8 f s
  | .ldZ16 f => Sys2Proof.Machine.execLdZ16 f s
  | .ldS16 f => Sys2Proof.Machine.execLdS16 f s
  | .ld32 f => Sys2Proof.Machine.execLd32 f s
  | .ld64 f => Sys2Proof.Machine.execLd64 f s
  | .ld128 f => Sys2Proof.Machine.execLd128 f s
  | .st8 f => Sys2Proof.Machine.execSt8 f s
  | .st16 f => Sys2Proof.Machine.execSt16 f s
  | .st32 f => Sys2Proof.Machine.execSt32 f s
  | .st64 f => Sys2Proof.Machine.execSt64 f s
  | .st128 f => Sys2Proof.Machine.execSt128 f s
  | .lds32 f => Sys2Proof.Machine.execLds32 f s
  | .lds64 f => Sys2Proof.Machine.execLds64 f s
  | .lds128 f => Sys2Proof.Machine.execLds128 f s
  | .sts32 f => Sys2Proof.Machine.execSts32 f s
  | .sts64 f => Sys2Proof.Machine.execSts64 f s
  | .sts128 f => Sys2Proof.Machine.execSts128 f s
  | .aaddS32 f => Sys2Proof.Machine.execAaddS32 f s
  | .aaddF32 f => Sys2Proof.Machine.execAaddF32 f s
  | .aminS32 f => Sys2Proof.Machine.execAminS32 f s
  | .amaxS32 f => Sys2Proof.Machine.execAmaxS32 f s
  | .aminZ32 f => Sys2Proof.Machine.execAminZ32 f s
  | .amaxZ32 f => Sys2Proof.Machine.execAmaxZ32 f s
  | .aand f => Sys2Proof.Machine.execAand f s
  | .aor f => Sys2Proof.Machine.execAor f s
  | .axor f => Sys2Proof.Machine.execAxor f s
  | .axchg f => Sys2Proof.Machine.execAxchg f s
  | .acas f => Sys2Proof.Machine.execAcas f s
  | .aaddS64 f => Sys2Proof.Machine.execAaddS64 f s
  | .affcs64 f => Sys2Proof.Machine.execAffcs64 f s
  | .fence f => Sys2Proof.Machine.execFence f s
  | .fenceSc f => Sys2Proof.Machine.execFenceSc f s
  | .waitw f => Sys2Proof.Machine.execWaitw f s
  | .sarm f => Sys2Proof.Machine.execSarm f s
  | .swait f => Sys2Proof.Machine.execSwait f s
  | .sarr f => Sys2Proof.Machine.execSarr f s
  | .vfpush f => Sys2Proof.Machine.execVfpush f s
  | .vfpop f => Sys2Proof.Machine.execVfpop f s
  | .vftry f => Sys2Proof.Machine.execVftry f s
  | .pref f => Sys2Proof.Machine.execPref f s
  | .ldtxBl f => Sys2Proof.Machine.execLdtxBl f s
  | .ald32 f => Sys2Proof.Machine.execAld32 f s
  | .ast32 f => Sys2Proof.Machine.execAst32 f s
  | .bra f => Sys2Proof.Machine.execBra f s
  | .bru f => Sys2Proof.Machine.execBru f s
  | .jmpr f => Sys2Proof.Machine.execJmpr f s
  | .call f => Sys2Proof.Machine.execCall f s
  | .callr f => Sys2Proof.Machine.execCallr f s
  | .ret f => Sys2Proof.Machine.execRet f s
  | .fork f => Sys2Proof.Machine.execFork f s
  | .fexit f => Sys2Proof.Machine.execFexit f s
  | .jset f => Sys2Proof.Machine.execJset f s
  | .join f => Sys2Proof.Machine.execJoin f s
  | .jdrop f => Sys2Proof.Machine.execJdrop f s
  | .yield f => Sys2Proof.Machine.execYield f s
  | .nopk f => Sys2Proof.Machine.execNopk f s
  | .trap f => Sys2Proof.Machine.execTrap f s
  | .brk f => Sys2Proof.Machine.execBrk f s
  | .emuret f => Sys2Proof.Machine.execEmuret f s
  | .brw f => Sys2Proof.Machine.execBrw f s
  | .mma f => Sys2Proof.Machine.execMma f s
  | .mmas f => Sys2Proof.Machine.execMmas f s
  | .mwld f => Sys2Proof.Machine.execMwld f s
  | .mzero f => Sys2Proof.Machine.execMzero f s
  | .mdrain f => Sys2Proof.Machine.execMdrain f s
  | .mlacc f => Sys2Proof.Machine.execMlacc f s
  | .mwait f => Sys2Proof.Machine.execMwait f s
  | .msig f => Sys2Proof.Machine.execMsig f s
  | .mli f => Sys2Proof.Machine.execMli f s
  | .maddq f => Sys2Proof.Machine.execMaddq f s
  | .mloop f => Sys2Proof.Machine.execMloop f s
  | .mbra f => Sys2Proof.Machine.execMbra f s
  | .mend => Sys2Proof.Machine.execMend s
  | .mstat f => Sys2Proof.Machine.execMstat f s
  | .mprio f => Sys2Proof.Machine.execMprio f s
  | .mfence f => Sys2Proof.Machine.execMfence f s
  | .mldq f => Sys2Proof.Machine.execMldq f s
  | .cshape f => Sys2Proof.Machine.execCshape f s
  | .cget f => Sys2Proof.Machine.execCget f s
  | .cput f => Sys2Proof.Machine.execCput f s
  | .cgath f => Sys2Proof.Machine.execCgath f s
  | .cmcast f => Sys2Proof.Machine.execCmcast f s
  | .cring f => Sys2Proof.Machine.execCring f s
  | .cresume f => Sys2Proof.Machine.execCresume f s
  | .ccancel f => Sys2Proof.Machine.execCcancel f s
  | .cstat f => Sys2Proof.Machine.execCstat f s
  | .tspawn f => Sys2Proof.Machine.execTspawn f s
  | .tsucc f => Sys2Proof.Machine.execTsucc f s
  | .fsopen f => Sys2Proof.Machine.execFsopen f s
  | .fsclose f => Sys2Proof.Machine.execFsclose f s
  | .fsadd f => Sys2Proof.Machine.execFsadd f s
  | .tretire f => Sys2Proof.Machine.execTretire f s
  | .glaunch f => Sys2Proof.Machine.execGlaunch f s
  | .gprio f => Sys2Proof.Machine.execGprio f s
  | .telrd f => Sys2Proof.Machine.execTelrd f s
  | .pgreq f => Sys2Proof.Machine.execPgreq f s
  | .icinv f => Sys2Proof.Machine.execIcinv f s
  | .cflush f => Sys2Proof.Machine.execCflush f s
  | .csplit f => Sys2Proof.Machine.execCsplit f s
  | .tlbinv f => Sys2Proof.Machine.execTlbinv f s
  | .patch f => Sys2Proof.Machine.execPatch f s
  | .sadd f => Sys2Proof.Machine.execSadd f s
  | .ssub f => Sys2Proof.Machine.execSsub f s
  | .smul f => Sys2Proof.Machine.execSmul f s
  | .sand f => Sys2Proof.Machine.execSand f s
  | .sor f => Sys2Proof.Machine.execSor f s
  | .sxor f => Sys2Proof.Machine.execSxor f s
  | .sshl f => Sys2Proof.Machine.execSshl f s
  | .sshr f => Sys2Proof.Machine.execSshr f s
  | .ssar f => Sys2Proof.Machine.execSsar f s
  | .smin f => Sys2Proof.Machine.execSmin f s
  | .smax f => Sys2Proof.Machine.execSmax f s
  | .sminz f => Sys2Proof.Machine.execSminz f s
  | .smaxz f => Sys2Proof.Machine.execSmaxz f s
  | .saddi f => Sys2Proof.Machine.execSaddi f s
  | .sli f => Sys2Proof.Machine.execSli f s
  | .slih f => Sys2Proof.Machine.execSlih f s
  | .scmp f => Sys2Proof.Machine.execScmp f s
  | .sld64 f => Sys2Proof.Machine.execSld64 f s
  | .sst64 f => Sys2Proof.Machine.execSst64 f s
  | .sld32 f => Sys2Proof.Machine.execSld32 f s
  | .srd f => Sys2Proof.Machine.execSrd f s
  | .swr f => Sys2Proof.Machine.execSwr f s
  | .sxch f => Sys2Proof.Machine.execSxch f s
  | .wbind f => Sys2Proof.Machine.execWbind f s
  | .wrd f => Sys2Proof.Machine.execWrd f s
  | .wrst f => Sys2Proof.Machine.execWrst f s
  | .sffcs f => Sys2Proof.Machine.execSffcs f s
  | .splset f => Sys2Proof.Machine.execSplset f s
  | .sbins f => Sys2Proof.Machine.execSbins f s
  | .spopc f => Sys2Proof.Machine.execSpopc f s
  | .sclz f => Sys2Proof.Machine.execSclz f s
  | .emurd f => Sys2Proof.Machine.execEmurd f s
  | .emuwr f => Sys2Proof.Machine.execEmuwr f s
  | .accrd f => Sys2Proof.Machine.execAccrd f s
  | .accwr f => Sys2Proof.Machine.execAccwr f s
  | .loadReturn p => Sys2Proof.Machine.execLoadReturn p s
  | .commandReply p => Sys2Proof.Machine.execCommandReply p s
  | .fenceScComplete p => Sys2Proof.Machine.execFenceScComplete p s
  | .watchdogExpiry p => Sys2Proof.Machine.execWatchdogExpiry p s
  | .haltComplete p => Sys2Proof.Machine.execHaltComplete p s
  | .chunkComplete p => Sys2Proof.Machine.execChunkComplete p s
  | .copyFaultSettle p => Sys2Proof.Machine.execCopyFaultSettle p s
  | .copyQuiesceTimeout p => Sys2Proof.Machine.execCopyQuiesceTimeout p s
  | .matrixOpDequeue p => Sys2Proof.Machine.execMatrixOpDequeue p s
  | .kennelDeadline p => Sys2Proof.Machine.execKennelDeadline p s
  | .engineEntry p => Sys2Proof.Machine.execEngineEntry p s
  | .matrixResultWrite p => Sys2Proof.Machine.execMatrixResultWrite p s
  | .weightFillComplete p => Sys2Proof.Machine.execWeightFillComplete p s
  | .drainRowPerform p => Sys2Proof.Machine.execDrainRowPerform p s
  | .msigArrival p => Sys2Proof.Machine.execMsigArrival p s
  | .taskDispatch p => Sys2Proof.Machine.execTaskDispatch p s
  | .gangReservation p => Sys2Proof.Machine.execGangReservation p s
  | .gangReservationTimeout p => Sys2Proof.Machine.execGangReservationTimeout p s
  | .tileRetire p => Sys2Proof.Machine.execTileRetire p s
  | .ucieMirrorMessage p => Sys2Proof.Machine.execUcieMirrorMessage p s
  | .reexecPlacementTimeout p => Sys2Proof.Machine.execReexecPlacementTimeout p s
  | .preemptionTimeout p => Sys2Proof.Machine.execPreemptionTimeout p s
  | .contextSave p => Sys2Proof.Machine.execContextSave p s
  | .contextRestore p => Sys2Proof.Machine.execContextRestore p s
  | .starvationRestore p => Sys2Proof.Machine.execStarvationRestore p s
  | .submissionConsume p => Sys2Proof.Machine.execSubmissionConsume p s
  | .sqDoorbell p => Sys2Proof.Machine.execSqDoorbell p s
  | .attachWrite p => Sys2Proof.Machine.execAttachWrite p s
  | .ctxCsplitWrite p => Sys2Proof.Machine.execCtxCsplitWrite p s
  | .registerWrite p => Sys2Proof.Machine.execRegisterWrite p s
  | .hostBar2Access p => Sys2Proof.Machine.execHostBar2Access p s
  | .hostAtomicop p => Sys2Proof.Machine.execHostAtomicop p s
  | .fbRelease p => Sys2Proof.Machine.execFbRelease p s
  | .fbReleaseAll p => Sys2Proof.Machine.execFbReleaseAll p s
  | .fbAbort p => Sys2Proof.Machine.execFbAbort p s
  | .lostLineEntryClear p => Sys2Proof.Machine.execLostLineEntryClear p s
  | .flipsRead p => Sys2Proof.Machine.execFlipsRead p s
  | .gddrCounterRead p => Sys2Proof.Machine.execGddrCounterRead p s
  | .sentinelCounterRead p => Sys2Proof.Machine.execSentinelCounterRead p s
  | .mgcmdGate p => Sys2Proof.Machine.execMgcmdGate p s
  | .mgcmdUngate p => Sys2Proof.Machine.execMgcmdUngate p s
  | .mgcmdRetireBus p => Sys2Proof.Machine.execMgcmdRetireBus p s
  | .mgcmdShutdownLayer p => Sys2Proof.Machine.execMgcmdShutdownLayer p s
  | .mgcmdComplete => Sys2Proof.Machine.execMgcmdComplete s
  | .attestationRequest => Sys2Proof.Machine.execAttestationRequest s
  | .attestationComplete => Sys2Proof.Machine.execAttestationComplete s
  | .powerOn => Sys2Proof.Machine.execPowerOn s
  | .heartbeatTick => Sys2Proof.Machine.execHeartbeatTick s
  | .timeSync p => Sys2Proof.Machine.execTimeSync p s
  | .readCountWindow p => Sys2Proof.Machine.execReadCountWindow p s
  | .lineReplication p => Sys2Proof.Machine.execLineReplication p s
  | .loopPortPowerDown p => Sys2Proof.Machine.execLoopPortPowerDown p s
  | .loopPortWake p => Sys2Proof.Machine.execLoopPortWake p s
  | .dirtyBudgetWriteback p => Sys2Proof.Machine.execDirtyBudgetWriteback p s
  | .cacheLayerShutdown p => Sys2Proof.Machine.execCacheLayerShutdown p s
  | .busEvacuation p => Sys2Proof.Machine.execBusEvacuation p s
  | .columnRemoval p => Sys2Proof.Machine.execColumnRemoval p s
  | .gddrTransferError p => Sys2Proof.Machine.execGddrTransferError p s
  | .vfControlTick => Sys2Proof.Machine.execVfControlTick s
  | .vfTransitionComplete p => Sys2Proof.Machine.execVfTransitionComplete p s
  | .sensorSample p => Sys2Proof.Machine.execSensorSample p s
  | .thermalPowerDown p => Sys2Proof.Machine.execThermalPowerDown p s
  | .sentinelRun p => Sys2Proof.Machine.execSentinelRun p s
  | .ucieLinkDown => Sys2Proof.Machine.execUcieLinkDown s
  | .ethReadyMessage p => Sys2Proof.Machine.execEthReadyMessage p s
  | .ethLaunchRecord p => Sys2Proof.Machine.execEthLaunchRecord p s
  | .ethCompletion p => Sys2Proof.Machine.execEthCompletion p s
  | .ethAck p => Sys2Proof.Machine.execEthAck p s
  | .ethStreamData p => Sys2Proof.Machine.execEthStreamData p s
  | .ethRetransmit p => Sys2Proof.Machine.execEthRetransmit p s
  | .ethPeerTimeout p => Sys2Proof.Machine.execEthPeerTimeout p s
  | .vblank p => Sys2Proof.Machine.execVblank p s
  | .unassignedEncoding p => Sys2Proof.Machine.execUnassignedEncoding p s
  | .hostReleasesReset => Sys2Proof.Machine.execHostReleasesReset s

end Sys2Proof.Machine
end

