-- ==== Sys2Proof/Machine/Issue.lean ====
section
/-! DEFINITION.  Issue: fetching a chain group and settling its fate (R44 to R53, R72, R73), batches, their
eligibility and the choice of a quadrant (R156 to R163), the sequencer's choice (R311), skid (R379), and what a
step may do next (log 3). -/

namespace Sys2Proof.Machine

/-- The meaning of words, as the step hands it in. -/
abbrev Meaning := Instr → State → Host.Outcome State Fault Refusal

/-! ### Fetch (R46, R120, R401; log 9) -/

/-- The line of the core's code cache that holds an address, when the choice says to use it (choice 2, bit 0). -/
def codeHit (d : Dev) (w : Who) (va : DWord) : Option CodeLine :=
  if d.opt 2 % 2 = 1 then
    (d.core w.core).code.find? (fun l => l.asid == w.asid d && l.va == va.toNat / 64 * 64)
  else none

/-- The target of a fetch. -/
def fetchTarget (d : Dev) (w : Who) (va : DWord) : Except MErr (Target × List ADSet) :=
  if va.toNat % 4 ≠ 0 then .error (.align 15)
  else match windowOf va.toNat with
    | 1 => .error (.prot 1)
    | 3 => .error (.prot 1)
    | _ =>
      match resolve d w va 4 0 4 .fetch (d.opt 1) with
      | .error x => .error x
      | .ok (.reg o, _) => .error (.data 4 (0xFFF0000000000 + o))
      | .ok t => match targetErr d .fetch t.1 with
        | some x => .error x
        | none => .ok t

/-- The word at an address. -/
def fetchWord (d : Dev) (w : Who) (va : DWord) : Except MErr Word :=
  match codeHit d w va with
  | some l => .ok (BitVec.ofNat 32 (l.data.readN (va.toNat % 64) 4))
  | none => match fetchTarget d w va with
    | .error x => .error x
    | .ok (t, _) => .ok (BitVec.ofNat 32 (tgtRead d w.gid t 4))

/-- What a fetch leaves behind: A bits, the line's record, and the line in the code cache when the choice says
so (choice 2, bit 1). -/
def fetchNote (d : Dev) (w : Who) (va : DWord) : Dev :=
  if (codeHit d w va).isSome then d
  else match fetchTarget d w va with
    | .error _ => d
    | .ok (t, ads) =>
      let d := touch d w.ctx ads
      match t with
      | .mem pa pg =>
        let d := noteRead d pa pg
        if d.opt 2 / 2 % 2 = 1 then
          let l : CodeLine := { asid := w.asid d, va := va.toNat / 64 * 64
                                data := (d.mem.slice (pa / 64 * 64) 64).map (fun b => (b.1 % 64, b.2)) }
          d.modCore w.core (fun c => { c with code := l :: c.code.filter (fun x => !(x.asid == l.asid && x.va == l.va)) })
        else d
      | _ => d

/-! ### Chain groups (R50, R59 to R61) -/

/-- A word of a chain group with its prefix. -/
structure GWord where
  wpc : DWord
  word : Word
  pfx : Option Pfx := none
  deriving DecidableEq, Repr

/-- Position of a word in its packet. -/
def GWord.pos (g : GWord) : Nat := g.wpc.toNat % 12 / 4

/-- What fetch and decode make of the group at an address. -/
structure Parsed where
  /-- The words that take effect, prefixes folded in. -/
  words : List GWord := []
  /-- Breaches of R50 and R60: REASON and the breaking word. -/
  broken : List (Nat × GWord) := []
  /-- The word that cannot be fetched. -/
  bad : Option (DWord × MErr) := none
  /-- Every address fetched. -/
  fetched : List DWord := []
  /-- The address of the chain group that follows. -/
  next : DWord
  deriving DecidableEq, Repr

/-- The word as it may be chained or prefixed. -/
def isPfx (w : Word) : Bool := fieldN w 28 3 == 6

/-- The never-assigned words (R72). -/
def isNever (w : Word) : Bool := w == 0 || w == 0xFFFFFFFF

/-- Fetches the words of a group from position 3 - `n` on; `pend` is the prefix before this word, and `skip` the
words suppressed once (R182). -/
def parseGroup (fetch : DWord → Except MErr Word) (skip : List DWord) : Nat → DWord → Option GWord → Parsed → Parsed
  | 0, _, _, r => r
  | n + 1, pc, pend, r =>
    match fetch pc with
    | .error x => { r with bad := some (pc, x) }
    | .ok w =>
      let g : GWord := { wpc := pc, word := w, pfx := pend.map (fun p => decodePfx p.word) }
      let r := { r with fetched := r.fetched ++ [pc], next := pc + 4 }
      let dropped := skip.contains pc
      let wrong : List (Nat × GWord) := match pend with
        | some p => if fieldN w 28 3 ≤ 2 then [] else [(5, p)]
        | none => []
      if isPfx w then
        let g := { g with pfx := none }
        if dropped then parseGroup fetch skip n (pc + 4) none r
        else parseGroup fetch skip n (pc + 4) (some g) { r with
          broken := r.broken ++ wrong ++ (if n = 0 then [(4, g)] else []) ++ (if w.getLsbD 31 then [(6, g)] else []) }
      else
        let chain := w.getLsbD 31 && !isNever w
        let r := if dropped then r else { r with
          words := r.words ++ [g]
          broken := r.broken ++ wrong ++ (if chain && n == 0 && fieldN w 28 3 != 4 then [(1, g)] else []) }
        if chain then parseGroup fetch skip n (pc + 4) none r else r

/-- The pipe of a word by its class and opcode (R49): 2 for F, none for a class-4 word. -/
def pipeCode (w : Word) : Option Nat :=
  match fieldN w 28 3 with
  | 0 => some 0
  | 1 => if 0x20 ≤ fieldN w 22 6 ∧ fieldN w 22 6 ≤ 0x2B then some 1 else some 2
  | 2 => some 3
  | 3 => some 4
  | 5 => some 5
  | 7 => some 6
  | _ => none

/-- The destinations a word counts under R50, numbered apart by file: physical vector registers, scalar
registers, predicates and special registers. -/
def destCodes (base : Nat) (w : Word) : List Nat :=
  match pick w with
  | none => []
  | some i =>
    let p := i.props
    let vec (f k : Nat) : List Nat := (List.range k).map (fun j => 4 * (f + j))
    let file (k : Nat) (ns : List Nat) : List Nat := (ns.filter (fun n => n != 0)).map (fun n => 4 * n + k)
    p.vd.flatMap (fun x => vec (base * 16 + x.1) x.2) ++
      (match p.link with
        | some inc => vec ((base + inc) * 16) 2
        | none => []) ++
      file 1 p.sd ++ file 2 p.pd.toList ++ (p.srd.toList).map (fun n => 4 * n + 3)

/-- Pipe clashes and duplicate destinations: REASONs 2 and 3 (R50). -/
def clashes (base : Nat) : List GWord → List GWord → List (Nat × GWord)
  | _, [] => []
  | before, g :: r =>
    let same := (before.filter (fun b => pipeCode b.word == pipeCode g.word)).length
    let full := match pipeCode g.word with
      | none => false
      | some 2 => decide (2 ≤ same)
      | some _ => decide (1 ≤ same)
    let ds := destCodes base g.word
    let dup := before.any (fun b => (destCodes base b.word).any (fun x => ds.contains x))
    (if full then [(2, g)] else []) ++ (if dup then [(3, g)] else []) ++ clashes base (before ++ [g]) r

/-- The breach that ENCODING names: the lowest position, then the lowest REASON (R73). -/
def worstBreach (l : List (Nat × GWord)) : Option (Nat × GWord) :=
  l.foldl (fun (b : Option (Nat × GWord)) x => match b with
    | none => some x
    | some y => if x.2.pos < y.2.pos ∨ x.2.pos = y.2.pos ∧ x.1 < y.1 then some x else some y) none

/-! ### The fate of a group (R52, R72, R73) -/

/-- A word's meaning, or the fate of a word that is none. -/
def runWord (ex : Meaning) (w : Word) (s : State) : Host.Outcome State Fault Refusal :=
  match decode w with
  | .ok i => ex i s
  | .error _ => execUnassignedEncoding { word := w } s

/-- The issue of one word of a group. -/
def Issue.at_ (c : Issue) (g : GWord) : Issue := { c with word := g.word, wpc := g.wpc, pfx := g.pfx }

/-- The state with an issue in progress. -/
def State.issuing (s : State) (c : Issue) : State := { s with dev := { s.dev with cur := c } }

/-- What a word would raise. -/
def probe (ex : Meaning) (s : State) (c : Issue) (g : GWord) : Option Raise :=
  match runWord ex g.word (s.issuing { c.at_ g with probe := true, raised := none }) with
  | .next t => t.dev.cur.raised
  | _ => none

/-! ### Events -/

/-- The meaning of an event. -/
def runEvent (i : Ev.Event) (s : State) : Host.Outcome State Fault Refusal :=
  match i with
  | .loadReturn p => execLoadReturn p s
  | .commandReply p => execCommandReply p s
  | .fenceScComplete p => execFenceScComplete p s
  | .watchdogExpiry p => execWatchdogExpiry p s
  | .haltComplete p => execHaltComplete p s
  | .chunkComplete p => execChunkComplete p s
  | .copyFaultSettle p => execCopyFaultSettle p s
  | .copyQuiesceTimeout p => execCopyQuiesceTimeout p s
  | .matrixOpDequeue p => execMatrixOpDequeue p s
  | .kennelDeadline p => execKennelDeadline p s
  | .engineEntry p => execEngineEntry p s
  | .matrixResultWrite p => execMatrixResultWrite p s
  | .weightFillComplete p => execWeightFillComplete p s
  | .drainRowPerform p => execDrainRowPerform p s
  | .msigArrival p => execMsigArrival p s
  | .taskDispatch p => execTaskDispatch p s
  | .gangReservation p => execGangReservation p s
  | .gangReservationTimeout p => execGangReservationTimeout p s
  | .tileRetire p => execTileRetire p s
  | .ucieMirrorMessage p => execUcieMirrorMessage p s
  | .reexecPlacementTimeout p => execReexecPlacementTimeout p s
  | .preemptionTimeout p => execPreemptionTimeout p s
  | .contextSave p => execContextSave p s
  | .contextRestore p => execContextRestore p s
  | .starvationRestore p => execStarvationRestore p s
  | .submissionConsume p => execSubmissionConsume p s
  | .sqDoorbell p => execSqDoorbell p s
  | .attachWrite p => execAttachWrite p s
  | .ctxCsplitWrite p => execCtxCsplitWrite p s
  | .registerWrite p => execRegisterWrite p s
  | .hostBar2Access p => execHostBar2Access p s
  | .hostAtomicop p => execHostAtomicop p s
  | .fbRelease p => execFbRelease p s
  | .fbReleaseAll p => execFbReleaseAll p s
  | .fbAbort p => execFbAbort p s
  | .lostLineEntryClear p => execLostLineEntryClear p s
  | .flipsRead p => execFlipsRead p s
  | .gddrCounterRead p => execGddrCounterRead p s
  | .sentinelCounterRead p => execSentinelCounterRead p s
  | .mgcmdGate p => execMgcmdGate p s
  | .mgcmdUngate p => execMgcmdUngate p s
  | .mgcmdRetireBus p => execMgcmdRetireBus p s
  | .mgcmdShutdownLayer p => execMgcmdShutdownLayer p s
  | .mgcmdComplete => execMgcmdComplete s
  | .attestationRequest => execAttestationRequest s
  | .attestationComplete => execAttestationComplete s
  | .powerOn => execPowerOn s
  | .heartbeatTick => execHeartbeatTick s
  | .timeSync p => execTimeSync p s
  | .readCountWindow p => execReadCountWindow p s
  | .lineReplication p => execLineReplication p s
  | .loopPortPowerDown p => execLoopPortPowerDown p s
  | .loopPortWake p => execLoopPortWake p s
  | .dirtyBudgetWriteback p => execDirtyBudgetWriteback p s
  | .cacheLayerShutdown p => execCacheLayerShutdown p s
  | .busEvacuation p => execBusEvacuation p s
  | .columnRemoval p => execColumnRemoval p s
  | .gddrTransferError p => execGddrTransferError p s
  | .vfControlTick => execVfControlTick s
  | .vfTransitionComplete p => execVfTransitionComplete p s
  | .sensorSample p => execSensorSample p s
  | .thermalPowerDown p => execThermalPowerDown p s
  | .sentinelRun p => execSentinelRun p s
  | .ucieLinkDown => execUcieLinkDown s
  | .ethReadyMessage p => execEthReadyMessage p s
  | .ethLaunchRecord p => execEthLaunchRecord p s
  | .ethCompletion p => execEthCompletion p s
  | .ethAck p => execEthAck p s
  | .ethStreamData p => execEthStreamData p s
  | .ethRetransmit p => execEthRetransmit p s
  | .ethPeerTimeout p => execEthPeerTimeout p s
  | .vblank p => execVblank p s
  | .unassignedEncoding p => execUnassignedEncoding p s
  | .hostReleasesReset => execHostReleasesReset s
  | .hostRead p => execHostRead p s
  | .hostConfig p => execHostConfig p s

/-- A step that a register access of a word starts: it follows within the step of the word (R126, R130, R414). -/
def isRegStep (i : Ev.Event) : Bool :=
  match i with
  | .sqDoorbell _ | .attachWrite _ | .ctxCsplitWrite _ | .registerWrite _ | .fbRelease _ | .fbReleaseAll _ | .fbAbort _
  | .lostLineEntryClear _ | .flipsRead _ | .gddrCounterRead _ | .sentinelCounterRead _ | .mgcmdGate _ | .mgcmdUngate _
  | .mgcmdRetireBus _ | .mgcmdShutdownLayer _ | .attestationRequest => true
  | _ => false

/-- The register steps that a word has started, from place `n0` of the agenda on, in their order. -/
def drainRegs (n0 : Nat) : Nat → State → Host.Outcome State Fault Refusal
  | 0, s => .next s
  | n + 1, s =>
    match s.dev.agenda.zipIdx.find? (fun x => decide (n0 ≤ x.2) && isRegStep x.1) with
    | none => .next s
    | some (ev, i) =>
      match runEvent ev { s with dev := { s.dev with agenda := s.dev.agenda.eraseIdx i } } with
      | .next t => drainRegs n0 n t
      | x => x

/-- One word of an issue takes effect, with the register steps that it starts. -/
def issueWord (ex : Meaning) (c : Issue) (s : State) : Host.Outcome State Fault Refusal :=
  match runWord ex c.word (s.issuing c) with
  | .next t => drainRegs s.dev.agenda.length 256 t
  | x => x

/-- The words of a group in the order in which the step takes them: a read of a special register first and a write
of one last, so that every word of the group meets the registers as they stood (R51, R203); the others by address. -/
def groupOrder (ws : List GWord) : List GWord :=
  let key (g : GWord) : Nat := match pick g.word with
    | some (.srd _) => 0
    | some (.sxch f) => if f.n = 0x43 then 0 else 2
    | some (.swr _) => 2
    | _ => 1
  [0, 1, 2].flatMap (fun k => ws.filter (fun g => key g == k))

/-- The words of a group, each reading the registers as `snap` holds them (R51). -/
def runWords (ex : Meaning) (c : Issue) : List GWord → State → Host.Outcome State Fault Refusal
  | [], s => .next s
  | g :: r, s =>
    match issueWord ex (c.at_ g) s with
    | .next t => runWords ex c r t
    | x => x

/-- What the words of a group raise, each checked in the state that the words before it leave, so that it acts on what
its checks found (R51, R94); a word that raises has no effect on those behind it. -/
def tryWords (ex : Meaning) (c : Issue) : List GWord → State → List (GWord × Raise)
  | [], _ => []
  | g :: r, s =>
    match probe ex s c g with
    | some x => (g, x) :: tryWords ex c r s
    | none => if r.isEmpty then [] else
      match issueWord ex (c.at_ g) s with
      | .next t => tryWords ex c r t
      | _ => []

/-- The issue of a group's words: a longer group reads the warp as it stands (R51). -/
def Issue.snapped (c : Issue) (d : Dev) (ws : List GWord) : Issue :=
  if ws.length < 2 then { c with snap := none } else { c with snap := some (d.warp c.core c.slot) }

/-- Rank of a raise: the rows of R72, then a hold, a delivered cause, a replay. -/
def Raise.rank : Raise → Nat
  | .cause r _ _ _ _ _ _ => if r < 5 then r else 6
  | .hold => 5
  | .replay _ => 7

/-- The raise that decides a group: the lowest rank, the first word on a tie. -/
def worstRaise (l : List (GWord × Raise)) : Option (GWord × Raise) :=
  l.foldl (fun (b : Option (GWord × Raise)) x => match b with
    | none => some x
    | some y => if x.2.rank < y.2.rank then some x else some y) none

/-- What an issuer's next group comes to. -/
inductive Plan where
  /-- Not eligible. -/
  | hold
  /-- The group raises; the issue stands at the word recorded. -/
  | raise (c : Issue) (r : Raise)
  /-- The group takes effect, or is an unchained `NOPK`, or is wholly suppressed. -/
  | go (c : Issue) (ws : List GWord)
  deriving DecidableEq, Repr

/-- The plan is to hold. -/
def Plan.held : Plan → Bool
  | .hold => true
  | _ => false

/-- A raise, unless it is a hold: the word's own, or EMULATE outside the host of an open level (R384). -/
def settle (d : Dev) (c : Issue) (r : Raise) : Plan :=
  match r with
  | .hold => .hold
  | .cause _ .emulate _ _ _ _ _ =>
    if !c.stream && !(d.warp c.core c.slot).levels.isEmpty && !(d.warp c.core c.slot).inHost c.lanes then .hold else .raise c r
  | _ => .raise c r

/-- The plan of a group from its parse: a word that cannot be fetched, the fates of R72 in their ranks, then
what the words' own checks raise. -/
def planGroup (ex : Meaning) (s : State) (c : Issue) (r : Parsed) : Plan :=
  match r.bad with
  | some (va, x) =>
    let c := { c with wpc := va, word := 0, pfx := none }
    let a : Acc := { lane := lowLane c.lanes, va := va, total := 4 }
    match raiseOf (s.issuing c).dev 3 [(a, x)] with
    | some y => settle s.dev c y
    | none => .hold
  | none =>
    let c := { c with next := r.next }
    let enc : List (GWord × Raise) := match worstBreach (if c.stream then [] else r.broken ++ clashes c.base [] r.words) with
      | some (k, g) => [(g, .cause 1 .encoding (g.pos + k * 4) g.word.toNat 0 g.word 0)]
      | none => []
    let tried := tryWords ex (c.snapped s.dev r.words) (groupOrder r.words) s
    let own := r.words.flatMap (fun g => tried.filter (fun x => x.1 == g))
    match worstRaise (enc ++ own) with
    | none => .go c r.words
    | some (g, x) => settle s.dev (c.at_ g) x

/-! ### Batches (R156 to R158) -/

/-- A batch of a warp. -/
structure Bat where
  core : Nat
  slot : Nat
  lanes : Word
  pc : DWord
  base : Nat
  /-- The words of its group that are suppressed once (R182). -/
  sup : List DWord
  age : Nat
  yielded : Bool
  deriving DecidableEq, Repr

/-- The words that are suppressed when a lane issues at its PC. -/
def Warp.supLane (w : Warp) (l : Nat) (f : Fibre) : List DWord :=
  (w.suppress.filter (fun x => x.lanes.getLsbD l && x.gpc == f.pc)).map (·.word)

/-- One batch before another: by PC, then window base. -/
def Bat.before (a b : Bat) : Bool :=
  decide (a.pc.toNat < b.pc.toNat) || (a.pc == b.pc && (decide (a.base < b.base) || (a.base == b.base && decide (b.sup.length < a.sup.length))))

/-- A lane joins the batch of its PC and window base, batches kept in order. -/
def addLane (x : Bat) : List Bat → List Bat
  | [] => [x]
  | b :: r =>
    if b.pc = x.pc ∧ b.base = x.base ∧ b.sup = x.sup then
      { b with lanes := b.lanes ||| x.lanes, age := max b.age x.age, yielded := b.yielded || x.yielded } :: r
    else if x.before b then x :: b :: r
    else b :: addLane x r

/-- The batches of a warp: live, unparked fibres that no level of the warp holds and that may issue since they woke,
of equal PC and base. -/
def batches (d : Dev) (core slot : Nat) : List Bat :=
  let w := d.warp core slot
  w.fib.foldl (fun bs p =>
    let f := p.2
    if f.live && f.park == .running && w.mayIssue.getLsbD p.1 && decide (f.wake ≤ d.clk core) then
      addLane { core := core, slot := slot, lanes := 1#32 <<< p.1, pc := f.pc, base := f.base, sup := w.supLane p.1 f
                age := f.age, yielded := f.yielded } bs
    else bs) []

/-- Registers of a warp with a write pending: vector registers of the allocation, and scalar registers. -/
def pending (d : Dev) (core slot : Nat) : List Nat × List Nat :=
  let here (c s : Nat) : Bool := c == core && s == slot
  let rc (p : Ev.ReadClear) : List Nat × List Nat :=
    if here p.core p.slot then (p.vec.map (· / 32), p.sca.toList) else ([], [])
  let es := d.agenda.map (fun e => match e with
    | .loadReturn p => if here p.core p.slot then (p.vec.map (fun (x : Nat × Word) => x.1 / 32), p.sca.map (fun (x : Nat × DWord) => x.1)) else ([], [])
    | .commandReply p => if here p.core p.slot then ([], [p.d]) else ([], [])
    | .flipsRead p | .gddrCounterRead p | .sentinelCounterRead p => rc p
    | _ => ([], []))
  let rs : List Ev.Reply := (d.core core).copies.flatMap (fun o => o.2.reply) ++ d.walking.map (·.reply) ++ d.invals.map (·.reply)
  let gs := d.mgmt.gating.filterMap (·.reply) ++ d.mgmt.ungating.map (·.2)
  (es.flatMap (fun (x : List Nat × List Nat) => x.1), es.flatMap (fun (x : List Nat × List Nat) => x.2) ++ (rs.filter (fun x => here x.core x.slot)).map (·.d) ++
    (gs.filter (fun x => here x.core x.slot)).map (·.d))

/-- A word is an `EMURD` or `EMUWR`, which names its register only at run time (R207). -/
def isEmu (w : Word) : Bool :=
  match pick w with
  | some (.emurd _) => true
  | some (.emuwr _) => true
  | _ => false

/-- A word reads or writes a register with a write pending, or is a copy command of a group being saved. -/
def waits (d : Dev) (gid base : Nat) (pend : List Nat × List Nat) (g : GWord) : Bool :=
  match pick g.word with
  | none => false
  | some i =>
    let p := i.props
    let pc := match g.pfx with
      | some x => if x.cv then [(x.c.toNat, p.cv)] else []
      | none => []
    let link := match p.link with
      | some inc => [(inc * 16, 2)]
      | none => []
    (isEmu g.word && !(pend.1.isEmpty && pend.2.isEmpty)) ||
      (p.vd ++ p.vs ++ pc ++ link).any (fun x => (List.range x.2).any (fun k => pend.1.contains (base * 16 + x.1 + k))) ||
      (p.sd ++ p.ss).any (fun n => n != 0 && pend.2.contains n) ||
      (p.cls == 5 && p.eng == 0 && (d.grp gid).saving)

/-- The registers and predicates that a word reads, numbered as `destCodes` numbers them; with CV = 1 the addend is at c and
not at d, which stands last (R185). -/
def srcCodes (base : Nat) (g : GWord) : List Nat :=
  match pick g.word with
  | none => []
  | some i =>
    let p := i.props
    let mp := (g.pfx.map (fun x => x.mp.toNat)).getD 0
    let (vs, pc) := match g.pfx with
      | some x => if x.cv then (p.vs.dropLast, [(x.c.toNat, p.cv)]) else (p.vs, [])
      | none => (p.vs, [])
    (vs ++ pc).flatMap (fun x => (List.range x.2).map (fun j => 4 * (base * 16 + x.1 + j))) ++
      p.ss.map (fun n => 4 * n + 1) ++ ((if mp = 0 then p.ps else [mp]).filter (fun n => n != 0)).map (fun n => 4 * n + 2)

/-- A result that a word reads is not readable yet, or its S pipe is busy (R158, R212). -/
def pipeHold (d : Dev) (b : Bat) (g : GWord) : Bool :=
  let w := d.warp b.core b.slot
  let (t, f) := (d.core b.core).pipeS.get (b.slot % 4) (0, 0)
  (srcCodes b.base g).any (fun k => decide (d.clk b.core < w.readyAt.get k 0)) ||
    (isEmu g.word && w.readyAt.any (fun x => decide (d.clk b.core < x.2))) ||
    (pipeCode g.word == some 1 && decide (t < d.clk b.core ∧ d.clk b.core < f))

/-- The lanes of a warp whose vector registers data is on its way to. -/
def lanesDue (d : Dev) (core slot : Nat) : Word :=
  maskOf (d.agenda.flatMap (fun e => match e with
    | .loadReturn p => if p.core = core ∧ p.slot = slot then p.vec.map (fun (x : Nat × Word) => x.1 % 32) else []
    | .flipsRead p | .gddrCounterRead p | .sentinelCounterRead p => if p.core = core ∧ p.slot = slot then p.vec.map (· % 32) else []
    | _ => []))

/-- An `FEXIT` waits for the data on its way to the registers of the lanes it ends, which they then keep (R178, R262;
log 83). -/
def exitHold (d : Dev) (b : Bat) (g : GWord) : Bool :=
  (match pick g.word with
    | some (.fexit _) => true
    | _ => false) && lanesDue d b.core b.slot &&& b.lanes != 0

/-- A word is a COPY-engine command (R267). -/
def isCopyCmd (w : Word) : Bool := fieldN w 28 3 == 5 && fieldN w 25 3 == 0

/-- The words of a group are marked: when their results can be read, the S pipe's use (R212), and the core's one
command of the cycle to its copy engine (R267). -/
def markIssue (d : Dev) (b : Bat) (ws : List GWord) : Dev :=
  let is_ := ws.filterMap (fun g => (pick g.word).map (fun i => (g, i.props)))
  let late := is_.flatMap (fun x => if x.2.lat = 0 then [] else (destCodes b.base x.1.word).map (fun k => (k, d.clk b.core + x.2.lat)))
  let d := if late.isEmpty then d else d.modWarp b.core b.slot (fun w => { w with
    readyAt := late.foldl (fun m x => m.set x.1 x.2) (w.readyAt.filter (fun x => decide (d.clk b.core < x.2))) })
  let d := match is_.find? (fun x => x.2.pipe == .S) with
    | some x =>
      let c0 := d.clk b.core
      d.modCore b.core (fun c => { c with pipeS := c.pipeS.set (b.slot % 4) (c0, c0 + x.2.busy) })
    | none => d
  if ws.any (fun g => isCopyCmd g.word) then { d with turn := d.turn ++ [b.core * 8 + 5] } else d

/-- The parse of a batch's next group. -/
def parseBatch (d : Dev) (b : Bat) : Parsed :=
  let w := d.warp b.core b.slot
  let who : Who := { gid := w.gid, ctx := (d.grp w.gid).ctx, core := b.core }
  parseGroup (fetchWord d who) b.sup (3 - b.pc.toNat % 12 / 4) b.pc none { next := b.pc }

/-- The issue of a batch's next group. -/
def batchIssue (d : Dev) (b : Bat) : Issue :=
  { core := b.core, slot := b.slot, gid := (d.warp b.core b.slot).gid, lanes := b.lanes, base := b.base
    gpc := b.pc, wpc := b.pc, pkt := b.pc - BitVec.ofNat 64 (b.pc.toNat % 12), next := b.pc, sup := b.sup }

/-- The plan of a batch.  It is held while a `FENCE.SC` of its is outstanding (R139), while a register that a word
names has a write on its way or a pipe is busy (R158), while a VFLT word of the warp is not complete and an enable bit
is set (R213), and while the core has sent its copy engine a command in this cycle (R267). -/
def planBatch (ex : Meaning) (s : State) (b : Bat) : Plan :=
  let d := s.dev
  let w := d.warp b.core b.slot
  let fenced := match w.fenceSc with
    | some (m, _) => m &&& b.lanes != 0
    | none => false
  if fenced || (!w.flagsDue.isEmpty && fieldN w.rmode 16 5 != 0) then .hold
  else
    let r := parseBatch d b
    let pend := pending d b.core b.slot
    let busy (g : GWord) : Bool := waits d w.gid b.base pend g || pipeHold d b g || exitHold d b g ||
      (isCopyCmd g.word && d.turn.contains (b.core * 8 + 5))
    if r.bad.isNone && r.words.any busy then .hold
    else planGroup ex s (batchIssue d b) r

/-- An unchained `NOPK`, or a group of suppressed words, takes no issue cycle (R51, R182). -/
def Plan.free : Plan → Bool
  | .go _ [] => true
  | .go _ [g] => g.word == 0x33000000 && g.pfx.isNone
  | _ => false

/-! ### Halt and skid (R379) -/

/-- A halt leaves a group's issuers no further cycle. -/
def haltOver (d : Dev) (gid : Nat) : Bool :=
  match (d.grp gid).halt with
  | none => false
  | some h => decide (h.c + (if h.save ∨ gid = h.ogid then 3 else 12) < d.clk (d.grp gid).core)

/-- A warp may issue: nothing stops it, and it is not where a halt began. -/
def warpMay (d : Dev) (core slot : Nat) : Bool :=
  let w := d.warp core slot
  let origin := match (d.grp w.gid).halt with
    | some h => !h.save && !h.ostream && h.ogid == w.gid && h.oslot == slot
    | none => false
  !w.stopped && !w.skidStop && !origin && !haltOver d w.gid

/-- A delivered cause of a group that is halting already: the issuer stops before it; a trap of the cycle in which a save
reaches the group is taken first. -/
def skids (d : Dev) (gid : Nat) (p : Plan) : Bool :=
  ((d.grp gid).halt.map (fun h => !(h.save && h.c == d.clk (d.grp gid).core))).getD false && (match p with
    | .raise _ (.cause ..) => true
    | _ => false)

/-! ### Selection (R159, R163) -/

/-- The age at which a batch is forced. -/
def forcedAge (w : Warp) : Nat := 2 ^ (5 + fieldN w.wctl 4 4)

/-- The better of two eligible batches of a warp with PROGRESS = 1. -/
def Bat.better (lim : Nat) (a b : Bat) : Bool :=
  let fa := decide (lim ≤ a.age)
  let fb := decide (lim ≤ b.age)
  if fa != fb then fa
  else if a.yielded != b.yielded then b.yielded
  else if fa && a.age != b.age then decide (b.age < a.age)
  else a.before b

/-- A warp's candidate with its plan. -/
def warpCand (ex : Meaning) (s : State) (core slot : Nat) : Option (Bat × Plan) :=
  let d := s.dev
  if !warpMay d core slot then none
  else
    let w := d.warp core slot
    let bs := batches d core slot
    if w.wctl.getLsbD 0 then
      (bs.map (fun b => (b, planBatch ex s b))).foldl (fun (x : Option (Bat × Plan)) p =>
        if p.2.held then x
        else match x with
          | none => some p
          | some y => if p.1.better (forcedAge w) y.1 then some p else some y) none
    else match bs with
      | [] => none
      | b :: _ => match planBatch ex s b with
        | .hold => none
        | p => some (b, p)

/-- The warp slots in use on a core. -/
def slotsOf (d : Dev) (core : Nat) : List Nat :=
  (d.warps.filter (fun p => p.1 / 64 == core)).map (fun p => p.1 % 64)

/-- A candidate stands as forced. -/
def isForced (d : Dev) (b : Bat) : Bool :=
  let w := d.warp b.core b.slot
  w.wctl.getLsbD 0 && decide (forcedAge w ≤ b.age)

/-- Select (R159). -/
def selectQuad (ex : Meaning) (s : State) (core q : Nat) : Option (Bat × Plan) :=
  let d := s.dev
  let cs := ((slotsOf d core).filter (fun k => k % 4 == q)).filterMap (fun k => warpCand ex s core k)
  match (cs.filter (fun x => isForced d x.1)).foldl (fun (b : Option (Bat × Plan)) x => match b with
    | none => some x
    | some y => if y.1.age < x.1.age then some x else some y) none with
  | some x => some x
  | none =>
    let after := match (d.core core).last.find? q with
      | some k => cs.find? (fun x => decide (k < x.1.slot))
      | none => none
    match after with
    | some x => some x
    | none => cs.head?

/-! ### The matrix sequencer (R311, R314) -/

/-- The issue of a stream's next word. -/
def streamIssue (d : Dev) (gid : Nat) : Issue :=
  let g := d.grp gid
  let pc := (g.stream.getD noStream).pc
  { stream := true, core := g.core, slot := g.slots.headD 0, gid := gid, gpc := pc, wpc := pc
    pkt := pc - BitVec.ofNat 64 (pc.toNat % 12), next := pc + 4 }

/-- A stream may issue: it runs, nothing stops it, no handler level of its frame is open (R384), and its pins are loaded
again after a restore (R310). -/
def streamMay (d : Dev) (gid : Nat) : Bool :=
  let g := d.grp gid
  match g.stream with
  | none => false
  | some st => st.park == .running && decide (st.wake ≤ d.clk g.core) && !st.ended && !st.stopped && !st.skidStop && !g.killed && st.reload.isEmpty &&
      !haltOver d gid && !(d.warp g.core (g.slots.headD 0)).levels.any (·.stream) &&
      !(match g.halt with
        | some h => !h.save && h.ostream && h.ogid == gid
        | none => false)

/-- The words of a packet from an address on, as far as they can be fetched; an error where the first cannot. -/
def packetWords (fetch : DWord → Except MErr Word) : Nat → DWord → Except MErr (List Word)
  | 0, _ => .ok []
  | n + 1, pc => match fetch pc with
    | .error x => .error x
    | .ok w => .ok (w :: (match packetWords fetch n (pc + 4) with
      | .ok ws => ws
      | .error _ => []))

/-- The words a stream has in hand at its PC: those left of the packet it fetched, or a packet fetched now (R311). -/
def streamWords (d : Dev) (gid : Nat) : Except MErr (Bool × List Word) :=
  let g := d.grp gid
  let st := g.stream.getD noStream
  let pc := st.pc
  let now_ (_ : Unit) := (packetWords (fetchWord d { gid := gid, ctx := g.ctx, core := g.core }) (3 - pc.toNat % 12 / 4) pc).map (fun ws => (true, ws))
  match st.buf with
  | some (a, w :: ws) => if a = pc then .ok (false, w :: ws) else now_ ()
  | _ => now_ ()

/-- The plan of a stream: every word issues alone (R53). -/
def planStream (ex : Meaning) (s : State) (gid : Nat) : Plan :=
  let d := s.dev
  let g := d.grp gid
  let c := streamIssue d gid
  if (g.stream.getD noStream).skip = some c.gpc then .go c []
  else
    match streamWords d gid with
    | .error x => planGroup ex s c { next := c.next, bad := some (c.gpc, x) }
    | .ok (_, ws) => planGroup ex s c { next := c.next, words := (ws.take 1).map (fun w => { wpc := c.gpc, word := w }) }

/-- The stream of a core that issues next, from the one after the last. -/
def selectStream (ex : Meaning) (s : State) (core : Nat) : Option (Nat × Plan) :=
  let d := s.dev
  let ids := (d.groups.filter (fun p => p.2.core == core && p.2.stream.isSome)).map (·.1)
  let cs := (ids.filter (streamMay d)).filterMap (fun k => match planStream ex s k with
    | .hold => none
    | p => some (k, p))
  match cs.find? (fun x => decide ((d.core core).lastStream < x.1)) with
  | some x => some x
  | none => cs.head?

/-! ### Issuing -/

/-- The batch has issued in this cycle: its turn, its age and marks. -/
def tookTurn (b : Bat) (d : Dev) : Dev :=
  let d := d.modWarp b.core b.slot (fun w => w.onLanes b.lanes (fun f => { f with age := 0, yielded := false, barked := false }))
  let d := d.modCore b.core (fun c => { c with last := c.last.set (b.slot % 4) b.slot })
  let k := wkey b.core b.slot
  { d with turn := d.turn ++ [b.core * 8 + b.slot % 4], took := d.took.set k (d.took.get k 0 ||| b.lanes) }

/-- The words were fetched by an issuer. -/
def fetchedAll (d : Dev) (c : Issue) (vas : List DWord) : Dev :=
  let who : Who := { gid := c.gid, ctx := (d.grp c.gid).ctx, core := c.core }
  vas.foldl (fun d va => fetchNote d who va) d

/-- The batch stands at the group that follows, its suppressed words used up; behind a fence among them the L1 drops its
writable lines once more (R136, R139). -/
def passOn (d : Dev) (b : Bat) (next : DWord) : Dev :=
  let d := if (d.warp b.core b.slot).suppress.any (fun x => x.fence && x.gpc == b.pc && x.lanes &&& b.lanes != 0)
    then l1DropWr d b.core else d
  d.modWarp b.core b.slot (fun w =>
    { w.onLanes b.lanes (fun f => { f with pc := next }) with
      suppress := (w.suppress.map (fun x => if x.gpc = b.pc then { x with lanes := x.lanes &&& ~~~b.lanes } else x)).filter
        (fun x => x.lanes != 0) })

/-- The group counts as issued: TPC and, in the cycles after `c` of a halt, the skid (R379, R380). -/
def countIssue (d : Dev) (b : Bat) : Dev :=
  let halting := ((d.grp (d.warp b.core b.slot).gid).halt.map (fun h => decide (h.c < d.clk b.core))).getD false
  d.modWarp b.core b.slot (fun w =>
    let w := { w with lastPc := b.pc }
    if halting then { w with skidGroups := w.skidGroups + 1, skidLast := d.clk b.core } else w)

/-! ### Words taking effect -/

/-- The state in which the words of a batch's group take effect: fetched, counted, the batch's PC at the group
that follows. -/
def readyState (s : State) (b : Bat) (c : Issue) (ws : List GWord) : State :=
  let d := tookTurn b (fetchedAll s.dev c (parseBatch s.dev b).fetched)
  { s with dev := countIssue (markIssue (passOn d b c.next) b ws) b }

/-- The `FENCE.SC` of a group in which words stand behind it and a lane takes part in it: the group waits for it (R139).
It issues alone, and when it has completed the group issues without it. -/
def fenceOf (d : Dev) (ws : List GWord) : Option GWord :=
  (ws.dropLast).find? (fun g => (match pick g.word with
    | some (.fenceSc _) => true
    | _ => false) && { d with cur := { d.cur with pfx := g.pfx } }.active != 0)

/-- The state in which such a fence issues: the batch stands at its group, which will leave the fence out. -/
def fenceState (s : State) (b : Bat) (c : Issue) (g : GWord) : State :=
  let d := tookTurn b (fetchedAll s.dev c (parseBatch s.dev b).fetched)
  { s with dev := d.modWarp b.core b.slot (fun w => { w with
      suppress := w.suppress ++ [{ gpc := b.pc, word := g.wpc, lanes := b.lanes, fence := true }] }) }

/-- A batch's plan is carried out. -/
def runBatch (ex : Meaning) (b : Bat) (p : Plan) (s : State) : Host.Outcome State Fault Refusal :=
  match p with
  | .hold => .next s
  | .raise c r =>
    if skids s.dev c.gid p then s.run (fun _ d => d.modWarp b.core b.slot (fun w => { w with skidStop := true }))
    else s.run (fun e d => takeRaise e { tookTurn b d with cur := c } r)
  | .go c ws =>
    if p.free then s.run (fun _ d => passOn (fetchedAll d c (parseBatch d b).fetched) b c.next)
    else
      match fenceOf (s.issuing c).dev ws with
      | some g => issueWord ex (c.at_ g) (fenceState s b c g)
      | none =>
        let t := readyState s b c ws
        runWords ex (c.snapped t.dev ws) (groupOrder ws) t

/-- The state in which a stream's word takes effect: the packet in hand, the PC at the next word. -/
def readyStream (s : State) (c : Issue) : State :=
  let (new, ws) := match streamWords s.dev c.gid with
    | .ok x => x
    | .error _ => (false, [])
  let d := if new then fetchedAll s.dev c ((List.range ws.length).map (fun i => c.gpc + BitVec.ofNat 64 (4 * i))) else s.dev
  let d := d.modStream c.gid (fun st => { st with pc := c.next, skip := none, buf := some (c.next, ws.drop 1) })
  let d := d.modCore c.core (fun k => { k with lastStream := c.gid })
  { s with dev := { d with turn := d.turn ++ [c.core * 8 + 4] } }

/-- A stream's plan is carried out; a packet in which a word raises is fetched again. -/
def runStream (ex : Meaning) (gid : Nat) (p : Plan) (s : State) : Host.Outcome State Fault Refusal :=
  match p with
  | .hold => .next s
  | .raise c r =>
    if skids s.dev gid p then s.run (fun _ d => d.modStream gid (fun st => { st with skidStop := true }))
    else s.run (fun e d => takeRaise e { d.modStream gid (fun st => { st with buf := none }) with turn := d.turn ++ [c.core * 8 + 4], cur := c } r)
  | .go c ws =>
    match ws with
    | [] => .next (readyStream s c)
    | g :: _ => issueWord ex (c.at_ g) (readyStream s c)

/-! ### What is due -/

/-- Batches whose age has reached their warp's limit (R162): a lane's age raises it once.  A trap of the cycle in which a
save reaches the group is taken first (R379). -/
def watchdogs (d : Dev) (core slot : Nat) : List Ev.Event :=
  let w := d.warp core slot
  let lim := fieldN w.watchdog 0 16 * 256
  let halting := ((d.grp w.gid).halt.map (fun h => !(h.save && h.c == d.clk core))).getD false
  if lim = 0 || w.stopped || halting then []
  else (batches d core slot).filterMap (fun b =>
    if (lanesOf b.lanes).any (fun l => decide (lim ≤ (w.fibre l).age) && !(w.fibre l).barked)
    then some (.watchdogExpiry { core := core, slot := slot, lanes := b.lanes }) else none)

/-- An event when its condition holds. -/
def whenEv (c : Bool) (i : Ev.Event) : List Ev.Event := if c then [i] else []

/-- Operations that leave their queues in one cycle for one column are taken in ascending order of core, then of warp
slot (R304, R322). -/
def leaveFirst (d : Dev) (gid : Nat) : Bool :=
  let g := d.grp gid
  leaveReady d gid && !d.groups.any (fun p => p.2.core / 2 == g.core / 2 &&
    decide (p.2.core < g.core ∨ p.2.core = g.core ∧ p.2.slots.headD 0 < g.slots.headD 0) && leaveReady d p.1)

/-- What is due for a group. -/
def dueGroup (d : Dev) (gid : Nat) (g : Group) : List Ev.Event :=
  whenEv (haltReady d gid) (.haltComplete { gid := gid }) ++
  whenEv (saveReady d gid) (.contextSave { gid := gid }) ++
  whenEv (g.saving && (match g.halt with
      | some h => h.save && decide (h.c + d.coreNs g.core 4000 ≤ d.clk g.core)
      | none => false) && (d.core g.core).copies.any (fun p => p.2.gid == gid && p.2.settling))
    (.copyQuiesceTimeout { gid := gid }) ++
  whenEv (leaveFirst d gid) (.matrixOpDequeue { gid := gid }) ++
  (match g.stream with
    | some st => st.out.flatMap (fun m =>
        (m.rows.filter (drainReady d g.core m.id)).map (fun r => .drainRowPerform { core := g.core, op := m.id, row := r }) ++
        whenEv (msigReady d g.core m.id) (.msigArrival { core := g.core, op := m.id }))
    | none => [])

/-- What is due at a column's engine. -/
def dueColumn (d : Dev) (k : Nat) (c : Column) : List Ev.Event :=
  (c.kennel.filter (fun p => decide (p.2.deadline ≤ d.colClk k))).map (fun p => .kennelDeadline { col := k, idx := p.1 }) ++
  (match entryNow d k with
    | some (i, _, _, _) => [.engineEntry { col := k, idx := i }]
    | none => []) ++
  (c.flying.filter (fun p => decide (p.2.resultAt ≤ d.colClk k))).map (fun p => .matrixResultWrite { col := k, idx := p.1 }) ++
  (c.wbuf.filter (fun p => fillDue d p.1 p.2)).map (fun p => .weightFillComplete { col := k, idx := p.1 })

/-- What is due at a core's copy engine. -/
def dueCopies (d : Dev) (core : Nat) (c : Core) : List Ev.Event :=
  c.copies.flatMap (fun p =>
    whenEv (settleReady d p.2) (.copyFaultSettle { core := core, entry := p.1 }) ++
    p.2.members.zipIdx.flatMap (fun m =>
      let old := oldestOf d p.2 m.1
      ((List.range 65).filter (fun i => chunkReady d core p.1 m.2 (old + i) && !chunkStalls d core p.1 m.2 (old + i))).map (fun i =>
        .chunkComplete { core := core, entry := p.1, member := m.2, chunk := old + i })))

/-- The group of the lowest global core number that may retire, or whose `TRETIRE`s take effect (R353). -/
def nextRetire (d : Dev) : Option Nat :=
  ((d.groups.filter (fun p => !p.2.tretDue.isEmpty || retireReady d p.1)).foldl (fun (b : Option (Nat × Group)) p => match b with
    | none => some p
    | some q => if p.2.core < q.2.core then some p else some q) none).map (·.1)

/-- A tower dispatches in this cycle: its queues and slots allowed it as the previous cycle ended (R354, R373). -/
def dispatchDue (d : Dev) (t : Nat) : Bool := (d.tower t).mayDispatch && (dispatchChoice d t).isSome

/-- What is due of a tower's graph engine beside its dispatch and its retirements. -/
def dueGraph (d : Dev) (t : Nat) : List Ev.Event :=
  whenEv (!(lateGangs d t).isEmpty) (.gangReservationTimeout { tower := t }) ++
  (gangMoves d t).map (fun x => .gangReservation { tower := t, core := x.1 }) ++
  whenEv ((candsOf d t).findSome? (starved d t)).isSome (.preemptionTimeout { tower := t }) ++
  whenEv (lateRedo d t).isSome (.reexecPlacementTimeout { tower := t })

/-- What is due of a tower's memory engine and management. -/
def dueTower (d : Dev) (t : Nat) (w : Tower) : List Ev.Event :=
  whenEv (tooHot d t) (.thermalPowerDown { tower := t }) ++
  ((w.lines.filter (fun l => decide (0 < l.2.reads ∧ w.windows.get (w.bankOf l.1) 0 < d.now / 1024))).map (fun l => w.bankOf l.1)).eraseDups.map
    (fun b => .readCountWindow { bank := t * 64 + b }) ++
  (w.lines.filter (fun l => l.2.ro && decide (256 ≤ l.2.reads) && l.2.replicas.isEmpty && replicaRoom w l.1)).map (fun l =>
    .lineReplication { bank := t * 64 + w.bankOf l.1, line := l.1 }) ++
  (w.portWait.filter (fun p => decide (p.2 + 32 ≤ d.now))).map (fun p => .loopPortWake { bank := t * 64 + p.1 }) ++
  [1, 2].flatMap (fun k => whenEv (decide (dirtyBudget d t (k - 1) < (w.dirtyOn (k - 1)).length)) (.dirtyBudgetWriteback { tower := t, layer := k })) ++
  (w.evac.filter (evacReady d t)).map (fun b => .busEvacuation { bank := t * 64 + b }) ++
  (w.retiring.filter (removalReady d t)).map (fun c => .columnRemoval { tower := t, column := c })

/-- Loop stations whose ports go down: an arrival of the same cycle wins, so these come when nothing else is left in
the cycle (R112). -/
def idlePorts (d : Dev) : List Ev.Event :=
  if d.now < 4096 then []
  else d.towers.flatMap (fun p => ((List.range 64).filter (fun b =>
    !p.2.portDown.contains b && decide (p.2.portIdle.get b 0 + 4096 ≤ d.now))).map (fun b => .loopPortPowerDown { bank := p.1 * 64 + b }))

/-- What is due of the rest of the package. -/
def duePackage (e : Env) (d : Dev) : List Ev.Event :=
  whenEv (e.clk.running && decide (e.clk.nextTick ≤ d.now)) .heartbeatTick ++
  whenEv (e.ready && decide (d.mgmt.vfNext ≤ d.now)) .vfControlTick ++
  whenEv (jobDone d) .mgcmdComplete ++ whenEv d.mgmt.attBusy .attestationComplete ++
  (d.mgmt.vf.filter (fun v => v.2.goal.isSome)).map (fun v =>
    .vfTransitionComplete { tower := v.1 / 128, column := v.1 / 4 % 32, layer := 3 + v.1 % 4 }) ++
  [0, 1].flatMap (fun p => whenEv (ethDead d p) (.ethPeerTimeout { port := p }) ++ whenEv (ethLate d p) (.ethRetransmit { port := p })) ++
  (d.queues.filter (fun q => submitReady e d q.1)).map (fun q => .submissionConsume { queue := q.1 }) ++
  (d.saved.filter (restoreDue d)).map (fun s => .contextRestore { gid := s.gid }) ++
  ((d.saved.map (·.ctx)).eraseDups.filter (fun k => match starvedGroup d k with
    | some s => (restorePlace d s).isSome || (starveVictim d s).isSome
    | none => false)).map (fun k => .starvationRestore { ctx := k })

/-- The fence that completes next: of those whose tick has come, the one of the lowest key (t, tower, column, side,
quadrant, warp slot) (R139). -/
def fenceKey (d : Dev) (k : Nat) : Nat :=
  let t := ((d.warp (k / 64) (k % 64)).fenceSc.bind (·.2)).getD 0
  ((t * 128 + k / 64) * 4 + k % 4) * 64 + k % 64
def firstFence (e : Env) (d : Dev) : Option Nat :=
  ((d.warps.map (·.1)).filter (fun k => fenceReady e d (k / 64) (k % 64))).foldl (fun (b : Option Nat) k => match b with
    | none => some k
    | some y => if fenceKey d k < fenceKey d y then some k else some y) none

/-- Every event of the machine's own that is due in this cycle. -/
def dueEvents (e : Env) (d : Dev) : List Ev.Event :=
  duePackage e d ++
  (match firstFence e d with
    | some k => [.fenceScComplete { core := k / 64, slot := k % 64 }]
    | none => []) ++
  d.warps.flatMap (fun p => watchdogs d (p.1 / 64) (p.1 % 64)) ++
  d.groups.flatMap (fun p => dueGroup d p.1 p.2) ++
  d.cols.flatMap (fun p => dueColumn d p.1 p.2) ++
  d.cores.flatMap (fun p => dueCopies d p.1 p.2) ++
  [0, 1].flatMap (fun t => dueGraph d t) ++
  d.towers.flatMap (fun p => dueTower d p.1 p.2)

/-! ### What a step may do -/

/-- One thing a step may do. -/
inductive Todo where
  /-- Entry `i` of the agenda. -/
  | posted (i : Nat) (ev : Ev.Event)
  | event (ev : Ev.Event)
  | batch (b : Bat) (p : Plan)
  | stream (gid : Nat) (p : Plan)
  /-- The `TRETIRE`s of a group take effect, in their place among the retirements (R353). -/
  | tret (gid : Nat)
  | cycle
  deriving DecidableEq, Repr

/-- A delivered cause, with its group and its place in the order of R378. -/
def Todo.delivers : Todo → Option (Nat × Nat)
  | .batch b (.raise c (.cause ..)) => some (c.gid, b.core * 64 + b.slot)
  | .stream g (.raise c (.cause ..)) => some (g, c.core * 64 + c.slot)
  | _ => none

/-- Two groups are one group, or of one gang. -/
def sameGang (d : Dev) (a b : Nat) : Bool := a == b || (d.grp a).gang.contains b

/-- The issues of this cycle: quadrants and sequencers that have not had their turn.  Of the issuers of one gang
that raise, only the first in the order of R378. -/
def issues (ex : Meaning) (s : State) : List Todo :=
  let d := s.dev
  let cores := ((d.warps.map (fun p => p.1 / 64)).eraseDups).filter (fun k => !d.asleep.contains k)
  let strs := (((d.groups.filter (fun p => p.2.stream.isSome)).map (fun p => p.2.core)).eraseDups).filter (fun k => !d.asleep.contains k)
  let xs := cores.flatMap (fun k => ([0, 1, 2, 3].filter (fun q => !d.turn.contains (k * 8 + q))).filterMap (fun q =>
      (selectQuad ex s k q).map (fun x => Todo.batch x.1 x.2))) ++
    (strs.filter (fun k => !d.turn.contains (k * 8 + 4))).filterMap (fun k => (selectStream ex s k).map (fun x => Todo.stream x.1 x.2))
  xs.filter (fun x => match x.delivers with
    | none => true
    | some (g, k) => !xs.any (fun y => match y.delivers with
      | some (g', k') => sameGang d g g' && decide (k' < k)
      | none => false))

/-- An entry of the agenda can be taken beside the issues of a cycle: data not before its cycle (R261). -/
def postedReady (d : Dev) (ev : Ev.Event) : Bool :=
  match ev with
  | .loadReturn p => decide (p.due ≤ d.clk p.core)
  | .ucieMirrorMessage _ => false
  | _ => true

/-- A message from the other tower stands next in its sequence (R149). -/
def mirrorNext (d : Dev) (ev : Ev.Event) : Bool :=
  match ev with
  | .ucieMirrorMessage p => decide (p.seq = (d.tower (1 - p.src)).mirrorIn)
  | _ => false

/-- Such a message takes effect within 40 cycles of its sending (R365). -/
def mirrorLate (d : Dev) (ev : Ev.Event) : Bool :=
  match ev with
  | .ucieMirrorMessage p => mirrorNext d ev && decide (p.sent + 40 ≤ d.now)
  | _ => false

/-- The outside source of an entry of the agenda, whose entries are taken in their order: 0 the host, 1 and 2 the
Ethernet ports (R148, R149, R419; log 3). -/
def sourceOf (ev : Ev.Event) : Option Nat :=
  match ev with
  | .sqDoorbell _ | .attachWrite _ | .ctxCsplitWrite _ | .registerWrite _ | .hostBar2Access _ | .hostAtomicop _ | .fbRelease _
  | .fbReleaseAll _ | .fbAbort _ | .lostLineEntryClear _ | .mgcmdGate _ | .mgcmdUngate _ | .mgcmdRetireBus _
  | .mgcmdShutdownLayer _ | .attestationRequest | .flipsRead _ | .gddrCounterRead _ | .sentinelCounterRead _ | .hostRead _
  | .hostConfig _ => some 0
  | .ethReadyMessage p | .ethLaunchRecord p | .ethCompletion p | .ethAck p | .ethStreamData p => some (1 + p.port)
  | _ => none

/-- No earlier entry of the agenda has the same source. -/
def firstOfSource (d : Dev) (x : Ev.Event × Nat) : Bool :=
  match sourceOf x.1 with
  | none => true
  | some k => !(d.agenda.take x.2).any (fun y => sourceOf y == some k)

/-- Entries of the agenda of some kind, with their places: of one source the oldest alone. -/
def postedWhere (d : Dev) (p : Ev.Event → Bool) : List Todo :=
  (d.agenda.zipIdx.filter (fun x => p x.1 && firstOfSource d x)).map (fun x => Todo.posted x.2 x.1)

/-- What ends a cycle in which nothing else is left to do: the retirements, the lowest core's first; then, in any order,
the messages of the other tower and the ports that go down; then the next cycle (R112, R353). -/
def lastTodo (d : Dev) : List Todo :=
  match nextRetire d with
  | some g => [if (d.grp g).tretDue.isEmpty then .event (.tileRetire { gid := g }) else .tret g]
  | none =>
    let idle := (idlePorts d).map Todo.event
    postedWhere d (mirrorNext d) ++ idle ++ (if idle.isEmpty && !d.agenda.any (mirrorLate d) then [.cycle] else [])

/-- Everything the machine may do next: at the start of a cycle its dispatches alone (R373); then what is in flight, what
is due and what may issue, in any order, before the end of the cycle. -/
def todo (ex : Meaning) (s : State) : List Todo :=
  let d := s.dev
  match ([0, 1].filter (dispatchDue d)).map (fun t => Todo.event (.taskDispatch { tower := t })) with
  | x :: xs => x :: xs
  | [] =>
    let posted := if d.swept then [] else postedWhere d (postedReady d)
    let own := (dueEvents s.env d).map Todo.event
    let iss := issues ex s
    posted ++ own ++ iss ++ (if own.isEmpty && iss.isEmpty then lastTodo d else [])

/-- The thing that is done: the first, or the one that the choice names (choice 6). -/
def chosen (d : Dev) (l : List Todo) : Todo :=
  match d.opt 6 with
  | 0 => l.headD .cycle
  | k => (l[k % l.length]?).getD .cycle

/-- Saved groups that have been ended retire, and an aborted launch of which no group is left ends (R352, R389, R450). -/
def finishAborted (e : Env) (d : Dev) : Dev :=
  let d := dropKilled e d
  (d.launches.filter (fun p => p.2.aborted && !p.2.finished)).foldl (fun d p => finishLaunch e d p.1) d

/-- Every batch that was eligible in the cycle and did not issue has waited one more cycle (R158). -/
def ageAll (ex : Meaning) (s : State) : Dev :=
  let free : State := { s with dev := { s.dev with turn := [] } }
  s.dev.warps.foldl (fun d p =>
    if s.dev.asleep.contains (p.1 / 64) || !warpMay s.dev (p.1 / 64) (p.1 % 64) then d
    else (batches s.dev (p.1 / 64) (p.1 % 64)).foldl (fun d b =>
      let ls := b.lanes &&& ~~~(s.dev.took.get p.1 0)
      if ls = 0 ∨ (planBatch ex free b).held then d
      else d.modWarp b.core b.slot (fun w => w.onLanes ls (fun f => { f with age := f.age + 1 }))) d) s.dev

/-- The flags of VFLT words that complete in the new cycle land (R212). -/
def landAll (d : Dev) : Dev :=
  d.warps.foldl (fun d p => if p.2.flagsDue.isEmpty then d
    else { d with warps := d.warps.set p.1 (p.2.landFlags (d.clk (p.1 / 64))) }) d

/-- The groups with a matrix stream, in ascending order of core and then of warp slot (R304). -/
def insStream (d : Dev) (g : Nat) : List Nat → List Nat
  | [] => [g]
  | x :: r =>
    let k (n : Nat) : Nat := wkey (d.grp n).core ((d.grp n).slots.headD 0)
    if k g < k x then g :: x :: r else x :: insStream d g r
def streamGroups (d : Dev) : List Nat :=
  (d.groups.filter (fun p => p.2.stream.isSome)).foldl (fun l p => insStream d p.1 l) []

/-- The layers as a new cycle finds them (R338). -/
def layersSeen (d : Dev) : LayerView :=
  { gated := d.mgmt.gated, gating := (d.mgmt.gating.filter (fun g => !g.up)).map (·.key)
    mhz := d.mgmt.vf.map (fun v => (v.1, v.2.mhz)) }

/-- The matrix engines in a new cycle: reads of A that are complete arrive (R304), tiles become free (R315), pins are
loaded again (R310), and each column counts its waits and follows its frequency (R287, R307). -/
def engineCycle (e : Env) (d : Dev) : Dev :=
  let up (k : Nat) : Bool := !d.asleep.contains (k * 2)
  let gs := (streamGroups d).filter (fun g => up ((d.grp g).core / 2))
  let d := gs.foldl (fun d g => opArrive e d g) d
  let d := (gs.map (fun g => (d.grp g).core)).eraseDups.foldl tileStart d
  let d := gs.foldl reloadPins d
  ((d.cols.map (·.1)).filter up).foldl (fun d k => retimeAll (readyTick d k) k) d

/-- Classes that `GPRIO` has set count, and whether each tower may dispatch in a new cycle (R369, R373). -/
def dispatchView (d : Dev) : Dev :=
  let prios (l : Launch) : Launch := { l with classes := l.prios.foldl (fun c p => c.set p.1 p.2) l.classes, prios := [] }
  let d : Dev := { d with launches := d.launches.map (fun p => (p.1, prios p.2)) }
  if d.launches.isEmpty then { d with towers := d.towers.map (fun p => (p.1, { p.2 with mayDispatch := false })) }
  else [0, 1].foldl (fun x t => x.modTower t (fun w => { w with mayDispatch := (dispatchChoice d t).isSome })) d

/-- The cores that have no cycle of their own in the next round: one whose clock is slower than the package's falls behind
by the difference, and drops a round when it is a whole one behind (R15, R434; log 4). -/
def clockCores (d : Dev) : Dev :=
  if d.mgmt.vf.all (fun p => decide (1 < p.1 % 4) || p.2.mhz == 0) then { d with asleep := [] }
  else
    let f := d.rate
    let late := ((List.range Config.cores).filter (fun c => d.coreMhz c != f)).map (fun c => (c, (d.core c).phase + f - d.coreMhz c))
    late.foldl (fun d x =>
      if f ≤ x.2 then { d.modCore x.1 (fun c => { c with phase := x.2 - f, lag := c.lag + 1 }) with asleep := d.asleep ++ [x.1] }
      else d.modCore x.1 (fun c => { c with phase := x.2 })) { d with asleep := [] }

/-- The end of a cycle: gates, ended launches and causes that waited are settled, flags land, the vertical FIFOs and the
matrix engines move on, and every issuer has its turn again. -/
def endCycle (e : Env) (d : Dev) : Dev :=
  let d := fifoCycle (landAll (clockCores { d with now := d.now + 1, turn := [], took := [], swept := false }))
  let d := finishAborted e (gateSettle e d)
  let d := (d.groups.map (·.1)).foldl (fun d g => asyncDeliver e (owedDeliver e d g) g) d
  let d := invalSettle (engineCycle e { d with seen := layersSeen d })
  let d := [0, 1].foldl (fun d t => if (SMap.free (d.tower t).fb Config.fbEntries).isSome then fullRetry e d t else d) d
  dispatchView d

/-- An event takes effect, with the register steps that it starts (R143); behind a retirement nothing lands any more in
the cycle (R353). -/
def runDue (ev : Ev.Event) (s : State) : Host.Outcome State Fault Refusal :=
  match runEvent ev s with
  | .next t => (match ev with
    | .tileRetire _ => .next { t with dev := { t.dev with swept := true } }
    | _ => drainRegs s.dev.agenda.length 256 t)
  | x => x

/-- An entry of the agenda takes effect; a host access to a block of tower 1 is lost with the link (R6, R424; log 76). -/
def runPosted (ev : Ev.Event) (s : State) : Host.Outcome State Fault Refusal :=
  match (if s.dev.uciUp then none else hostFar ev) with
  | some o => s.run (fun e d => hostLost e d (0xFFF0000000000 + o) 8)
  | none => runDue ev s

/-- It is done. -/
def perform (ex : Meaning) (t : Todo) (s : State) : Host.Outcome State Fault Refusal :=
  match t with
  | .posted i ev => runPosted ev { s with dev := { s.dev with agenda := s.dev.agenda.eraseIdx i } }
  | .event ev => runDue ev s
  | .batch b p => runBatch ex b p s
  | .stream g p => runStream ex g p s
  | .tret g => s.run (fun _ d => { tretApply d g with swept := true })
  | .cycle => .next { s with dev := endCycle s.env (ageAll ex s) }

/-- A dispatch of this cycle that is not made at its start is not made in it: the queues have moved on (R373). -/
def lapse (d : Dev) : Dev :=
  if [0, 1].any (dispatchDue d) then d
  else { d with towers := d.towers.map (fun p => (p.1, if p.2.mayDispatch then { p.2 with mayDispatch := false } else p.2)) }

/-- One step, numbered in the table of choices. -/
def stepWith (ex : Meaning) (s : State) : Host.Outcome State Fault Refusal :=
  let s : State := { s with dev := lapse { s.dev with tick := s.dev.tick + 1 } }
  perform ex (chosen s.dev (todo ex s)) s

end Sys2Proof.Machine
end

