-- ==== Sys2Proof/Machine/Place.lean ====
section
/-! DEFINITION.  A program loaded from outside: the package brought up and attached, one system-level context
whose first 4 TiB map to physical memory, and one group at a word (log 1). -/

namespace Sys2Proof.Machine

/-- Where a placed word stands: a multiple of 192 (R45); and where the two page tables stand. -/
def placePc : Nat := 0x600000
def placeL3 : Nat := 0x100000
def placeL2 : Nat := 0x200000

/-- A leaf at L2 for the first 4 TiB with RD, WR, EX, RC order and A and D set; and its L3 entry (R88, R89). -/
def placeLeaf : Nat := 0x17F
def placeEntry : Nat := 1 + placeL2

/-- The group shape that a word needs: a stream for class 4, one copy warp for a COPY command, else one vector
warp (R53, R167). -/
def placeShape (w : Word) : Shape :=
  { warps := 1, copies := if fieldN w 28 3 = 5 ∧ fieldN w 25 3 = 0 then 1 else 0, regs := 256, scratch := 65536
    stream := fieldN w 28 3 == 4, gang := 1, scode := BitVec.ofNat 64 placePc }

/-- The group of a placed word, on core 0. -/
def placeGroup (w : Word) : Group :=
  { noGroup with
    shape := placeShape w, slots := [0], gang := [], blocks := [0, 1, 2, 3]
    task := { noTask with entry := BitVec.ofNat 64 placePc }
    stream := if fieldN w 28 3 = 4 then some { pc := BitVec.ofNat 64 placePc } else none }

/-- Its warp: 32 fibres at the word, or, beside a stream, none. -/
def placeWarp (w : Word) : Warp :=
  if fieldN w 28 3 = 4 then { gid := 0, idx := 0, copy := false, nregs := 256 }
  else startWarp 0 0 (placeShape w) (BitVec.ofNat 64 placePc)

/-- The system-level context of a placed word. -/
def placeCtx : Ctx := { valid := true, sys := true, asid := 1, ptbase := BitVec.ofNat 64 placeL3 }

/-- `s` with a program of one word loaded: the next step issues it. -/
def placeWord (s : State) (w : Word) : State :=
  let d := s.dev
  { env := { s.env with
      step := 9, failStep := 0, ready := true, off := false, attached := true
      clk := { s.env.clk with running := true, nextTick := d.now + d.ns Config.tickNs, lastTick := d.now } }
    dev := { d with
      mem := ((d.mem.writeN placeL3 8 placeEntry).writeN placeL2 8 placeLeaf).writeN placePc 4 w.toNat
      ctxs := d.ctxs.set 0 placeCtx
      groups := [(0, placeGroup w)], nextGid := max d.nextGid 1
      warps := [(0, placeWarp w)]
      towers := d.towers.map (fun p => (p.1, { p.2 with mayDispatch := false }))
      agenda := [], turn := [], asleep := [], choice := [] } }

end Sys2Proof.Machine
end

