-- ==== Sys2Proof/Machine/Step.lean ====
section
/-! DEFINITION.  One step of the machine. -/

namespace Sys2Proof.Machine

/-- `s` with the instruction of bits `w` loaded as a program and about to issue (log 1). -/
def State.withFetchWord (s : State) (nbits w : Nat) : State := placeWord s (BitVec.ofNat 32 (w % 2 ^ nbits))

/-- One step: nothing more once the package is off; otherwise one of the things the machine may do next. -/
def step (s : State) : Host.Outcome State Fault Refusal :=
  if s.env.off then .fault .packageOff else stepWith exec s

end Sys2Proof.Machine
end

