-- ==== Sys2Proof/Safety.lean ====
section
/-! DEFINITION.  What a safe run is, and the terms the statements use: when a word issues with its
effect, and what a word whose result is a register leaves as it was. -/

namespace Sys2Proof

open Sys2Proof.Machine

/-- A state from which a step has a next state. -/
def Safe (s : State) : Prop := ∃ t, step s = .next t

/-- The memory of the package is in its canonical form. -/
def MemoryOk (s : State) : Prop := Memory.wf s.dev.mem = true

/-- `i` issues with its effect: it is no question about its checks alone, and it belongs to a longer
chain group whose words have met their checks, or it meets now those of every word (R52, R73): its
issuer's role, its DISMASK group, its prefix, its privilege, and its registers' window. -/
def Issues (s : State) (i : Instr) : Prop :=
  s.dev.cur.probe = false ∧ (s.dev.cur.snap.isSome = true ∨ guard s.dev i.props = none)

/-- The same, for a word with checks of its own beside those of every word. -/
def IssuesWith (s : State) (i : Instr) (chk : Env → Dev → Option Raise) : Prop :=
  s.dev.cur.probe = false ∧
    (s.dev.cur.snap.isSome = true ∨ (guard s.dev i.props = none ∧ chk s.env s.dev = none))

/-- A floating-point word issues with its effect: no flag that an active lane raises is enabled to trap
(R36).  `g` gives a lane's result words and flags. -/
def FloatIssues (s : State) (i : Instr) (g : Dev → Nat → FRes) : Prop :=
  s.dev.cur.probe = false ∧
    (s.dev.cur.snap.isSome = true ∨ (guard s.dev i.props = none ∧ allFlags s.dev g &&& enabledFlags s.dev = 0))

/-- `i` issues, and one of the checks of every word turns it away with `r`. -/
def TurnedAway (s : State) (i : Instr) (r : Raise) : Prop :=
  s.dev.cur.probe = false ∧ s.dev.cur.snap = none ∧ guard s.dev i.props = some r

/-- Nothing but the issuing warp changed. -/
def WarpOnly (s t : State) : Prop :=
  t.env = s.env ∧ t.dev = { s.dev with warps := t.dev.warps } ∧
    ∀ c k, wkey c k ≠ wkey s.dev.cur.core s.dev.cur.slot → t.dev.warp c k = s.dev.warp c k

/-- Vector registers `field` to `field + k - 1` of the issuing batch hold `val lane j` in every active
lane; the batch's other lanes hold 0 there under Z and keep their value otherwise; no other vector
register of the warp, and no register of a lane outside the batch, changed (R185). -/
def VectorWritten (s t : State) (field k : Nat) (val : Nat → Nat → Word) : Prop :=
  ∀ r l, l < 32 → t.dev.curWarp.phys r l =
    if s.dev.cur.base * 16 + field ≤ r ∧ r < s.dev.cur.base * 16 + field + k then
      (if s.dev.active.getLsbD l = true then val l (r - (s.dev.cur.base * 16 + field))
       else if s.dev.zeroing = true ∧ s.dev.cur.lanes.getLsbD l = true then 0
       else s.dev.curWarp.phys r l)
    else s.dev.curWarp.phys r l

/-- The whole effect of a word whose result is vector registers: nothing but those registers changed. -/
def VectorResult (s t : State) (field k : Nat) (val : Nat → Nat → Word) : Prop :=
  WarpOnly s t ∧ t.dev.curWarp = { s.dev.curWarp with v := t.dev.curWarp.v } ∧ VectorWritten s t field k val

/-- The whole effect of a floating-point word: its vector result, and its flags, which are ORed into bits 8 to 12 of
`RMODE` when it completes, `lat` cycles after its issue (R35, R212). -/
def FloatResult (s t : State) (field k : Nat) (val : Nat → Nat → Word) (lat flags : Nat) : Prop :=
  WarpOnly s t ∧
    t.dev.curWarp = { s.dev.curWarp with
      v := t.dev.curWarp.v, flagsDue := s.dev.curWarp.flagsDue ++ [(s.dev.clk s.dev.cur.core + lat, flags % 32)] } ∧
    VectorWritten s t field k val

/-- The whole effect of a word whose result is a predicate: predicate `p` of every lane of `m` is the
given value, p0 keeps reading 1, and every other predicate and fibre is as before (R190). -/
def PredicateResult (s t : State) (m : Word) (p : Nat) (val : Nat → Bool) : Prop :=
  WarpOnly s t ∧ t.dev.curWarp = { s.dev.curWarp with fib := t.dev.curWarp.fib } ∧
    ∀ l, l < 32 → t.dev.curWarp.fibre l =
      if m.getLsbD l = true then (s.dev.curWarp.fibre l).setPred p (val l) else s.dev.curWarp.fibre l

/-- The whole effect of a word whose result is a scalar register: it holds `x`, unless it is s0, which
reads 0 always; every other register is as before (R56, R197). -/
def ScalarResult (s t : State) (n : Nat) (x : DWord) : Prop :=
  WarpOnly s t ∧ t.dev.curWarp = { s.dev.curWarp with s := t.dev.curWarp.s } ∧
    ∀ m, t.dev.curWarp.sr m = if m = n ∧ n ≠ 0 then x else s.dev.curWarp.sr m

end Sys2Proof
end

