-- ==== Sys2Proof/Certificates/Slice0/Obligations.lean ====
section
/-! DEFINITION.  The statements for the provers.  Each says which rules of spec/ it formalises; the terms
`Issues`, `WarpOnly` and the results of a word are those of Safety.lean. -/

namespace Sys2Proof.Spec

open Sys2Proof.Machine

/-- The conditions of R58 on two values. -/
def cond {n : Nat} (cc : BitVec 3) (a b : BitVec n) : Prop :=
  match cc.toNat with
  | 0 => a = b
  | 1 => a ≠ b
  | 2 => a.toInt < b.toInt
  | 3 => a.toInt ≤ b.toInt
  | 4 => a.toInt > b.toInt
  | 5 => a.toInt ≥ b.toInt
  | 6 => a.toNat < b.toNat
  | _ => a.toNat ≥ b.toNat

/-- The table of R187: opcode, word, and what a lane's A, B and ACC give. -/
def int32Rows : List (BitVec 9 × (FmtR → Instr) × (Word → Word → Word → Word)) :=
  [(0x00, .vaddS32, fun a b _ => a + b),
   (0x01, .vsubS32, fun a b _ => a - b),
   (0x02, .vmulS32, fun a b _ => BitVec.ofNat 32 (a.toNat * b.toNat)),
   (0x03, .vmulhS32, fun a b _ => (a.signExtend 64 * b.signExtend 64).extractLsb' 32 32),
   (0x04, .vmulhZ32, fun a b _ => (a.setWidth 64 * b.setWidth 64).extractLsb' 32 32),
   (0x05, .vmadS32, fun a b acc => BitVec.ofNat 32 (a.toNat * b.toNat + acc.toNat)),
   (0x06, .vminS32, fun a b _ => if a.toInt ≤ b.toInt then a else b),
   (0x07, .vmaxS32, fun a b _ => if a.toInt ≤ b.toInt then b else a),
   (0x08, .vminZ32, fun a b _ => if a.toNat ≤ b.toNat then a else b),
   (0x09, .vmaxZ32, fun a b _ => if a.toNat ≤ b.toNat then b else a),
   (0x0A, .vand, fun a b _ => a &&& b),
   (0x0B, .vor, fun a b _ => a ||| b),
   (0x0C, .vxor, fun a b _ => a ^^^ b),
   (0x0D, .vandn, fun a b _ => a &&& ~~~b),
   (0x0E, .vshl, fun a b _ => if b.toNat ≥ 32 then 0 else a <<< b.toNat),
   (0x0F, .vshr, fun a b _ => if b.toNat ≥ 32 then 0 else a >>> b.toNat),
   (0x10, .vsar, fun a b _ => BitVec.ofInt 32 (a.toInt / 2 ^ (min b.toNat 31)))]

end Sys2Proof.Spec

open Sys2Proof Sys2Proof.Machine

/-- R187: every 32-bit binary word, in both its forms, has the opcode of the table, and gives in each
active lane what the table says of A, B and ACC; nothing else changes. -/
def Obligations.VectorInt32Words : Prop :=
  ∀ op mk g, (op, mk, g) ∈ Spec.int32Rows → ∀ f : FmtR, encode (mk f) = some (FmtR.bits op f) ∧
    ∀ s : State, Issues s (mk f) → ∃ t, exec (mk f) s = .next t ∧
      VectorResult s t f.d.toNat 1 (fun l _ =>
        g (s.dev.vr f.a.toNat l) (s.dev.bOp f.b f.s l) (s.dev.vr (s.dev.accField f.d.toNat) l))

/-- R189: the wide words write a pair, low half first. -/
def Obligations.VectorWideWords : Prop :=
  ∀ (f : FmtR) (s : State),
    (Issues s (.vaddS64 f) → ∃ t, exec (.vaddS64 f) s = .next t ∧
      VectorResult s t f.d.toNat 2 (fun l j =>
        (s.dev.vpair f.a.toNat l + s.dev.bOp64 f.b f.s l).extractLsb' (32 * j) 32)) ∧
    (Issues s (.vmulWideS32 f) → ∃ t, exec (.vmulWideS32 f) s = .next t ∧
      VectorResult s t f.d.toNat 2 (fun l j =>
        (BitVec.ofInt 64 ((s.dev.vr f.a.toNat l).toInt * (s.dev.bOp f.b f.s l).toInt)).extractLsb' (32 * j) 32)) ∧
    (Issues s (.vmadWideZ32 f) → ∃ t, exec (.vmadWideZ32 f) s = .next t ∧
      VectorResult s t f.d.toNat 2 (fun l j =>
        (BitVec.ofNat 64 ((s.dev.vr f.a.toNat l).toNat * (s.dev.bOp f.b f.s l).toNat) +
          s.dev.vpair (s.dev.accField f.d.toNat) l).extractLsb' (32 * j) 32))

/-- R190 and R58: the compares write predicate p of the active lanes; p0 keeps reading 1. -/
def Obligations.VectorCompareWords : Prop :=
  (∀ (f : FmtP) (s : State), Issues s (.vcmp f) → ∃ t val, exec (.vcmp f) s = .next t ∧
    PredicateResult s t s.dev.active f.p.toNat val ∧
    ∀ l, val l = true ↔ Spec.cond f.k (s.dev.vr f.a.toNat l) (s.dev.bOp f.b f.s l)) ∧
  (∀ (f : FmtPI) (s : State), Issues s (.vcmpi f) → ∃ t val, exec (.vcmpi f) s = .next t ∧
    PredicateResult s t s.dev.active f.p.toNat val ∧
    ∀ l, val l = true ↔ Spec.cond f.k (s.dev.vr f.a.toNat l) (f.i.signExtend 32))

/-- R191, R192, R193 and R195: the select, the bit-field words, the find-and-set, and the move of a lane
to a scalar. -/
def Obligations.VectorSelectAndBitFieldWords : Prop :=
  (∀ (f : FmtR) (s : State), Issues s (.vsel f) → ∃ t, exec (.vsel f) s = .next t ∧ WarpOnly s t ∧
    t.dev.curWarp = { s.dev.curWarp with v := t.dev.curWarp.v } ∧
    ∀ r l, l < 32 → t.dev.curWarp.phys r l =
      if r = s.dev.cur.base * 16 + f.d.toNat ∧ s.dev.cur.lanes.getLsbD l = true then
        (if (s.dev.opW.fibre l).pred (if s.dev.mp = 0 then 1 else s.dev.mp) = true
          then s.dev.vr f.a.toNat l else s.dev.bOp f.b f.s l)
      else s.dev.curWarp.phys r l) ∧
  (∀ (f : FmtR) (s : State), Issues s (.vbins f) → ∃ t, exec (.vbins f) s = .next t ∧
    VectorResult s t f.d.toNat 1 (fun l _ =>
      (s.dev.vr (s.dev.accField f.d.toNat) l &&& ~~~(s.dev.bOp f.b f.s l)) |||
        (s.dev.vr f.a.toNat l &&& s.dev.bOp f.b f.s l))) ∧
  (∀ (f : FmtR) (s : State), Issues s (.vplset f) → ∃ t, exec (.vplset f) s = .next t ∧
    VectorResult s t f.d.toNat 1 (fun l _ =>
      plset (s.dev.vr f.a.toNat l) (min (s.dev.bOp f.b f.s l).toNat 32))) ∧
  (∀ (f : FmtR) (s : State), Issues s (.vextr f) → ∃ t, exec (.vextr f) s = .next t ∧
    VectorResult s t f.d.toNat 1 (fun l _ => BitVec.ofNat 32
      ((s.dev.vr f.a.toNat l).toNat / 2 ^ ((s.dev.bOp f.b f.s l).toNat % 32) %
        2 ^ (min ((s.dev.bOp f.b f.s l).toNat / 256 % 64) 32)))) ∧
  (∀ (f : FmtDA) (s : State), f.a.getLsbD 0 = false → f.d ≠ f.a → f.d ≠ f.a + 1 → Issues s (.vffcs f) →
    ∃ t, exec (.vffcs f) s = .next t ∧ WarpOnly s t ∧
      t.dev.curWarp = { s.dev.curWarp with v := t.dev.curWarp.v } ∧
      ∀ r l, l < 32 → t.dev.curWarp.phys r l =
        if r = s.dev.cur.base * 16 + f.d.toNat ∧ s.dev.active.getLsbD l = true then
          BitVec.ofNat 32 (ffcOf (s.dev.vpair f.a.toNat l))
        else if r = s.dev.cur.base * 16 + f.d.toNat ∧ s.dev.zeroing = true ∧ s.dev.cur.lanes.getLsbD l = true then 0
        else if r = s.dev.cur.base * 16 + f.a.toNat ∧ s.dev.active.getLsbD l = true then
          (s.dev.vpair f.a.toNat l ||| (1#64 <<< ffcOf (s.dev.vpair f.a.toNat l))).extractLsb' 0 32
        else if r = s.dev.cur.base * 16 + f.a.toNat + 1 ∧ s.dev.active.getLsbD l = true then
          (s.dev.vpair f.a.toNat l ||| (1#64 <<< ffcOf (s.dev.vpair f.a.toNat l))).extractLsb' 32 32
        else s.dev.curWarp.phys r l) ∧
  (∀ (f : FmtMovs) (s : State), Issues s (.vmovs f) → ∃ t, exec (.vmovs f) s = .next t ∧
    if s.dev.active = 0 then t = s
    else ScalarResult s t f.d.toNat ((s.dev.opW.phys (s.dev.cur.base * 16 + f.a.toNat) f.l.toNat).setWidth 64))

/-- R194: the shuffles and the broadcast read another lane of the issuing lane's tile, all sources before
any lane is written. -/
def Obligations.VectorShuffleWords : Prop :=
  ∀ (s : State) (size : Nat), size = 32 / 2 ^ ((s.dev.opW.partn.extractLsb' 0 3).toNat) →
    (∀ f : FmtR, Issues s (.vshflIdx f) → ∃ t, exec (.vshflIdx f) s = .next t ∧
      VectorResult s t f.d.toNat 1 (fun l _ => s.dev.vr f.a.toNat
        ((l / size * size + (s.dev.bOp f.b f.s l).toNat % size) % 32))) ∧
    (∀ f : FmtR, Issues s (.vshflXor f) → ∃ t, exec (.vshflXor f) s = .next t ∧
      VectorResult s t f.d.toNat 1 (fun l _ => s.dev.vr f.a.toNat
        ((l ^^^ ((s.dev.bOp f.b f.s l).toNat % size)) % 32))) ∧
    (∀ f : FmtR, Issues s (.vshflUp f) → ∃ t, exec (.vshflUp f) s = .next t ∧
      VectorResult s t f.d.toNat 1 (fun l _ => s.dev.vr f.a.toNat
        (if (s.dev.bOp f.b f.s l).toNat ≤ l - l / size * size then l - (s.dev.bOp f.b f.s l).toNat else l))) ∧
    (∀ f : FmtR, Issues s (.vshflDn f) → ∃ t, exec (.vshflDn f) s = .next t ∧
      VectorResult s t f.d.toNat 1 (fun l _ => s.dev.vr f.a.toNat
        (if l + (s.dev.bOp f.b f.s l).toNat < l / size * size + size
          then (l + (s.dev.bOp f.b f.s l).toNat) % 32 else l))) ∧
    (∀ f : FmtBcast, Issues s (.vbcast f) → ∃ t, exec (.vbcast f) s = .next t ∧
      VectorResult s t f.d.toNat 1 (fun l _ => s.dev.vr f.a.toNat ((l / size * size + f.i.toNat % size) % 32)))

/-- R196: the votes, reductions and scans combine the active lanes of each tile, here `tile l`.  That Z also clears the
lanes of a tile with no active lane, of which R196 says that it writes nothing, is the model's choice (log 68). -/
def Obligations.VectorTileWords : Prop :=
  ∀ (f : FmtRS) (s : State) (tile : Nat → List Nat),
    (∀ l, tile l = (lanesOf s.dev.active).filter (fun k =>
      k / (32 / 2 ^ ((s.dev.opW.partn.extractLsb' 0 3).toNat)) = l / (32 / 2 ^ ((s.dev.opW.partn.extractLsb' 0 3).toNat)))) →
    (Issues s (.vvote f) → ∃ (t : State) (val : Nat → Word), exec (.vvote f) s = .next t ∧
      VectorResult s t f.d.toNat 1 (fun l _ => val l) ∧
      ∀ l,
        (f.u = 0 → val l = if ∃ k ∈ tile l, s.dev.vr f.a.toNat k ≠ 0 then 1 else 0) ∧
        (f.u = 1 → val l = if ∀ k ∈ tile l, s.dev.vr f.a.toNat k ≠ 0 then 1 else 0) ∧
        (f.u = 2 → ∀ k, (val l).getLsbD k = true ↔ k ∈ tile l ∧ s.dev.vr f.a.toNat k ≠ 0) ∧
        (f.u = 3 → val l = if ∀ k ∈ tile l, ∀ m ∈ tile l, s.dev.vr f.a.toNat k = s.dev.vr f.a.toNat m then 1 else 0)) ∧
    (f.u.toNat < 8 → Issues s (.vred f) → ∃ t, exec (.vred f) s = .next t ∧
      VectorResult s t f.d.toNat 1 (fun l _ =>
        ((tile l).map (s.dev.vr f.a.toNat)).foldl (redOp f.u.toNat) (redId f.u.toNat))) ∧
    (Issues s (.vscan f) → ∃ t, exec (.vscan f) s = .next t ∧
      VectorResult s t f.d.toNat 1 (fun l _ =>
        (((tile l).filter (fun k => if f.u.toNat ≥ 8 then k < l else k ≤ l)).map (s.dev.vr f.a.toNat)).foldl
          (redOp (f.u.toNat % 8)) (redId (f.u.toNat % 8))))

/-- What the counts and bit words of R188, R192, R193 and R198 compute: leading zeros, the lowest clear
bit, the population, the reversal, the population raised to k by the lowest clear bits. -/
def Sys2Proof.Spec.BitCounts : Prop :=
  (∀ (n : Nat) (x : BitVec n), clzOf x ≤ n ∧ (∀ i, n - clzOf x ≤ i → i < n → x.getLsbD i = false) ∧
    (clzOf x < n → x.getLsbD (n - 1 - clzOf x) = true)) ∧
  (∀ (n : Nat) (x : BitVec n), ffcOf x ≤ n ∧ (∀ i, i < ffcOf x → x.getLsbD i = true) ∧ x.getLsbD (ffcOf x) = false) ∧
  (∀ (x : Word) (i : Nat), i < 32 → (brev x).getLsbD (31 - i) = x.getLsbD i) ∧
  (∀ (n : Nat) (x : BitVec n) (k : Nat), k ≤ n →
    popOf (plset x k) = max (popOf x) k ∧
    (∀ i, x.getLsbD i = true → (plset x k).getLsbD i = true) ∧
    (∀ i j, i < j → (plset x k).getLsbD j = true → x.getLsbD j = false → (plset x k).getLsbD i = true))

/-- R188: the unary, immediate and move words.  What `clzOf`, `popOf` and `brev` compute is the statement
`BitCounts`. -/
def Obligations.VectorUnaryWords : Prop :=
  Sys2Proof.Spec.BitCounts ∧ (
  (∀ (f : FmtI) (s : State), Issues s (.vaddi f) → ∃ t, exec (.vaddi f) s = .next t ∧
    VectorResult s t f.d.toNat 1 (fun l _ => s.dev.vr f.a.toNat l + f.i.signExtend 32)) ∧
  (∀ (f : FmtL) (s : State), Issues s (.vmovi f) → ∃ t, exec (.vmovi f) s = .next t ∧
    VectorResult s t f.d.toNat 1 (fun _ _ => BitVec.ofInt 32 f.i.toInt)) ∧
  (∀ (f : FmtDA) (s : State), Issues s (.vmovV f) → ∃ t, exec (.vmovV f) s = .next t ∧
    VectorResult s t f.d.toNat 1 (fun l _ => s.dev.vr f.a.toNat l)) ∧
  (∀ (f : FmtDS) (s : State), Issues s (.vmovS f) → ∃ t, exec (.vmovS f) s = .next t ∧
    VectorResult s t f.d.toNat 1 (fun _ _ => (s.dev.sr f.b.toNat).extractLsb' 0 32)) ∧
  (∀ (f : FmtDA) (s : State), Issues s (.vclz f) → ∃ t, exec (.vclz f) s = .next t ∧
    VectorResult s t f.d.toNat 1 (fun l _ => BitVec.ofNat 32 (clzOf (s.dev.vr f.a.toNat l)))) ∧
  (∀ (f : FmtDA) (s : State), Issues s (.vpopc f) → ∃ t, exec (.vpopc f) s = .next t ∧
    VectorResult s t f.d.toNat 1 (fun l _ => BitVec.ofNat 32 (popOf (s.dev.vr f.a.toNat l)))) ∧
  (∀ (f : FmtDA) (s : State), Issues s (.vbrev f) → ∃ t, exec (.vbrev f) s = .next t ∧
    VectorResult s t f.d.toNat 1 (fun l _ => brev (s.dev.vr f.a.toNat l))) ∧
  (∀ (f : FmtD) (s : State), Issues s (.vlaneid f) → ∃ t, exec (.vlaneid f) s = .next t ∧
    VectorResult s t f.d.toNat 1 (fun l _ => BitVec.ofNat 32 l)))

namespace Sys2Proof.Spec

open Sys2Proof.Machine

/-- A, B and ACC of a lane, of a word of format R (R185). -/
def opA (d : Dev) (f : FmtR) (l : Nat) : Word := d.vr f.a.toNat l
def opB (d : Dev) (f : FmtR) (l : Nat) : Word := d.bOp f.b f.s l
def opC (d : Dev) (f : FmtR) (l : Nat) : Word := d.vr (d.accField f.d.toNat) l

/-- A magnitude code of an interchange format in units of the format's least subnormal; the codes from infinity's on
extend the exponent range upwards (R16, R29). -/
def units (f : Fmt) (c : Nat) : Nat :=
  if c / 2 ^ f.fb = 0 then c else (2 ^ f.fb + c % 2 ^ f.fb) * 2 ^ (c / 2 ^ f.fb - 1)

/-- What decoding gives (R16, R17): a NaN, signalling where its top fraction bit is 0, an infinity, or the sign and the
code's exact magnitude, a fraction n / d of 1, which is `units` of 2 to the power 1 - bias - fb. -/
def DecodeRule : Prop :=
  ∀ f ∈ [f32, f16, bf16], ∀ bits c : Nat, bits < 2 * f.signBit → c = bits % f.signBit →
    (c > f.infCode → f.decode bits = .nan (decide (c - f.infCode < 2 ^ (f.fb - 1)))) ∧
    (c = f.infCode → f.decode bits = .inf (decide (f.signBit ≤ bits))) ∧
    (c < f.infCode → ∃ n d, f.decode bits = .fin (decide (f.signBit ≤ bits)) n d ∧ 0 < d ∧
      n * 2 ^ (f.bias + f.fb - 1) = units f c * d)

/-- Whether n / d, which lies between the codes `lo` and `lo` + 1 and is not `lo`, goes to the upper one (R27, R29);
`x` is n in units times d. -/
def goesUp (f : Fmt) (k : Rnd) (neg : Bool) (x d lo : Nat) : Prop :=
  (k.rm = 1 ∧ (2 * x > (units f lo + units f (lo + 1)) * d ∨
    2 * x = (units f lo + units f (lo + 1)) * d ∧ lo % 2 = 1)) ∨
  (k.rm = 3 ∧ neg = false) ∨ (k.rm = 4 ∧ neg = true) ∨
  (k.rm = 5 ∧ 2 * x ≥ (units f lo + units f (lo + 1)) * d) ∨
  (k.rm = 6 ∧ (x - units f lo * d) * 2 ^ 24 / ((units f (lo + 1) - units f lo) * d) +
    ((hash32 (k.seed ^^^ BitVec.ofNat 32 k.idx)).extractLsb' 8 24).toNat ≥ 2 ^ 24)

/-- What rounding gives (R17, R18, R29): the canonical NaN, an infinity, a zero of its sign, or of the two neighbours
of the exact value the one that the mode chooses, with NX where it is inexact, UF where it is also below the least
normal, and OF with NX where the chosen one is past the largest finite code. -/
def RoundRule : Prop :=
  ∀ f ∈ [f32, f16, bf16], ∀ k : Rnd, 1 ≤ k.rm → k.rm ≤ 6 →
    (∀ s, f.round k (.nan s) = (f.infCode + 2 ^ (f.fb - 1), if s = true then fNV else 0)) ∧
    (∀ g, f.round k (.inf g) = (f.infCode + (if g = true then f.signBit else 0), 0)) ∧
    (∀ g d, f.round k (.fin g 0 d) = ((if g = true then f.signBit else 0), 0)) ∧
    ∀ (g : Bool) (n d x lo c : Nat), 0 < n → 0 < d → x = n * 2 ^ (f.bias + f.fb - 1) →
      units f lo * d ≤ x → x < units f (lo + 1) * d →
      (x = units f lo * d → c = lo) →
      (x ≠ units f lo * d → (goesUp f k g x d lo → c = lo + 1) ∧ (¬ goesUp f k g x d lo → c = lo)) →
      (c < f.infCode → f.round k (.fin g n d) = ((if g = true then f.signBit else 0) + c,
        if x = units f lo * d then 0 else if x < 2 ^ f.fb * d then fNX + fUF else fNX)) ∧
      (f.infCode ≤ c → f.round k (.fin g n d) = ((if g = true then f.signBit else 0) +
        (if k.rm = 2 ∨ (k.rm = 3 ∧ g = true) ∨ (k.rm = 4 ∧ g = false) then f.infCode - 1 else f.infCode), fOF + fNX))

/-- A signed numerator. -/
def signed (g : Bool) (n : Nat) : Int := if g = true then -(n : Int) else n

/-- The exact sum and product of two values (R17, R18): of finite ones the sum and product of their fractions, with the
sign of IEEE 754 for an exact zero; an infinity or a NaN, invalid where IEEE 754 says so. -/
def ExactRule : Prop :=
  (∀ (rdn g h : Bool) (n d m e : Nat), 0 < d → 0 < e → ∃ k c,
    0 < c ∧ XV.add rdn (.fin g n d) (.fin h m e) =
      .fin (if signed g n * e + signed h m * d = 0 then (if n = 0 ∧ m = 0 ∧ g = h then g else rdn)
        else decide (signed g n * e + signed h m * d < 0)) k c ∧
      k * (d * e) = (signed g n * e + signed h m * d).natAbs * c) ∧
  (∀ (g h : Bool) (n d m e : Nat), XV.mul (.fin g n d) (.fin h m e) = .fin (g != h) (n * m) (d * e)) ∧
  (∀ (rdn g h : Bool) (n d : Nat), XV.add rdn (.inf g) (.fin h n d) = .inf g ∧ XV.add rdn (.fin h n d) (.inf g) = .inf g ∧
    XV.add rdn (.inf g) (.inf h) = (if g = h then .inf g else .nan true) ∧ XV.mul (.inf g) (.inf h) = .inf (g != h) ∧
    XV.mul (.inf g) (.fin h n d) = (if n = 0 then .nan true else .inf (g != h)) ∧
    XV.mul (.fin h n d) (.inf g) = (if n = 0 then .nan true else .inf (h != g))) ∧
  (∀ (rdn a : Bool) (x : XV), (∀ b, x ≠ .nan b) → XV.add rdn (.nan a) x = .nan a ∧ XV.add rdn x (.nan a) = .nan a ∧
    XV.mul (.nan a) x = .nan a ∧ XV.mul x (.nan a) = .nan a) ∧
  (∀ (rdn a b : Bool), XV.add rdn (.nan a) (.nan b) = .nan (a || b) ∧ XV.mul (.nan a) (.nan b) = .nan (a || b)) ∧
  ∀ (rdn : Bool) (x : XV) (r : List XV), (∀ y ∈ x :: r, ∃ g n d, y = .fin g n d) → XV.sum rdn (x :: r) = r.foldl (XV.add rdn) x

/-- What a tapered code of `w` + 1 bits decodes to (R19): after the run of `n` equal bits `b` and the bit that ends it,
the `w` - 1 - `n` bits of `r` hold the exponent's low bit and the fraction. -/
def TaperRule : Prop :=
  ∀ w ∈ [7, 5], (∃ d, decodeTaper w 0 = .fin false 0 d) ∧ (∃ q, decodeTaper w (2 ^ w) = .nan q) ∧
    ∀ (s b : Bool) (n r rest fw : Nat) (p : Int), 1 ≤ n → n ≤ w → rest = w - n - 1 → fw = rest - 1 → r < 2 ^ rest →
      (n = w → b = true ∧ r = 0) → p = 2 * (if b = true then (n : Int) - 1 else -n) + (r / 2 ^ fw : Nat) →
      ∃ num den, 0 < den ∧ num * 2 ^ fw * 2 ^ (-p).toNat = (2 ^ fw + r % 2 ^ fw) * 2 ^ p.toNat * den ∧
        decodeTaper w ((if s = true then 2 ^ w else 0) + (if b = true then (2 ^ n - 1) * 2 ^ (w - n) else 2 ^ rest) + r) =
          .fin s num den

/-- 2^j as an FP32 word. -/
def pow2W (j : Int) : Word := BitVec.ofInt 32 ((j + 127) * 2 ^ 23)

/-- R229: the special operands of the CORDIC words: word, operand, result and flags. -/
def cordicSpecials : List (CFun × Word × Word × Nat) :=
  [(.sin, 0x7F800000, 0x7FC00000, fNV), (.sin, 0xFF800000, 0x7FC00000, fNV),
   (.cos, 0x7F800000, 0x7FC00000, fNV), (.cos, 0xFF800000, 0x7FC00000, fNV),
   (.exp2, 0x7F800000, 0x7F800000, 0), (.exp2, 0xFF800000, 0, 0),
   (.log2, 0, 0xFF800000, fDZ), (.log2, 0x80000000, 0xFF800000, fDZ), (.log2, 0x7F800000, 0x7F800000, 0),
   (.log2, 0xFF800000, 0x7FC00000, fNV),
   (.sqrt, 0, 0, 0), (.sqrt, 0x80000000, 0x80000000, 0), (.sqrt, 0x7F800000, 0x7F800000, 0),
   (.sqrt, 0xFF800000, 0x7FC00000, fNV),
   (.rsq, 0, 0x7F800000, fDZ), (.rsq, 0x80000000, 0xFF800000, fDZ), (.rsq, 0x7F800000, 0, 0),
   (.rsq, 0xFF800000, 0x7FC00000, fNV),
   (.rcp, 0, 0x7F800000, fDZ), (.rcp, 0x80000000, 0xFF800000, fDZ), (.rcp, 0x7F800000, 0, 0),
   (.rcp, 0xFF800000, 0x80000000, 0),
   (.tanh, 0, 0, 0), (.tanh, 0x80000000, 0x80000000, 0), (.tanh, 0x7F800000, 0x3F800000, 0),
   (.tanh, 0xFF800000, 0xBF800000, 0),
   (.sigm, 0x7F800000, 0x3F800000, 0), (.sigm, 0xFF800000, 0, 0), (.sigm, 0, 0x3F000000, 0),
   (.sigm, 0x80000000, 0x3F000000, 0)]

/-- R228: one linear pass, from iteration `t` on, `n` iterations: the quotient that VRCP's pass divides out. -/
def linearPass (x : Int) : Nat → Nat → Int → Int → Int
  | 0, _, _, z => z
  | n + 1, t, y, z =>
    if y < 0 then linearPass x n (t + 1) (y + x / 2 ^ t) (z - 2 ^ (36 - t))
    else linearPass x n (t + 1) (y - x / 2 ^ t) (z + 2 ^ (36 - t))

/-- What the CORDIC words compute where R229 and R230 say it without a circular or hyperbolic pass: the special operands,
a NaN, a negative operand of the root and logarithm words, the operands whose result is exact before its rounding, and
the quotient of VRCP. -/
def CordicRule : Prop :=
  (∀ f a r fl, (f, a, r, fl) ∈ cordicSpecials → ∀ (n : Nat) (k : Rnd), cordicLane f n k a = (r, fl)) ∧
  (∀ (f : CFun) (n : Nat) (k : Rnd) (a : Word), 0x7F800000 < (a &&& 0x7FFFFFFF).toNat →
    cordicLane f n k a = (0x7FC00000, if a.getLsbD 22 = true then 0 else fNV)) ∧
  (∀ f ∈ [CFun.log2, CFun.sqrt, CFun.rsq], ∀ (n : Nat) (k : Rnd) (a : Word), 0x80000000 < a.toNat → a.toNat < 0xFF800000 →
    cordicLane f n k a = (0x7FC00000, fNV)) ∧
  (∀ (n : Nat) (k : Rnd) (j : Int), -126 ≤ j → j ≤ 126 →
    cordicLane .rcp n k (pow2W j) = (pow2W (-j), 0) ∧
    cordicLane .exp2 n k (roundF32 rne (xint j)).1 = (pow2W j, 0) ∧
    cordicLane .log2 n k (pow2W j) = ((roundF32 rne (xint j)).1, 0) ∧
    (2 * j ≤ 126 → -126 ≤ 2 * j → cordicLane .sqrt n k (pow2W (2 * j)) = (pow2W j, 0) ∧
      cordicLane .rsq n k (pow2W (2 * j)) = (pow2W (-j), 0))) ∧
  (∀ (n : Nat) (k : Rnd) (e f : Nat) (g : BitVec 1) (z : Int), n < 16 → 1 ≤ e → e ≤ 254 → 0 < f → f < 2 ^ 23 →
    z = linearPass ((2 ^ 23 + f) * 2 ^ 13) (8 + 2 * n) 0 (2 ^ 36) 0 →
    cordicLane .rcp n k (g ++ BitVec.ofNat 8 e ++ BitVec.ofNat 23 f) =
      roundF32 k (.fin (decide (g = 1) != decide (z < 0)) (z.natAbs * 2 ^ (127 - e)) (2 ^ 36 * 2 ^ (e - 127))))

/-- One result word with its flags. -/
def one (r : Word × Nat) : FRes := ([r.1], r.2)
/-- Two 16-bit elements of a format, element 1 in the upper half, with the flags of both. -/
def two (r : Nat → Nat × Nat) : FRes :=
  ([BitVec.ofNat 32 ((r 0).1 + 65536 * (r 1).1)], (r 0).2 ||| (r 1).2)
/-- Element j of 16 bits. -/
def half (w : Word) (j : Nat) : Nat := (w.extractLsb' (16 * j) 16).toNat

/-- R214, R215, R219, R220: the words of format R that compute on exact values and round once, with what
an active lane's result and flags are. -/
def floatRowsR (f : FmtR) : List (Instr × (Dev → Nat → FRes)) :=
  [(.vaddF32 f, fun d l => one (roundF32 (rndAt d l) ((xf32 (opA d f l)).add (isRdn d) (xf32 (opB d f l))))),
   (.vsubF32 f, fun d l => one (roundF32 (rndAt d l) ((xf32 (opA d f l)).add (isRdn d) (xf32 (opB d f l)).neg))),
   (.vmulF32 f, fun d l => one (roundF32 (rndAt d l) ((xf32 (opA d f l)).mul (xf32 (opB d f l))))),
   (.vfmaF32 f, fun d l => one (roundF32 (rndAt d l)
      (((xf32 (opA d f l)).mul (xf32 (opB d f l))).add (isRdn d) (xf32 (opC d f l))))),
   (.vminF32 f, fun d l => one (minmaxF32 false (opA d f l) (opB d f l))),
   (.vmaxF32 f, fun d l => one (minmaxF32 true (opA d f l) (opB d f l))),
   (.vaddH2 f, fun d l => two (fun j => f16.round (rndAt d (2 * l + j))
      ((f16.decode (half (opA d f l) j)).add (isRdn d) (f16.decode (half (opB d f l) j))))),
   (.vmulH2 f, fun d l => two (fun j => f16.round (rndAt d (2 * l + j))
      ((f16.decode (half (opA d f l) j)).mul (f16.decode (half (opB d f l) j))))),
   (.vfmaH2 f, fun d l => two (fun j => f16.round (rndAt d (2 * l + j))
      (((f16.decode (half (opA d f l) j)).mul (f16.decode (half (opB d f l) j))).add (isRdn d)
        (f16.decode (half (opC d f l) j))))),
   (.vaddB2 f, fun d l => two (fun j => bf16.round (rndAt d (2 * l + j))
      ((bf16.decode (half (opA d f l) j)).add (isRdn d) (bf16.decode (half (opB d f l) j))))),
   (.vmulB2 f, fun d l => two (fun j => bf16.round (rndAt d (2 * l + j))
      ((bf16.decode (half (opA d f l) j)).mul (bf16.decode (half (opB d f l) j))))),
   (.vfmaB2 f, fun d l => two (fun j => bf16.round (rndAt d (2 * l + j))
      (((bf16.decode (half (opA d f l) j)).mul (bf16.decode (half (opB d f l) j))).add (isRdn d)
        (bf16.decode (half (opC d f l) j))))),
   (.vdot2B2 f, fun d l => one (roundF32 (rndAt d l) (XV.sum (isRdn d)
      [(bf16.decode (half (opA d f l) 0)).mul (bf16.decode (half (opB d f l) 0)),
        (bf16.decode (half (opA d f l) 1)).mul (bf16.decode (half (opB d f l) 1)), xf32 (opC d f l)]))),
   (.vdot4T8 f, fun d l => one (roundF32 (rndAt d l) (XV.sum (isRdn d)
      ((List.range 4).map (fun j =>
        (decodeTaper 7 (byteAt (opA d f l) j)).mul (decodeTaper 7 (byteAt (opB d f l) j))) ++ [xf32 (opC d f l)])))),
   (.vcvtH2F32 f, fun d l => two (fun j => f16.round (rndAt d (2 * l + j))
      (xf32 (if j = 0 then opA d f l else opB d f l)))),
   (.vcvtB2F32 f, fun d l => two (fun j => bf16.round (rndAt d (2 * l + j))
      (xf32 (if j = 0 then opA d f l else opB d f l)))),
   (.vcvtT8F32 f, fun d l => narrow 7 4 8 d f.a.toNat ((opB d f l).toNat % 4096) l),
   (.vcvtT6F32 f, fun d l => narrow 5 5 6 d f.a.toNat ((opB d f l).toNat % 4096) l),
   (.vcvtS8F32 f, fun d l => narrow 8 4 8 d f.a.toNat ((opB d f l).toNat % 4096) l)]

/-- R218, R221: the words of one source that write one register. -/
def floatRowsA (f : FmtDA) : List (Instr × (Dev → Nat → FRes)) :=
  [(.vrndF32 f, fun d l => one (rndIntegral (rndAt d l) (xf32 (d.vr f.a.toNat l)))),
   (.vcvtF32S32 f, fun d l => one (roundF32 (rndAt d l) (xint (d.vr f.a.toNat l).toInt))),
   (.vcvtF32Z32 f, fun d l => one (roundF32 (rndAt d l) (xint (d.vr f.a.toNat l).toNat))),
   (.vcvtS32F32 f, fun d l =>
      let r := convInt (-2 ^ 31) (2 ^ 31 - 1) (rndAt d l) (xf32 (d.vr f.a.toNat l))
      ([BitVec.ofInt 32 r.1], r.2)),
   (.vcvtZ32F32 f, fun d l =>
      let r := convInt 0 (2 ^ 32 - 1) (rndAt d l) (xf32 (d.vr f.a.toNat l))
      ([BitVec.ofInt 32 r.1], r.2))]

/-- R212, R229, R230: the CORDIC words, of I = 8 + 2n iterations, each with the cycles it takes: 7 + I, or 7 + 2I. -/
def cordicRows (f : FmtU) : List (Instr × Nat × (Dev → Nat → FRes)) :=
  [(.vsin f, 7 + (8 + 2 * f.n.toNat), fun d l => one (cordicLane .sin f.n.toNat (rndAt d l) (d.vr f.a.toNat l))),
   (.vcos f, 7 + (8 + 2 * f.n.toNat), fun d l => one (cordicLane .cos f.n.toNat (rndAt d l) (d.vr f.a.toNat l))),
   (.vexp2 f, 7 + (8 + 2 * f.n.toNat), fun d l => one (cordicLane .exp2 f.n.toNat (rndAt d l) (d.vr f.a.toNat l))),
   (.vlog2 f, 7 + (8 + 2 * f.n.toNat), fun d l => one (cordicLane .log2 f.n.toNat (rndAt d l) (d.vr f.a.toNat l))),
   (.vsqrt f, 7 + (8 + 2 * f.n.toNat), fun d l => one (cordicLane .sqrt f.n.toNat (rndAt d l) (d.vr f.a.toNat l))),
   (.vrsq f, 7 + 2 * (8 + 2 * f.n.toNat), fun d l => one (cordicLane .rsq f.n.toNat (rndAt d l) (d.vr f.a.toNat l))),
   (.vrcp f, 7 + (8 + 2 * f.n.toNat), fun d l => one (cordicLane .rcp f.n.toNat (rndAt d l) (d.vr f.a.toNat l))),
   (.vtanh f, 7 + 2 * (8 + 2 * f.n.toNat), fun d l => one (cordicLane .tanh f.n.toNat (rndAt d l) (d.vr f.a.toNat l))),
   (.vsigm f, 7 + 2 * (8 + 2 * f.n.toNat), fun d l => one (cordicLane .sigm f.n.toNat (rndAt d l) (d.vr f.a.toNat l))),
   (.vatan2 f, 7 + (8 + 2 * f.n.toNat), fun d l => one (atan2Lane f.n.toNat (rndAt d l) (d.vr f.a.toNat l) (d.vr (f.a.toNat + 1) l)))]

/-- R222, R224: the widening words, with how many registers each writes. -/
def widenRows (f : FmtR) (h : FmtDA) : List (Instr × Nat × Nat × (Dev → Nat → FRes)) :=
  [(.vcvtF32H h, h.d.toNat, 2, fun d l =>
      let r (j : Nat) := roundF32 rne (f16.decode (half (d.vr h.a.toNat l) j))
      ([(r 0).1, (r 1).1], (r 0).2 ||| (r 1).2)),
   (.vcvtF32B h, h.d.toNat, 2, fun d l =>
      let r (j : Nat) := roundF32 rne (bf16.decode (half (d.vr h.a.toNat l) j))
      ([(r 0).1, (r 1).1], (r 0).2 ||| (r 1).2)),
   (.vcvtF32T8 f, f.d.toNat, 4, fun d l => widen 7 4 8 d (opA d f l) ((opB d f l).toNat % 4096) l),
   (.vcvtF32T6 f, f.d.toNat, 5, fun d l => widen 5 5 6 d (opA d f l) ((opB d f l).toNat % 4096) l)]

/-- Sub, Mul, Add and Fma of R232 and R233, rounded to nearest even, Min and Max as `VMIN` and `VMAX` have them. -/
def rsub (a b : Word) : Word := (roundF32 rne ((xf32 a).add false (xf32 b).neg)).1
def radd (a b : Word) : Word := (roundF32 rne ((xf32 a).add false (xf32 b))).1
def rmul (a b : Word) : Word := (roundF32 rne ((xf32 a).mul (xf32 b))).1
def rfma (a b c : Word) : Word := (roundF32 rne (((xf32 a).mul (xf32 b)).add false (xf32 c))).1
def rmin (a b : Word) : Word := (minmaxF32 false a b).1
def rmax (a b : Word) : Word := (minmaxF32 true a b).1
/-- a ≤ b, false with a NaN. -/
def rle (a b : Word) : Bool := (condF32 3 (xf32 a) (xf32 b)).1

/-- The near and far distances of slab k of a box (R232). -/
def slab (a b : Nat → Word) (k : Nat) : Word × Word :=
  (rmin (rmul (rsub (b k) (a k)) (a (3 + k))) (rmul (rsub (b (3 + k)) (a k)) (a (3 + k))),
   rmax (rmul (rsub (b k) (a k)) (a (3 + k))) (rmul (rsub (b (3 + k)) (a k)) (a (3 + k))))

/-- Entry and exit of a ray and a box (R232). -/
def box (a b : Nat → Word) (j : Nat) : Word :=
  if j = 0 then rmax (rmax (rmax (a 6) (slab a b 0).1) (slab a b 1).1) (slab a b 2).1
  else rmin (rmin (rmin (a 7) (slab a b 0).2) (slab a b 1).2) (slab a b 2).2

/-- Component k, and the sum, of the products of R233; a vector is its three components. -/
def cross (a b : Nat → Word) (k : Nat) : Word :=
  rfma (a ((k + 1) % 3)) (b ((k + 2) % 3)) (rmul (a ((k + 2) % 3)) (b ((k + 1) % 3)) ^^^ 0x80000000)
def dot (a b : Nat → Word) : Word := rfma (a 2) (b 2) (rfma (a 1) (b 1) (rmul (a 0) (b 0)))

/-- 1 / det, rounded to nearest even. -/
def rinv (x : Word) : Word :=
  match xf32 x with
  | .nan _ => 0x7FC00000
  | .inf g => if g then 0x80000000 else 0
  | .fin g n d => if n = 0 then (if g then 0xFF800000 else 0x7F800000) else (roundF32 rne (.fin g d n)).1

/-- t, u, w and the hit of a ray and a triangle (R233). -/
def triangle (a b : Nat → Word) (j : Nat) : Word :=
  let dir (k : Nat) : Word := a (3 + k)
  let e1 (k : Nat) : Word := b (3 + k)
  let e2 (k : Nat) : Word := b (6 + k)
  let s (k : Nat) : Word := rsub (a k) (b k)
  let p := cross dir e2
  let det := dot e1 p
  let q := cross s e1
  let u := rmul (dot s p) (rinv det)
  let w := rmul (dot dir q) (rinv det)
  let t := rmul (dot e2 q) (rinv det)
  if j = 0 then t else if j = 1 then u else if j = 2 then w
  else if (det &&& 0x7FFFFFFF).toNat ≠ 0 ∧ (det &&& 0x7FFFFFFF).toNat ≤ 0x7F800000 ∧ rle 0 u ∧ rle 0 w ∧
      rle (radd u w) 0x3F800000 ∧ rle (a 6) t ∧ rle t (a 7) then 1 else 0

/-- A floating-point word completes: where no flag that its active lanes raise is enabled to trap, they get
their results, and the flags of all of them are ORed into `RMODE` when it completes, `lat` cycles later (R35, R212). -/
def floatCompletes (i : Instr) (dst k lat : Nat) (g : Dev → Nat → FRes) : Prop :=
  ∀ s : State, FloatIssues s i g → ∃ t, exec i s = .next t ∧
    FloatResult s t dst k (fun l j => ((g s.dev l).1[j]?).getD 0) lat (allFlags s.dev g)

/-- R36: where an active lane raises an enabled flag, the word writes nothing and raises ARITH, whose detail
is every flag the word would have raised, and the lanes that raise an enabled one. -/
def floatTraps (i : Instr) (g : Dev → Nat → FRes) : Prop :=
  ∀ s : State, s.dev.cur.probe = false → s.dev.cur.snap = none → guard s.dev i.props = none →
    allFlags s.dev g &&& enabledFlags s.dev ≠ 0 →
    exec i s = .next { s with dev := takeRaise s.env s.dev (own s.dev .arith (allFlags s.dev g)
      (maskOf ((lanesOf s.dev.active).filter (fun l => (g s.dev l).2 &&& enabledFlags s.dev != 0))).toNat 0) }

end Sys2Proof.Spec

/-- R214, R215, R219, R220, R222 and R223: the floating-point words of format R with one result register; and the exact
sums and products that they round, and the tapered codes that some of them read (R17 to R19). -/
def Obligations.FloatWords : Prop :=
  Spec.ExactRule ∧ Spec.TaperRule ∧
  ∀ (f : FmtR) i g, (i, g) ∈ Spec.floatRowsR f → Spec.floatCompletes i f.d.toNat 1 4 g

/-- R218 and R221: rounding to an integral value and the conversions between integers and FP32; and what decoding and
rounding an interchange format compute, of which every floating-point word's result is made (R16 to R18, R27, R29). -/
def Obligations.FloatUnaryWords : Prop :=
  Spec.DecodeRule ∧ Spec.RoundRule ∧
  ∀ (f : FmtDA) i g, (i, g) ∈ Spec.floatRowsA f → Spec.floatCompletes i f.d.toNat 1 4 g

/-- R222 and R224: the widening conversions write two, four or five registers. -/
def Obligations.FloatWideningWords : Prop :=
  ∀ (f : FmtR) (h : FmtDA) i dst k g, (i, dst, k, g) ∈ Spec.widenRows f h → Spec.floatCompletes i dst k 4 g

/-- R212, R226, R229 and R230: the CORDIC words, with what a lane's function computes on the operands that take no
circular or hyperbolic pass. -/
def Obligations.CordicWords : Prop :=
  Spec.CordicRule ∧
  ∀ (f : FmtU) i lat g, (i, lat, g) ∈ Spec.cordicRows f → Spec.floatCompletes i f.d.toNat 1 lat g

/-- R36 and R213: an enabled flag makes every one of these words take ARITH with its destination
unwritten. -/
def Obligations.FloatArithTrap : Prop :=
  (∀ (f : FmtR) i g, (i, g) ∈ Spec.floatRowsR f → Spec.floatTraps i g) ∧
  (∀ (f : FmtDA) i g, (i, g) ∈ Spec.floatRowsA f → Spec.floatTraps i g) ∧
  (∀ (f : FmtR) (h : FmtDA) i dst k g, (i, dst, k, g) ∈ Spec.widenRows f h → Spec.floatTraps i g) ∧
  (∀ (f : FmtU) i lat g, (i, lat, g) ∈ Spec.cordicRows f → Spec.floatTraps i g)

/-- R212, R216, R217, R225, R232 and R233: the compare, the class mask, the sign copy, the block scale and the ray
tests. -/
def Obligations.FloatOtherWords : Prop :=
  (∀ (f : FmtP) (s : State), FloatIssues s (.vcmpF32 f) (fun d l =>
      let r := condF32 f.k.toNat (xf32 (d.vr f.a.toNat l)) (xf32 (d.bOp f.b f.s l))
      ([boolW r.1], r.2)) →
    ∃ t fl, exec (.vcmpF32 f) s = .next t ∧ WarpOnly s t ∧
      t.dev.curWarp = { s.dev.curWarp with
        fib := t.dev.curWarp.fib, flagsDue := s.dev.curWarp.flagsDue ++ [(s.dev.clk s.dev.cur.core + 4, fl % 32)] } ∧
      (∀ l, l < 32 → t.dev.curWarp.fibre l = if s.dev.active.getLsbD l = true then
        (s.dev.curWarp.fibre l).setPred f.p.toNat
          (condF32 f.k.toNat (xf32 (s.dev.vr f.a.toNat l)) (xf32 (s.dev.bOp f.b f.s l))).1
        else s.dev.curWarp.fibre l) ∧
      ∀ k, fl.testBit k = true ↔ ∃ l, l < 32 ∧ s.dev.active.getLsbD l = true ∧
        (condF32 f.k.toNat (xf32 (s.dev.vr f.a.toNat l)) (xf32 (s.dev.bOp f.b f.s l))).2.testBit k = true) ∧
  (∀ (f : FmtDA) (s : State), Issues s (.vclassF32 f) → ∃ t, exec (.vclassF32 f) s = .next t ∧
    FloatResult s t f.d.toNat 1 (fun l _ => classF32 (s.dev.vr f.a.toNat l)) 4 0) ∧
  (∀ (f : FmtR) (s : State), Issues s (.vsgnj f) → ∃ t, exec (.vsgnj f) s = .next t ∧
    FloatResult s t f.d.toNat 1 (fun l _ =>
      (Spec.opB s.dev f l).extractLsb' 31 1 ++ (Spec.opA s.dev f l).extractLsb' 0 31) 4 0) ∧
  (∀ (f : FmtR) (s : State),
    (∀ l, s.dev.active.getLsbD l = true → (Spec.opB s.dev f l).toNat % 16 ≤ 4) →
    (∀ l m, s.dev.active.getLsbD l = true → s.dev.active.getLsbD m = true → l / tileSize s.dev = m / tileSize s.dev →
      (Spec.opB s.dev f l).toNat % 16 = (Spec.opB s.dev f m).toNat % 16) →
    FloatIssues s (.vbscale f) (fun d l => bscaleAt d f l) → ∃ t, exec (.vbscale f) s = .next t ∧
      FloatResult s t f.d.toNat 1 (fun l _ =>
        BitVec.ofNat 32 (s12Cover ((Spec.opB s.dev f l).toNat % 16)
          ((tileLanes s.dev s.dev.active (l / tileSize s.dev)).flatMap (fun k =>
            (List.range 4).map (fun j => xf32 (s.dev.vr (f.a.toNat + j) k))))).1) 8
        (allFlags s.dev (fun d l => bscaleAt d f l))) ∧
  (∀ (f : FmtR) (s : State), Issues s (.vrbox f) → ∃ t, exec (.vrbox f) s = .next t ∧
    FloatResult s t f.d.toNat 2 (fun l j =>
      Spec.box (fun i => s.dev.vr (f.a.toNat + i) l) (fun i => if f.s = 1 then (s.dev.sr (f.b.toNat + i)).setWidth 32
        else s.dev.vr (f.b.toNat + i) l) j) 20 0) ∧
  (∀ (f : FmtR) (s : State), Issues s (.vrtri f) → ∃ t, exec (.vrtri f) s = .next t ∧
    FloatResult s t f.d.toNat 4 (fun l j =>
      Spec.triangle (fun i => s.dev.vr (f.a.toNat + i) l) (fun i => if f.s = 1 then (s.dev.sr (f.b.toNat + i)).setWidth 32
        else s.dev.vr (f.b.toNat + i) l) j) 40 0)

namespace Sys2Proof.Spec

open Sys2Proof.Machine

/-- R198: the scalar words of three registers: opcode, word, and what s[a], s[b] and the old s[d] give. -/
def scalarRows : List (BitVec 9 × (FmtS → Instr) × (DWord → DWord → DWord → DWord)) :=
  [(0x1C0, .sadd, fun a b _ => a + b),
   (0x1C1, .ssub, fun a b _ => a - b),
   (0x1C2, .smul, fun a b _ => BitVec.ofNat 64 (a.toNat * b.toNat)),
   (0x1C3, .sand, fun a b _ => a &&& b),
   (0x1C4, .sor, fun a b _ => a ||| b),
   (0x1C5, .sxor, fun a b _ => a ^^^ b),
   (0x1C6, .sshl, fun a b _ => if b.toNat ≥ 64 then 0 else a <<< b.toNat),
   (0x1C7, .sshr, fun a b _ => if b.toNat ≥ 64 then 0 else a >>> b.toNat),
   (0x1C8, .ssar, fun a b _ => BitVec.ofInt 64 (a.toInt / 2 ^ (min b.toNat 63))),
   (0x1C9, .smin, fun a b _ => if a.toInt ≤ b.toInt then a else b),
   (0x1CA, .smax, fun a b _ => if a.toInt ≤ b.toInt then b else a),
   (0x1CB, .sminz, fun a b _ => if a.toNat ≤ b.toNat then a else b),
   (0x1CC, .smaxz, fun a b _ => if a.toNat ≤ b.toNat then b else a),
   (0x1DB, .splset, fun a b _ => plset a (min b.toNat 64)),
   (0x1DC, .sbins, fun a b old => (old &&& ~~~b) ||| (a &&& b))]

/-- R202 with R33, R34, R64, R162, R164, R301, R382, R385 and R421: what a write of `v` to special register
`n` does.  A number that is not listed is read-only: the write is ignored. -/
def sregEffect (d : Dev) (n : Nat) (v : DWord) : Dev :=
  match n with
  | 0x08 => d.modCur (fun w => { w with
      rmode := (v &&& 0x1F1F07) ||| (if v.extractLsb' 0 3 = 0 then 1 else 0) })
  | 0x09 => d.modCur (fun w => { w with partn := v &&& 7 })
  | 0x0A => d.modCur (fun w => { w with
      wctl := (v &&& 1) ||| BitVec.ofNat 64 (16 * max 4 (v.extractLsb' 4 4).toNat) })
  | 0x0B => d.modCur (fun w => { w with watchdog := v &&& 0xFFFF })
  | 0x0F => d.modCur (fun w => { w with dseed := v &&& 0xFFFFFFFF })
  | 0x1A => d.modCur (fun w => { w with tcause := v &&& 0x77F1F })
  | 0x1E => d.modCur (fun w => { w with tpc := v })
  | 0x2B => d.modCur (fun w => { w with emuctl := v &&& 15 })
  | 0x38 => d.modGrp d.cur.gid (fun g => { g with
      mxcfg := (v &&& 0xF) ||| BitVec.ofNat 64 (16 * min 10 (v.extractLsb' 4 4).toNat) })
  | _ => d.modCtx d.curGrp.ctx (fun c =>
    let x := v &&& ctxMask n
    match n with
    | 0x18 => { c with trapvec := x }
    | 0x19 => { c with emuvec := x }
    | 0x2C => { c with dismask := x }
    | 0x3A => { c with mxshare := x }
    | 0x40 => { c with asid := x }
    | 0x41 => { c with ptbase := x }
    | 0x42 => { c with privbase := x }
    | 0x44 => { c with ctxcfg := x }
    | 0x45 => { c with ctxprio := x }
    | 0x46 => { c with savepool := x }
    | 0x47 => { c with savecfg := x }
    | 0x48 => { c with cvtbase := x }
    | _ => c)

/-- The values a register's own map turns down: RM = 111, a tile size above 4, a vector that is not a
multiple of 12, an unassigned CLASS-like code of `MXCFG`. -/
def sregTurnsDown (n : Nat) (v : DWord) : Prop :=
  (n = 0x08 ∧ v.extractLsb' 0 3 = 7) ∨ (n = 0x09 ∧ (v.extractLsb' 0 3).toNat > 4) ∨
    ((n = 0x18 ∨ n = 0x19) ∧ v.toNat % 12 ≠ 0) ∨ (n = 0x38 ∧ (v.extractLsb' 2 2).toNat ≥ 2)

/-- The linear index of a walker's four indices (R204). -/
def walkLinear (v : Nat) (idx : List Nat) : Nat :=
  idx.getD 0 0 + walkCount v 0 * (idx.getD 1 0 + walkCount v 1 * (idx.getD 2 0 + walkCount v 2 * idx.getD 3 0))

end Sys2Proof.Spec

/-- R198: the scalar words of three registers. -/
def Obligations.ScalarBinaryWords : Prop :=
  ∀ op mk g, (op, mk, g) ∈ Spec.scalarRows → ∀ f : FmtS, encode (mk f) = some (FmtS.bits op f) ∧
    ∀ s : State, Issues s (mk f) → ∃ t, exec (mk f) s = .next t ∧
      ScalarResult s t f.d.toNat (g (s.dev.sr f.a.toNat) (s.dev.sr f.b.toNat) (s.dev.sr f.d.toNat))

/-- R198, R199 and R200: the scalar words of one source, the immediate words with their encodings, and the
compare, which writes the predicate of every fibre of the batch.  `SFFCS` with d equal to a is no well-formed word. -/
def Obligations.ScalarOtherWords : Prop :=
  (∀ f : FmtSI, (encode (.saddi f)).map (fun w => w &&& 0x7FC00000) = some 0x73400000) ∧
  (∀ f : FmtSL, (encode (.sli f)).map (fun w => w &&& 0x7FC00000) = some 0x73800000 ∧
    (encode (.slih f)).map (fun w => w &&& 0x7FC00000) = some 0x73C00000) ∧
  (∀ f : FmtSC, encode (.scmp f) = some (f.c ++ (0x1D0 : BitVec 9) ++ f.p ++ f.k ++ f.a ++ f.b ++ (0 : BitVec 3))) ∧
  encode (.sli { c := 0, d := 4, i := 0x9E37 }) = some 0x73849E37 ∧
  encode (.slih { c := 0, d := 4, i := 0x79B9 }) = some 0x73C479B9 ∧
  encode (.slih { c := 0, d := 4, i := 0x7F4A }) = some 0x73C47F4A ∧
  encode (.slih { c := 0, d := 4, i := 0x7C15 }) = some 0x73C47C15 ∧
  (∀ f : FmtSA, f.d = f.a → (Instr.sffcs f).check = some (.emulate 10)) ∧
  (∀ (f : FmtSI) (s : State), Issues s (.saddi f) → ∃ t, exec (.saddi f) s = .next t ∧
    ScalarResult s t f.d.toNat (s.dev.sr f.a.toNat + BitVec.ofInt 64 f.i.toInt)) ∧
  (∀ (f : FmtSL) (s : State), Issues s (.sli f) → ∃ t, exec (.sli f) s = .next t ∧
    ScalarResult s t f.d.toNat (BitVec.ofInt 64 f.i.toInt)) ∧
  (∀ (f : FmtSL) (s : State), Issues s (.slih f) → ∃ t, exec (.slih f) s = .next t ∧
    ScalarResult s t f.d.toNat ((s.dev.sr f.d.toNat).extractLsb' 0 48 ++ f.i)) ∧
  (∀ (f : FmtSA) (s : State), Issues s (.spopc f) → ∃ t, exec (.spopc f) s = .next t ∧
    ScalarResult s t f.d.toNat (BitVec.ofNat 64 (popOf (s.dev.sr f.a.toNat)))) ∧
  (∀ (f : FmtSA) (s : State), Issues s (.sclz f) → ∃ t, exec (.sclz f) s = .next t ∧
    ScalarResult s t f.d.toNat (BitVec.ofNat 64 (clzOf (s.dev.sr f.a.toNat)))) ∧
  (∀ (f : FmtSA) (s : State), f.d ≠ f.a → Issues s (.sffcs f) → ∃ t, exec (.sffcs f) s = .next t ∧
    WarpOnly s t ∧ t.dev.curWarp = { s.dev.curWarp with s := t.dev.curWarp.s } ∧
    ∀ m, t.dev.curWarp.sr m =
      if m = f.d.toNat ∧ m ≠ 0 then BitVec.ofNat 64 (ffcOf (s.dev.sr f.a.toNat))
      else if m = f.a.toNat ∧ m ≠ 0 ∧ ffcOf (s.dev.sr f.a.toNat) < 64 then
        s.dev.sr f.a.toNat ||| (1#64 <<< ffcOf (s.dev.sr f.a.toNat))
      else s.dev.curWarp.sr m) ∧
  (∀ (f : FmtSC) (s : State), Issues s (.scmp f) → ∃ (t : State) (val : Bool), exec (.scmp f) s = .next t ∧
    PredicateResult s t s.dev.cur.lanes f.p.toNat (fun _ => val) ∧
    (val = true ↔ Spec.cond f.k (s.dev.sr f.a.toNat) (s.dev.sr f.b.toNat)))

/-- R202, R33, R164, R301, R382: a value that the register's own map turns down, for `MXCFG` a POLICY of 10 or 11 (R301), raises EMULATE, REASON 10, and the
register keeps its value. -/
def Obligations.SpecialRegisterTurnedDown : Prop :=
  ∀ (f : FmtSR) (s : State) (i : Instr), i = .swr f ∨ i = .sxch f → s.dev.cur.probe = false →
    s.dev.cur.snap = none → guard s.dev i.props = none → Spec.sregTurnsDown f.n.toNat (s.dev.sr f.s.toNat) →
    exec i s = .next { s with dev := takeRaise s.env s.dev (emulateRaise s.dev 10) }

/-- What `SRD` reads of the registers a warp or a context holds is what they hold, and of a number that
`SWR` wrote in a chain group of its own what was written, its reserved bits cleared. -/
def Sys2Proof.Spec.SpecialRegisterReadBack : Prop :=
  (∀ (e : Env) (d : Dev), sregRead e d 0x08 = d.opW.rmode ∧ sregRead e d 0x09 = d.opW.partn ∧
    sregRead e d 0x0E = d.opW.wflags ∧ sregRead e d 0x0F = d.opW.dseed ∧ sregRead e d 0x1A = d.opW.tcause ∧
    sregRead e d 0x1E = d.opW.tpc ∧ sregRead e d 0x28 = d.opW.emupc ∧ sregRead e d 0x2A = d.opW.emudepth ∧
    sregRead e d 0x18 = (d.ctx d.curGrp.ctx).trapvec ∧ sregRead e d 0x40 = (d.ctx d.curGrp.ctx).asid ∧
    (∀ k, k < 8 → sregRead e d (0x20 + k) = d.opW.ow.getD k 0)) ∧
  (∀ (e : Env) (d : Dev) (n : Nat) (v : DWord), d.cur.snap = none →
    n ∈ [0x18, 0x19, 0x2C, 0x3A, 0x40, 0x41, 0x42, 0x44, 0x45, 0x46, 0x47, 0x48] →
    sregRead e (sregWrite d n v) n = v &&& ctxMask n) ∧
  (∀ (e : Env) (d : Dev) (v : DWord), d.cur.snap = none →
    sregRead e (sregWrite d 0x09 v) 0x09 = v &&& 7 ∧ sregRead e (sregWrite d 0x0F v) 0x0F = v &&& 0xFFFFFFFF ∧
    sregRead e (sregWrite d 0x1E v) 0x1E = v ∧ sregRead e (sregWrite d 0x2B v) 0x2B = v &&& 15 ∧
    (v.extractLsb' 0 3 ≠ 0 → sregRead e (sregWrite d 0x08 v) 0x08 = v &&& 0x1F1F07))

/-- R202: `SRD` returns a special register, `SWR` writes it, and `SXCH` writes it and returns what it
held, wherever the register's own map does not turn the value down.  `SRD` of `RMODE` waits for every earlier VFLT
word of its warp (R37); `SRD` of `MXFOLD` is a join of the engine operations of its group that wrote memory, after
which no copy of a writable line is left in the core's L1 (R136, R142). -/
def Obligations.SpecialRegisterWords : Prop :=
  Sys2Proof.Spec.SpecialRegisterReadBack ∧ (
  (∀ (f : FmtSR) (s : State), Issues s (.srd f) → f.n ≠ 0x39 → (f.n = 0x08 → s.dev.opW.flagsDue = []) →
    ∃ t, exec (.srd f) s = .next t ∧ ScalarResult s t f.s.toNat (sregRead s.env s.dev f.n.toNat)) ∧
  (∀ (f : FmtSR) (s : State), Issues s (.srd f) → f.n = 0x08 → s.dev.cur.snap = none → s.dev.opW.flagsDue ≠ [] →
    exec (.srd f) s = .next { s with dev := rewind s.dev }) ∧
  (∀ (f : FmtSR) (s : State), Issues s (.srd f) → f.n = 0x39 → ∃ t, exec (.srd f) s = .next t ∧ t.env = s.env ∧
    t.dev = { s.dev with warps := t.dev.warps, groups := t.dev.groups, cores := t.dev.cores } ∧
    t.dev.curWarp = { s.dev.curWarp with s := t.dev.curWarp.s } ∧
    (∀ m, t.dev.curWarp.sr m = if m = f.s.toNat ∧ m ≠ 0 then sregRead s.env s.dev 0x39 else s.dev.curWarp.sr m) ∧
    (s.dev.curGrp.wrote = true → ∀ p ∈ (t.dev.core s.dev.curGrp.core).l1, p.2.wr = false)) ∧
  (∀ (f : FmtSR) (s : State), Issues s (.swr f) → ¬ Spec.sregTurnsDown f.n.toNat (s.dev.sr f.s.toNat) →
    exec (.swr f) s = .next { s with dev := Spec.sregEffect s.dev f.n.toNat (s.dev.sr f.s.toNat) }) ∧
  (∀ (f : FmtSR) (s : State), Issues s (.sxch f) → ¬ Spec.sregTurnsDown f.n.toNat (s.dev.sr f.s.toNat) →
    exec (.sxch f) s = .next { s with dev :=
      (Spec.sregEffect s.dev f.n.toNat (s.dev.sr f.s.toNat)).putSr f.s.toNat (sregRead s.env s.dev f.n.toNat) }))

/-- R201: the scalar memory words.  A load posts the data that the access reads, for s[d], which from the scratch
window lands in the sixth cycle after the issue at the earliest (R261); a store writes the low 8 bytes of s[d].
Neither changes a register when it issues. -/
def Obligations.ScalarMemoryWords : Prop :=
  (∀ (f : FmtSM) (s : State) (i : Instr) (size : Nat) (a : Acc), (i, size) ∈ [(Instr.sld64 f, 8), (Instr.sld32 f, 4)] →
    a = { lane := 0, va := s.dev.sr f.a.toNat + BitVec.ofInt 64 (f.o.toInt * size), total := size } →
    IssuesWith s i (fun e d => memCheck e d .read
      [{ lane := 0, va := d.sr f.a.toNat + BitVec.ofInt 64 (f.o.toInt * size), total := size }]) →
    ∃ t, exec i s = .next t ∧ t.env = s.env ∧ t.dev.warps = s.dev.warps ∧ t.dev.groups = s.dev.groups ∧
      (∀ (o : Nat), accTarget s.dev s.dev.who .read a (0, size) = .ok (.scr o, []) →
        t.dev = { s.dev with agenda := s.dev.agenda ++ [.loadReturn
          { core := s.dev.cur.core, slot := s.dev.cur.slot, due := s.dev.clk s.dev.cur.core + 6
            sca := [(f.d.toNat, BitVec.ofNat 64 ((s.dev.grp s.dev.cur.gid).scratch.readN o size))] }] }) ∧
      ∀ (pa : Nat) (pg : Page) (ads : List ADSet), s.dev.choice = [] →
        accTarget s.dev s.dev.who .read a (0, size) = .ok (.mem pa pg, ads) →
        t.dev.mem = (ads.foldl setAD s.dev).mem ∧ ∃ m, m ≤ 1 ∧ t.dev.agenda = s.dev.agenda ++ [.loadReturn
          { core := s.dev.cur.core, slot := s.dev.cur.slot, misses := m
            sca := [(f.d.toNat, BitVec.ofNat 64 ((ads.foldl setAD s.dev).mem.readN pa size))] }]) ∧
  (∀ (f : FmtSM) (s : State) (a : Acc),
    a = { lane := 0, va := s.dev.sr f.a.toNat + BitVec.ofInt 64 (f.o.toInt * 8), total := 8 } →
    IssuesWith s (.sst64 f) (fun e d => memCheck e d .write
      [{ lane := 0, va := d.sr f.a.toNat + BitVec.ofInt 64 (f.o.toInt * 8), total := 8 }]) →
    ∃ t, exec (.sst64 f) s = .next t ∧ t.env = s.env ∧ t.dev = writeAcc s.env s.dev s.dev s.dev.who a (s.dev.sr f.d.toNat).toNat false ∧
      ∀ (o : Nat), accTarget s.dev s.dev.who .write a (0, 8) = .ok (.scr o, []) →
        t.dev = scrWrite s.dev s.dev.cur.gid o 8 (s.dev.sr f.d.toNat).toNat)

/-- R205: a walker's step advances its linear index by one, around the whole pattern, and records a wrap of
dimension k where dimensions 0 to k all stood at their last index. -/
def Sys2Proof.Spec.WalkerOdometer : Prop :=
  ∀ (v : Nat) (idx : List Nat), idx.length = 4 → (∀ k, k < 4 → idx.getD k 0 < walkCount v k) →
    Spec.walkLinear v (walkStep v idx 4 0).1 =
      (Spec.walkLinear v idx + 1) % (walkCount v 0 * walkCount v 1 * walkCount v 2 * walkCount v 3) ∧
    ∀ k, k < 4 → ((walkStep v idx 4 0).2.testBit k = true ↔ ∀ j, j ≤ k → idx.getD j 0 + 1 = walkCount v j)

/-- R205 and R206: binding a walker, reading it and repositioning it. -/
def Obligations.WalkerWords : Prop :=
  Sys2Proof.Spec.WalkerOdometer ∧ (
  (∀ (f : FmtSW) (s : State), (s.dev.sr f.s.toNat).toNat % 64 = 0 →
    IssuesWith s (.wbind f) (fun e d => memCheck e d .read [{ lane := 0, va := d.sr f.s.toNat, total := 64 }]) →
    walkBad (readNow s.env s.dev s.dev { lane := 0, va := s.dev.sr f.s.toNat, total := 64 }).2 = false →
    ∃ t, exec (.wbind f) s = .next t ∧ t.env = s.env ∧
      (t.dev.curWarp.walkers.get f.w.toNat {}).num % 2 ^ 512 =
        (readNow s.env s.dev s.dev { lane := 0, va := s.dev.sr f.s.toNat, total := 64 }).2 % 2 ^ 512 ∧
      (t.dev.curWarp.walkers.get f.w.toNat {}).idx = [0, 0, 0, 0] ∧
      t.dev.curWarp.wflags = (s.dev.curWarp.wflags &&& ~~~(15#64 <<< (4 * f.w.toNat))) ||| (1#64 <<< (32 + f.w.toNat))) ∧
  (∀ (f : FmtSW) (s : State), s.dev.opW.wflags.getLsbD (32 + f.w.toNat) = true → Issues s (.wrd f) →
    ∃ t, exec (.wrd f) s = .next t ∧ WarpOnly s t ∧
      t.dev.curWarp = { s.dev.curWarp with
        s := t.dev.curWarp.s, walkers := t.dev.curWarp.walkers, wflags := t.dev.curWarp.wflags } ∧
      (∀ m, t.dev.curWarp.sr m = if m = f.s.toNat ∧ m ≠ 0 then (s.dev.curWarp.walkers.get f.w.toNat {}).addr
        else s.dev.curWarp.sr m) ∧
      t.dev.curWarp.wflags = (s.dev.curWarp.wflags &&& ~~~(15#64 <<< (4 * f.w.toNat))) |||
        (BitVec.ofNat 64 (walkStep (s.dev.curWarp.walkers.get f.w.toNat {}).num
          (s.dev.curWarp.walkers.get f.w.toNat {}).idx 4 0).2 <<< (4 * f.w.toNat)) ||| (1#64 <<< (32 + f.w.toNat)) ∧
      ∀ k, t.dev.curWarp.walkers.get k {} =
        if k = f.w.toNat then { s.dev.curWarp.walkers.get k {} with
          idx := (walkStep (s.dev.curWarp.walkers.get k {}).num (s.dev.curWarp.walkers.get k {}).idx 4 0).1 }
        else s.dev.curWarp.walkers.get k {}) ∧
  (∀ (f : FmtSW) (s : State), s.dev.opW.wflags.getLsbD (32 + f.w.toNat) = true → Issues s (.wrst f) →
    ∃ t, exec (.wrst f) s = .next t ∧ WarpOnly s t ∧
      t.dev.curWarp = { s.dev.curWarp with walkers := t.dev.curWarp.walkers, wflags := t.dev.curWarp.wflags } ∧
      t.dev.curWarp.wflags = (s.dev.curWarp.wflags &&& ~~~(15#64 <<< (4 * f.w.toNat))) ||| (1#64 <<< (32 + f.w.toNat)) ∧
      ∀ v, v = (s.dev.curWarp.walkers.get f.w.toNat {}).num → (∀ k, walkCount v k > 0) →
        Spec.walkLinear v (t.dev.curWarp.walkers.get f.w.toNat {}).idx = (s.dev.sr f.s.toNat).toNat %
          (walkCount v 0 * walkCount v 1 * walkCount v 2 * walkCount v 3)))

/-- R207: the registers of a faulting frame, as a handler reads and writes them: a vector register through the frame's
window base, as the chain group found it; s56 to s63 where the level's record keeps them; a predicate word; a join mask,
whose write also lets the parked lanes go on that it no longer holds (the model's choice, log 68); a window; and a q register
of the group's stream.  A lane of the host has its predicates and window in the record. -/
def Obligations.FrameRegisterWords : Prop :=
  (∀ (f : FmtSU) (s : State), IssuesWith s (.emurd f) (fun _ d => emuCheck d f.a f.b f.u.toNat none) →
    ∃ t, exec (.emurd f) s = .next t ∧ ∃ x, ScalarResult s t f.d.toNat x ∧
      (f.u = 0 → x = ((s.dev.opW.phys ((frameFibre s.dev.opW ((s.dev.sr f.b.toNat).toNat % 32)).base * 16 +
        (s.dev.sr f.a.toNat).toNat % 128) ((s.dev.sr f.b.toNat).toNat % 32))).setWidth 64) ∧
      (f.u = 1 → (s.dev.sr f.a.toNat).toNat % 64 < 56 → x = s.dev.opW.sr ((s.dev.sr f.a.toNat).toNat % 64)) ∧
      (f.u = 1 → ∀ lv rest, 56 ≤ (s.dev.sr f.a.toNat).toNat % 64 → s.dev.opW.levels = lv :: rest →
        x = lv.s56.getD ((s.dev.sr f.a.toNat).toNat % 64 - 56) 0) ∧
      (f.u = 2 → x = ((frameFibre s.dev.opW ((s.dev.sr f.b.toNat).toNat % 32)).preds ||| 1).setWidth 64) ∧
      (f.u = 3 → x = (s.dev.opW.jm ((s.dev.sr f.a.toNat).toNat % 8)).setWidth 64) ∧
      (f.u = 4 → x = BitVec.ofNat 64 (let fb := frameFibre s.dev.opW ((s.dev.sr f.b.toNat).toNat % 32)
        fb.base + fb.depth * 16 + fb.stack.toNat * 256)) ∧
      (f.u = 5 → ∀ st, s.dev.curGrp.stream = some st → x = st.qr ((s.dev.sr f.a.toNat).toNat % 16))) ∧
  (∀ (f : FmtSU) (s : State), IssuesWith s (.emuwr f) (fun _ d => emuCheck d f.a f.b f.u.toNat (some f.d)) →
    ∃ t, exec (.emuwr f) s = .next t ∧ t.env = s.env ∧ (f.u.toNat < 5 → WarpOnly s t) ∧
      (f.u = 0 → t.dev.curWarp = s.dev.curWarp.setPhys
        ((frameFibre s.dev.opW ((s.dev.sr f.b.toNat).toNat % 32)).base * 16 + (s.dev.sr f.a.toNat).toNat % 128)
        ((s.dev.sr f.b.toNat).toNat % 32) ((s.dev.sr f.d.toNat).setWidth 32)) ∧
      (f.u = 1 → (s.dev.sr f.a.toNat).toNat % 64 < 56 →
        t.dev.curWarp = s.dev.curWarp.setSr ((s.dev.sr f.a.toNat).toNat % 64) (s.dev.sr f.d.toNat)) ∧
      (f.u = 2 → ((frameFibre t.dev.curWarp ((s.dev.sr f.b.toNat).toNat % 32))).preds =
        (s.dev.sr f.d.toNat).setWidth 16 &&& 0xFFFE) ∧
      (f.u = 1 → ∀ lv rest, 56 ≤ (s.dev.sr f.a.toNat).toNat % 64 → s.dev.curWarp.levels = lv :: rest →
        t.dev.curWarp = { s.dev.curWarp with
          levels := { lv with s56 := lv.s56.set ((s.dev.sr f.a.toNat).toNat % 64 - 56) (s.dev.sr f.d.toNat) } :: rest }) ∧
      (f.u = 3 → t.dev.curWarp = { s.dev.curWarp with j := t.dev.curWarp.j, fib := t.dev.curWarp.fib } ∧
        (∀ k, t.dev.curWarp.jm k = if k = (s.dev.sr f.a.toNat).toNat % 8 then (s.dev.sr f.d.toNat).setWidth 32
          else s.dev.curWarp.jm k) ∧
        ∀ l x, l < 32 → (s.dev.curWarp.fibre l).park = .join ((s.dev.sr f.a.toNat).toNat % 8) x →
          (s.dev.sr f.d.toNat).getLsbD l = false → (t.dev.curWarp.fibre l).park = .running) ∧
      (f.u = 4 → frameFibre t.dev.curWarp ((s.dev.sr f.b.toNat).toNat % 32) =
        { frameFibre s.dev.curWarp ((s.dev.sr f.b.toNat).toNat % 32) with
          base := (s.dev.sr f.d.toNat).toNat % 16, depth := (s.dev.sr f.d.toNat).toNat / 16 % 16
          stack := (s.dev.sr f.d.toNat).extractLsb' 8 32 }) ∧
      (f.u = 5 → ∀ g st, s.dev.groups.find? s.dev.cur.gid = some g → g.stream = some st → ∃ st', t.dev = { s.dev with
          groups := t.dev.groups } ∧ t.dev.curGrp = { g with stream := some st' } ∧
        st' = { st with q := st'.q } ∧ ∀ m, st'.qr m =
          if m = (s.dev.sr f.a.toNat).toNat % 16 ∧ m ≠ 0 then s.dev.sr f.d.toNat else st.qr m))

/-- R208 and R290: a handler of a class-4 word reads and writes one element of an accumulator tile of its
core; a tile last written under another ASID reads as zeros. -/
def Obligations.AccumulatorElementWords : Prop :=
  ∀ (f : FmtS) (s : State) (tile el : Nat), tile = (s.dev.sr f.a.toNat).toNat → el = (s.dev.sr f.b.toNat).toNat →
    el < 1024 →
    (IssuesWith s (.accrd f) (fun _ d => accCheck d f.a f.b) → ∃ t, exec (.accrd f) s = .next t ∧ t.env = s.env ∧
      ∀ m, t.dev.curWarp.sr m = if m = f.d.toNat ∧ m ≠ 0 then
          (if (s.dev.core s.dev.cur.core).accTag.get tile 0 = s.dev.curAsid then
            ((s.dev.core s.dev.cur.core).acc.get (tile * 1024 + el) 0).setWidth 64 else 0)
        else s.dev.curWarp.sr m) ∧
    (IssuesWith s (.accwr f) (fun _ d => accCheck d f.a f.b) → ∃ t, exec (.accwr f) s = .next t ∧ t.env = s.env ∧
      t.dev.warps = s.dev.warps ∧
      (t.dev.core s.dev.cur.core).acc.get (tile * 1024 + el) 0 = (s.dev.sr f.d.toNat).setWidth 32)

namespace Sys2Proof.Spec

open Sys2Proof.Machine

/-- R239, R240: the loads: word, registers written, bytes, whether the form is a scratch form, whether it
extends the sign, and word j of the result from the bytes read. -/
def loadRows (f : FmtM) : List (Instr × Nat × Nat × Bool × Bool × (Nat → Nat → Word)) :=
  [(.ldZ8 f, 1, 1, false, false, fun v _ => BitVec.ofNat 32 v),
   (.ldS8 f, 1, 1, false, true, fun v _ => (BitVec.ofNat 8 v).signExtend 32),
   (.ldZ16 f, 1, 2, false, false, fun v _ => BitVec.ofNat 32 v),
   (.ldS16 f, 1, 2, false, true, fun v _ => (BitVec.ofNat 16 v).signExtend 32),
   (.ld32 f, 1, 4, false, false, fun v _ => BitVec.ofNat 32 v),
   (.ld64 f, 2, 8, false, false, fun v j => BitVec.ofNat 32 (v / 2 ^ (32 * j))),
   (.ld128 f, 4, 16, false, false, fun v j => BitVec.ofNat 32 (v / 2 ^ (32 * j))),
   (.lds32 f, 1, 4, true, false, fun v _ => BitVec.ofNat 32 v),
   (.lds64 f, 2, 8, true, false, fun v j => BitVec.ofNat 32 (v / 2 ^ (32 * j))),
   (.lds128 f, 4, 16, true, false, fun v j => BitVec.ofNat 32 (v / 2 ^ (32 * j)))]

/-- R239, R240: the stores: word, registers read, bytes, and whether the form is a scratch form. -/
def storeRows (f : FmtM) : List (Instr × Nat × Nat × Bool) :=
  [(.st8 f, 1, 1, false), (.st16 f, 1, 2, false), (.st32 f, 1, 4, false), (.st64 f, 2, 8, false),
   (.st128 f, 4, 16, false), (.sts32 f, 1, 4, true), (.sts64 f, 2, 8, true), (.sts128 f, 4, 16, true)]

/-- R235, R237: the access of a lane under format M: the pair at a plus the offset times the size, its line with the
priority that H asks for; and under format MS: the register at a plus the same, without wrap. -/
def access (scratch : Bool) (f : FmtM) (size : Nat) (d : Dev) (l : Nat) : Acc :=
  if scratch then
    { lane := l, va := BitVec.ofNat 64 ((d.vr f.a.toNat l).toNat + f.o.toNat * size), total := size
      scr := some ((d.vr f.a.toNat l).toNat + f.o.toNat * size), half := halfDone d l }
  else
    { lane := l, va := d.vpair f.a.toNat l + BitVec.ofNat 64 (f.o.toNat * size), total := size, half := halfDone d l
      pri := if f.h = 1 then 0 else if f.h = 2 then 2 else 1 }

/-- No save stops the word between two of the lines it accesses (R242; log 69). -/
def uninterrupted (scratch : Bool) (f : FmtM) (size : Nat) (d : Dev) : Prop :=
  interrupted d (fun l => [access scratch f size d l]) = none

/-- The little-endian bytes a store takes from `k` registers of a lane. -/
def stored (d : Dev) (src k size l : Nat) : Nat :=
  ((d.vr src l).toNat + (if 1 < k then (d.vr (src + 1) l).toNat * 2 ^ 32 else 0) +
    (if 2 < k then (d.vr (src + 2) l).toNat * 2 ^ 64 + (d.vr (src + 3) l).toNat * 2 ^ 96 else 0)) % 2 ^ (8 * size)

/-- The events of a lane's access that are still to perform, by offset and size: one, or both halves of 16 bytes, the
lower of which a save may have let perform already (R124, R392). -/
def events (half : Bool) (size : Nat) : List (Nat × Nat) :=
  if size ≤ 8 then [(0, size)] else if half = true then [(8, 8)] else [(0, 8), (8, 8)]

/-- R90, R131, R240: what the lanes of a load read of memory, in ascending order, each event after the marks in its page
entries: `pa l o` is where the translation puts the event of lane `l` at offset `o`, and `ads l o` what it marks.  The
result is the state with those marks, and each lane's bytes as one number. -/
def laneReads (pa : Nat → Nat → Nat) (ads : Nat → Nat → List ADSet) (l : Nat) (es : List (Nat × Nat)) (d : Dev) : Dev × Nat :=
  es.foldl (fun x p =>
    let d := (ads l p.1).foldl setAD x.1
    (d, x.2 + d.mem.readN (pa l p.1) p.2 * 2 ^ (8 * p.1))) (d, 0)
def loadReads (pa : Nat → Nat → Nat) (ads : Nat → Nat → List ADSet) (es : Nat → List (Nat × Nat)) (ls : List Nat) (d : Dev) :
    Dev × List (Nat × Nat) :=
  ls.foldl (fun x l =>
    let r := laneReads pa ads l (es l) x.1
    (r.1, x.2 ++ [(l, r.2)])) (d, [])

/-- The registers of a lane that a load's events reach: all `k`, or past the first two where the lower half has
performed already. -/
def reached (half : Bool) (k : Nat) : List Nat := (List.range k).filter (fun j => !half || k != 4 || decide (2 ≤ j))

/-- No word waits for a bind slot (R403). -/
def noBindWait (d : Dev) : Prop := ∀ t, t < 2 → ∀ p ∈ (d.tower t).fb, p.2.kind ≠ 6

/-- An atomic's checks over its active lanes (R238, R248, R249). -/
def atomicCheck (f : FmtMA) (size : Nat) (hostOk : Bool) (e : Env) (d : Dev) : Option Raise :=
  raiseOf d 2 ((lanesOf d.active).flatMap (fun l =>
    (atomErrs e d (f.t.getLsbD 0) hostOk { lane := l, va := d.vpair f.a.toNat l, total := size }).map
      (fun x => ({ lane := l, va := d.vpair f.a.toNat l, total := size }, x))))

/-- R247: the lanes' read-modify-writes in ascending order, each on what the one before it left, and what each
returns: on memory at `pa l`, where each lane's translation marks its page entry first, and on scratch at `o l`. -/
def atomicMem (s : State) (size : Nat) (fn : Dev → Nat → Nat → Nat × Nat) (pa : Nat → Nat) (ads : Nat → List ADSet) :
    Dev × List (Nat × Nat) :=
  (lanesOf s.dev.active).foldl (fun x l =>
    let d := (ads l).foldl setAD x.1
    let r := fn s.dev l (d.mem.readN (pa l) size)
    ({ d with mem := d.mem.writeN (pa l) size r.1 }, x.2 ++ [(l, r.2)])) (s.dev, [])
def atomicScr (s : State) (size : Nat) (fn : Dev → Nat → Nat → Nat × Nat) (o : Nat → Nat) : Memory × List (Nat × Nat) :=
  (lanesOf s.dev.active).foldl (fun x l =>
    let r := fn s.dev l (x.1.readN (o l) size)
    (x.1.writeN (o l) size r.1, x.2 ++ [(l, r.2)])) (s.dev.curGrp.scratch, [])

/-- What an atomic returns with RET: `k` registers of each active lane, and 0 in the others under Z. -/
def atomicReply (s : State) (f : FmtMA) (k : Nat) (r : List (Nat × Nat)) : List Ev.Event :=
  if f.t = 1 then [.loadReturn {
    core := s.dev.cur.core, slot := s.dev.cur.slot
    vec := r.flatMap (fun x => (List.range k).map (fun j => ((s.dev.cur.base * 16 + f.d.toNat + j) * 32 + x.1,
      BitVec.ofNat 32 (x.2 / 2 ^ (32 * j))))) ++ zeroed s.dev f.d.toNat k }] else []

/-- An atomic completes: where its checks pass, each active lane's read-modify-write performs after the one before
it, and with RET the old values are on their way to v[d].  `fn` gives the new bytes and what is returned from the old
bytes; `hostOk` says that host memory takes the word (R246 to R248). -/
def atomicCompletes (f : FmtMA) (i : Instr) (size k : Nat) (hostOk : Bool) (fn : Dev → Nat → Nat → Nat × Nat) : Prop :=
  ∀ s : State, IssuesWith s i (atomicCheck f size hostOk) → ∃ t : State, exec i s = .next t ∧ t.env = s.env ∧
    (s.dev.active = 0 → s.dev.zeroing = false → t.dev = s.dev) ∧
    (∀ (pa : Nat → Nat) (pg : Nat → Page) (ads : Nat → List ADSet), s.dev.active ≠ 0 → s.dev.choice = [] →
      noBindWait s.dev →
      (∀ l ∈ lanesOf s.dev.active, readErr s.dev (pa l) = none ∧
        accTarget s.dev s.dev.who .atomic { lane := l, va := s.dev.vpair f.a.toNat l, total := size } (0, size) =
          .ok (.mem (pa l) (pg l), ads l)) →
      t.dev.mem = (atomicMem s size fn pa ads).1.mem ∧ t.dev.warps = s.dev.warps ∧
      t.dev.agenda = s.dev.agenda ++ atomicReply s f k (atomicMem s size fn pa ads).2) ∧
    (∀ (o : Nat → Nat), s.dev.active ≠ 0 → (s.dev.groups.find? s.dev.cur.gid).isSome = true →
      (∀ l ∈ lanesOf s.dev.active,
        accTarget s.dev s.dev.who .atomic { lane := l, va := s.dev.vpair f.a.toNat l, total := size } (0, size) =
          .ok (.scr (o l), [])) →
      t.dev.mem = s.dev.mem ∧ t.dev.curGrp.scratch = (atomicScr s size fn o).1 ∧
      t.dev.agenda = s.dev.agenda ++ atomicReply s f k (atomicScr s size fn o).2)

/-- The new word from the old one and the lane's data, the old one returned. -/
def atomic32 (f : FmtMA) (g : Word → Word → Word) (d : Dev) (l old : Nat) : Nat × Nat :=
  ((g (BitVec.ofNat 32 old) (d.vr f.d.toNat l)).toNat, old)

end Sys2Proof.Spec

/-- R237, R240 and R11: what a load reads.  A scratch load of every lane still to be served reads its bytes
of the group's scratch, least significant first, and lands in the sixth cycle at the earliest (R261); a load of any number
of lanes whose translations all give memory reads it there, where no copy is stale (R136), after the marks in the page
entries (R90), which are all that it changes of memory.  The data goes to the registers of each lane, and the batch's other
lanes receive 0 under Z. -/
def Sys2Proof.Spec.LoadedData : Prop :=
  ∀ (f : FmtM) i k size scratch sx val, (i, k, size, scratch, sx, val) ∈ Spec.loadRows f → ∀ s : State,
    Spec.uninterrupted scratch f size s.dev →
    (scratch = true → memLanes s.dev ≠ [] →
      (∀ l ∈ memLanes s.dev, halfDone s.dev l = false ∧
        (s.dev.vr f.a.toNat l).toNat + f.o.toNat * size + size ≤ (s.dev.grp s.dev.cur.gid).shape.scratch) →
      loadEff f.d.toNat k (Spec.access scratch f size) sx s.env s.dev =
        clearPidx (postVec s.dev ((memLanes s.dev).flatMap (fun l => (List.range k).map (fun j =>
          (((s.dev.cur.base * 16 + f.d.toNat + j) * 32 + l),
            BitVec.ofNat 32 ((s.dev.grp s.dev.cur.gid).scratch.readN
              ((s.dev.vr f.a.toNat l).toNat + f.o.toNat * size + 4 * j) 4)))) ++
          zeroed s.dev f.d.toNat k) 0 (s.dev.clk s.dev.cur.core + 6))) ∧
    (scratch = false → s.dev.choice = [] →
      ∀ (pa : Nat → Nat → Nat) (pg : Nat → Nat → Page) (ads : Nat → Nat → List ADSet) (r : Dev × List (Nat × Nat)),
        (∀ l ∈ memLanes s.dev, ∀ p ∈ Spec.events (halfDone s.dev l) size,
          resolve s.dev s.dev.who (s.dev.vpair f.a.toNat l + BitVec.ofNat 64 (f.o.toNat * size)) size p.1 p.2 .read 0 =
            .ok (.mem (pa l p.1) (pg l p.1), ads l p.1)) →
        r = Spec.loadReads pa ads (fun l => Spec.events (halfDone s.dev l) size) (memLanes s.dev) s.dev →
        ∃ u m, loadEff f.d.toNat k (Spec.access scratch f size) sx s.env s.dev =
            clearPidx (postVec u (r.2.flatMap (fun x => (Spec.reached (halfDone s.dev x.1) k).map (fun j =>
              (((s.dev.cur.base * 16 + f.d.toNat + j) * 32 + x.1), val x.2 j))) ++ zeroed s.dev f.d.toNat k) m 0) ∧
          u.mem = r.1.mem ∧ u.warps = s.dev.warps ∧ u.agenda = s.dev.agenda ∧ u.groups = s.dev.groups ∧
          m ≤ 2 * (memLanes s.dev).length)

/-- R240: each of the ten loads `LD.Z8`, `LD.S8`, `LD.Z16`, `LD.S16`, `LD.32`, `LD.64`, `LD.128`, `LDS.32`, `LDS.64` and
`LDS.128` completes wherever its checks pass: its data is on its way to the registers, as `LoadedData` says, and no register,
predicate, scratch byte or other state of a group changes when it issues, but for the marks of `PIDX`; of memory nothing but
page entries changes, and nothing at all where nothing is translated.  Where a save stops it between two lines (R242, R392;
log 69), `PIDX` holds the lanes it has served and the batch stands at its chain group again. -/
def Obligations.LoadWords : Prop :=
  Sys2Proof.Spec.LoadedData ∧ (
  ∀ (f : FmtM) i k size scratch sx val, (i, k, size, scratch, sx, val) ∈ Spec.loadRows f → ∀ s : State,
    IssuesWith s i (fun e d => memCheck e d .read ((memLanes d).map (Spec.access scratch f size d))) →
    ∃ t, exec i s = .next t ∧ t.env = s.env ∧
      t.dev = loadEff f.d.toNat k (Spec.access scratch f size) sx s.env s.dev ∧
      t.dev = { s.dev with
        mem := t.dev.mem, warps := t.dev.warps, cores := t.dev.cores, towers := t.dev.towers, tlb := t.dev.tlb
        linkLog := t.dev.linkLog, mgmt := t.dev.mgmt, agenda := t.dev.agenda } ∧
      (∀ c w, wkey c w ≠ wkey s.dev.cur.core s.dev.cur.slot → t.dev.warp c w = s.dev.warp c w) ∧
      (scratch = true → t.dev.mem = s.dev.mem) ∧
      (Spec.uninterrupted scratch f size s.dev →
        t.dev.curWarp = { s.dev.curWarp with pidx := t.dev.curWarp.pidx } ∧
        t.dev.curWarp.pidx &&& pairWord s.dev.cur.lanes s.dev.cur.lanes = 0) ∧
      ∀ ls half, interrupted s.dev (fun l => [Spec.access scratch f size s.dev l]) = some (ls, half) →
        t.dev.curWarp.v = s.dev.curWarp.v ∧ t.dev.curWarp.s = s.dev.curWarp.s ∧
        t.dev.curWarp.pidx = s.dev.curWarp.pidx ||| pairWord (maskOf half.toList) (maskOf ls) ∧
        ∀ l, l < 32 → t.dev.curWarp.fibre l =
          if s.dev.cur.lanes.getLsbD l = true then { s.dev.curWarp.fibre l with pc := s.dev.cur.gpc }
          else s.dev.curWarp.fibre l)

/-- R11, R126 and R253: the bytes of one lane's store.  In memory the bytes at the address its translation
gives hold the data, least significant first, and every other byte is as the translation left it; of 16 bytes each half has
its own translation, and the upper one is written after the lower.  In scratch the same holds of the group's bytes, and
memory does not change.  A register's write is a step of its own, which follows within the word's (R414); no register
answers elsewhere, and the store is dropped. -/
def Sys2Proof.Spec.StoredBytes : Prop :=
  ∀ (e : Env) (d : Dev) (a : Acc) (v : Nat) (drop : Bool),
    (∀ (pa : Nat) (pg : Page) (ads : List ADSet), a.total ≤ 8 → d.choice = [] → Spec.noBindWait d →
      accTarget d d.who .write a (0, a.total) = .ok (.mem pa pg, ads) → ∀ b,
      Memory.read (writeAcc e d d d.who a v drop).mem b =
        if pa ≤ b ∧ b < pa + a.total then BitVec.ofNat 8 (v / 256 ^ (b - pa))
        else Memory.read (ads.foldl setAD d).mem b) ∧
    (∀ (pa pb : Nat) (pg ph : Page) (ads bds : List ADSet) (m : Dev), a.total = 16 → d.choice = [] → Spec.noBindWait d →
      accTarget d d.who .write a (8, 8) = .ok (.mem pb ph, bds) →
      (a.half = false → accTarget d d.who .write a (0, 8) = .ok (.mem pa pg, ads) ∧
        ∀ b, Memory.read m.mem b = if pa ≤ b ∧ b < pa + 8 then BitVec.ofNat 8 (v / 256 ^ (b - pa))
          else Memory.read (ads.foldl setAD d).mem b) →
      (a.half = true → m = d) → ∀ b,
      Memory.read (writeAcc e d d d.who a v drop).mem b =
        if pb ≤ b ∧ b < pb + 8 then BitVec.ofNat 8 (v / 256 ^ (8 + (b - pb)))
        else Memory.read (bds.foldl setAD m).mem b) ∧
    (∀ (o lo : Nat), a.total ≤ 8 ∨ a.total = 16 → lo = (if a.half = true ∧ a.total = 16 then 8 else 0) →
      (∀ p ∈ Spec.events a.half a.total, accTarget d d.who .write a p = .ok (.scr (o + p.1), [])) → 0 < a.total →
      (d.groups.find? d.cur.gid).isSome = true →
      (writeAcc e d d d.who a v drop).mem = d.mem ∧
      ∀ b, Memory.read ((writeAcc e d d d.who a v drop).grp d.cur.gid).scratch b =
        if o + lo ≤ b ∧ b < o + a.total then BitVec.ofNat 8 (v / 256 ^ (b - o))
        else Memory.read (d.grp d.cur.gid).scratch b) ∧
    (∀ (tw key lo : Nat), a.total ≤ 8 ∨ a.total = 16 → lo = (if a.half = true ∧ a.total = 16 then 8 else 0) →
      (∀ p ∈ Spec.events a.half a.total, accTarget d d.who .write a p = .ok (.ring tw (key + p.1), [])) →
      (writeAcc e d d d.who a v drop).mem = d.mem ∧
      ∀ b, Memory.read ((writeAcc e d d d.who a v drop).tower tw).ringMem b =
        if key + lo ≤ b ∧ b < key + a.total then BitVec.ofNat 8 (v / 256 ^ (b - key))
        else Memory.read (d.tower tw).ringMem b) ∧
    (∀ (o : Nat) (ads : List ADSet), a.total ≤ 8 →
      accTarget d d.who .write a (0, a.total) = .ok (.reg o, ads) →
      writeAcc e d d d.who a v drop =
        if (regReadN e (touch d d.who.ctx ads) o a.total).isSome = true then
          (touch d d.who.ctx ads).post (regWriteStep o a.total (BitVec.ofNat 64 (v % 2 ^ (8 * a.total))) false)
        else touch d d.who.ctx ads)

/-- R240, R241 and R242: each of the eight stores `ST.8`, `ST.16`, `ST.32`, `ST.64`, `ST.128`, `STS.32`, `STS.64` and
`STS.128` completes wherever its checks pass, each lane still to be served writing its registers' bytes in ascending
lane order.  A scratch store changes no byte of memory.  Where a save stops it between two lines (R392; log 69), its
batch stands at its chain group again. -/
def Obligations.StoreWords : Prop :=
  Sys2Proof.Spec.StoredBytes ∧ (
  ∀ (f : FmtM) i k size scratch, (i, k, size, scratch) ∈ Spec.storeRows f → ∀ s : State,
    IssuesWith s i (fun e d => memCheck e d .write ((memLanes d).map (Spec.access scratch f size d))) →
    ∃ t, exec i s = .next t ∧ t.env = s.env ∧
      (Spec.uninterrupted scratch f size s.dev →
        t.dev = clearPidx ((memLanes s.dev).foldl (fun d l => writeAcc s.env s.dev d s.dev.who
          (Spec.access scratch f size s.dev l) (Spec.stored s.dev f.d.toNat k size l) false) s.dev)) ∧
      (Spec.noBindWait s.dev → s.dev.cur.snap = none →
        t.dev.cur = s.dev.cur ∧ t.dev.ctxs = s.dev.ctxs ∧ t.dev.launches = s.dev.launches ∧ t.dev.cols = s.dev.cols ∧
        t.dev.saved = s.dev.saved ∧ t.dev.now = s.dev.now) ∧
      (scratch = true → t.dev.mem = s.dev.mem) ∧
      ∀ ls half, interrupted s.dev (fun l => [Spec.access scratch f size s.dev l]) = some (ls, half) →
        (Spec.noBindWait s.dev → t.dev.curWarp.pidx = s.dev.curWarp.pidx ||| pairWord (maskOf half.toList) (maskOf ls)) ∧
        ∀ l, l < 32 → s.dev.cur.lanes.getLsbD l = true → (t.dev.curWarp.fibre l).pc = s.dev.cur.gpc)

/-- R245 to R248: the thirteen atomics complete. -/
def Obligations.AtomicWords : Prop :=
  ∀ f : FmtMA,
    Spec.atomicCompletes f (.aaddS32 f) 4 1 true (Spec.atomic32 f (fun o v => o + v)) ∧
    Spec.atomicCompletes f (.aaddF32 f) 4 1 false (Spec.atomic32 f (fun o v => (roundF32 rne ((xf32 o).add false (xf32 v))).1)) ∧
    Spec.atomicCompletes f (.aminS32 f) 4 1 false (Spec.atomic32 f (fun o v => if o.toInt ≤ v.toInt then o else v)) ∧
    Spec.atomicCompletes f (.amaxS32 f) 4 1 false (Spec.atomic32 f (fun o v => if o.toInt ≤ v.toInt then v else o)) ∧
    Spec.atomicCompletes f (.aminZ32 f) 4 1 false (Spec.atomic32 f (fun o v => if o.toNat ≤ v.toNat then o else v)) ∧
    Spec.atomicCompletes f (.amaxZ32 f) 4 1 false (Spec.atomic32 f (fun o v => if o.toNat ≤ v.toNat then v else o)) ∧
    Spec.atomicCompletes f (.aand f) 4 1 false (Spec.atomic32 f (fun o v => o &&& v)) ∧
    Spec.atomicCompletes f (.aor f) 4 1 false (Spec.atomic32 f (fun o v => o ||| v)) ∧
    Spec.atomicCompletes f (.axor f) 4 1 false (Spec.atomic32 f (fun o v => o ^^^ v)) ∧
    Spec.atomicCompletes f (.axchg f) 4 1 true (Spec.atomic32 f (fun _ v => v)) ∧
    Spec.atomicCompletes f (.acas f) 4 1 true (fun d l old =>
      (if old = (d.vr f.d.toNat l).toNat then (d.vr (f.d.toNat + 1) l).toNat else old, old)) ∧
    Spec.atomicCompletes f (.aaddS64 f) 8 2 true (fun d l old =>
      ((old + (d.vpair f.d.toNat l).toNat) % 2 ^ 64, old)) ∧
    Spec.atomicCompletes f (.affcs64 f) 8 1 false (fun _ _ old =>
      (if ffcOf (BitVec.ofNat 64 old) < 64 then old ||| 2 ^ ffcOf (BitVec.ofNat 64 old) else old,
        ffcOf (BitVec.ofNat 64 old)))

namespace Sys2Proof.Spec

open Sys2Proof.Machine

/-- The fields of a data-arrival word (R253): COUNT, TARGET, GEN, FAULT, ARMED. -/
def dawCount (x : DWord) : Nat := (x.extractLsb' 0 28).toNat
def dawTarget (x : DWord) : Nat := (x.extractLsb' 28 28).toNat
def dawG (x : DWord) : Nat := (x.extractLsb' 56 6).toNat
def dawF (x : DWord) : Bool := x.getLsbD 62
def dawA (x : DWord) : Bool := x.getLsbD 63
/-- A data-arrival word with these fields. -/
def daw (count target gen : Nat) (fault armed : Bool) : DWord :=
  (if armed then 1#1 else 0#1) ++ (if fault then 1#1 else 0#1) ++ BitVec.ofNat 6 gen ++ BitVec.ofNat 28 target ++
    BitVec.ofNat 28 count

/-- Arrive(w, n) of R253: an armed word that reaches its target releases, and anything past it is a fault; a
word that is not armed counts on, and an overflow of the count is a fault. -/
def arrived (x : DWord) (n : Nat) : DWord :=
  if dawA x = true ∧ dawCount x + n ≥ dawTarget x then
    daw 0 (dawTarget x) (dawG x + 1) (dawF x || decide (dawCount x + n > dawTarget x)) false
  else
    daw (min (dawCount x + n) (2 ^ 28 - 1)) (dawTarget x) (dawG x)
      (dawF x || decide (dawCount x + n > 2 ^ 28 - 1)) (dawA x)

/-- The data-arrival word at an offset of the issuing group's scratch. -/
def wordAt (d : Dev) (off : Nat) : DWord := BitVec.ofNat 64 ((d.grp d.cur.gid).scratch.readN off 8)

/-- The entries of the direction a core pushes to (`push`) or pops from: UP from the lower core of a column,
DOWN from the upper (R169, R258). -/
def fifo (d : Dev) (push : Bool) : List (List Word) :=
  if (d.cur.core % 2 = 0) = (push = true) then (d.col (d.cur.core / 2)).up else (d.col (d.cur.core / 2)).down

/-- What the current cycle has put into that direction and taken out of it: neither counts before the next (R259). -/
def fifoDir (d : Dev) (push : Bool) : Nat := if (d.cur.core % 2 = 0) = (push = true) then 0 else 1
def fifoFresh (d : Dev) (push : Bool) : Nat := (d.col (d.cur.core / 2)).fresh.get (fifoDir d push) 0
def fifoGone (d : Dev) (push : Bool) : Nat := (d.col (d.cur.core / 2)).gone.get (fifoDir d push) 0

/-- The issuing warp is its resident group's bound warp, its group holds its end of the column's FIFO, it has
no wait outstanding, and the group at the other end has none of the kind named. -/
def fifoClear (d : Dev) (peerPush : Bool) : Prop :=
  (∃ g, d.groups.find? d.cur.gid = some g ∧ g.core = d.cur.core ∧ g.slots.getLast? = some d.cur.slot) ∧
  d.curWarp.fifoQ = [] ∧
  ∃ ga gb, (d.col (d.cur.core / 2)).holders = some (ga, gb) ∧
    (if d.cur.core % 2 = 0 then ga = d.cur.gid ∧ gb ≠ d.cur.gid ∧ fifoWaiter d gb peerPush = none
     else gb = d.cur.gid ∧ ga ≠ d.cur.gid ∧ fifoWaiter d ga peerPush = none)

end Sys2Proof.Spec

/-- R250, R243, R244: the atomic load and store, the bilinear texel and the prefetch.  A prefetch changes no
register and raises nothing. -/
def Obligations.OtherMemoryWords : Prop :=
  (∀ (f : FmtMO) (s : State), IssuesWith s (.ast32 f) (fun e d => memCheck e d .write
      ((lanesOf d.active).map (fun l => { lane := l, va := d.vpair f.a.toNat l, total := 4 }))) →
    exec (.ast32 f) s = .next { s with dev := (lanesOf s.dev.active).foldl (fun d l =>
      writeAcc s.env s.dev d s.dev.who { lane := l, va := s.dev.vpair f.a.toNat l, total := 4 }
        (s.dev.vr f.d.toNat l).toNat (decide (f.e.toNat ≥ 2))) s.dev }) ∧
  (∀ (f : FmtMO) (s : State), IssuesWith s (.ald32 f) (fun e d => memCheck e d .read
      ((lanesOf d.active).map (fun l => { lane := l, va := d.vpair f.a.toNat l, total := 4 }))) →
    bindLanes s.dev f = [] →
    ∃ t, exec (.ald32 f) s = .next t ∧ t.env = s.env ∧ t.dev.warps = s.dev.warps ∧
      (f.r ≠ 1 → t.dev.groups = s.dev.groups) ∧
      (f.r = 1 → s.dev.active ≠ 0 → f.e.toNat ≥ 2 → ∀ p ∈ (t.dev.core s.dev.cur.core).l1, p.2.wr = false) ∧
      ∀ (pa : Nat → Nat) (pg : Nat → Page) (ads : Nat → List ADSet) (r : Dev × List (Nat × Nat)),
        s.dev.active ≠ 0 → s.dev.choice = [] →
        (∀ l ∈ lanesOf s.dev.active,
          accTarget s.dev s.dev.who .read { lane := l, va := s.dev.vpair f.a.toNat l, total := 4 } (0, 4) =
            .ok (.mem (pa l) (pg l), ads l)) →
        r = Spec.loadReads (fun l _ => pa l) (fun l _ => ads l) (fun _ => [(0, 4)]) (lanesOf s.dev.active) s.dev →
        t.dev.mem = r.1.mem ∧ ∃ m, m ≤ (lanesOf s.dev.active).length ∧ t.dev.agenda = s.dev.agenda ++ [.loadReturn {
          core := s.dev.cur.core, slot := s.dev.cur.slot, misses := m
          vec := r.2.map (fun x => ((s.dev.cur.base * 16 + f.d.toNat) * 32 + x.1, BitVec.ofNat 32 x.2)) ++
            zeroed s.dev f.d.toNat 1 }]) ∧
  (∀ (f : FmtM) (s : State), IssuesWith s (.ldtxBl f) (fun e d => firstRaise [raiseOf d 0 ((memLanes d).flatMap (fun l =>
      if (d.vr (f.a.toNat + 2) l).toNat % 4 ≠ 0 then [(texelAcc f d l 0, .align 2)]
      else ((List.range 4).map (texelAcc f d l)).flatMap (fun a =>
        (accErrs e d d.who .read a).map (fun x => (a, x))))),
      missHold d (missLines d ((memLanes d).flatMap (fun l => (List.range 4).map (texelAcc f d l)))).length]) →
    ∃ t, exec (.ldtxBl f) s = .next t ∧ t.env = s.env ∧ t.dev.groups = s.dev.groups ∧
      (interrupted s.dev (fun l => (List.range 4).map (texelAcc f s.dev l)) = none →
        t.dev.curWarp = { s.dev.curWarp with pidx := t.dev.curWarp.pidx } ∧
        ∀ (o : Nat → Nat → Nat), memLanes s.dev ≠ [] →
          (∀ l ∈ memLanes s.dev, ∀ i, i < 4 → accTarget s.dev s.dev.who .read
            { lane := l, total := 4
              va := s.dev.vpair f.a.toNat l + BitVec.ofNat 64 (f.o.toNat * 4) +
                (if i < 2 then 0 else (s.dev.vr (f.a.toNat + 2) l).setWidth 64) + (if i % 2 = 1 then 4 else 0) } (0, 4) =
            .ok (.scr (o l i), [])) →
          t.dev.agenda = s.dev.agenda ++ [.loadReturn {
            core := s.dev.cur.core, slot := s.dev.cur.slot, due := s.dev.clk s.dev.cur.core + 6
            vec := (memLanes s.dev).map (fun l => ((s.dev.cur.base * 16 + f.d.toNat) * 32 + l,
              bilinear ((s.dev.vr (f.a.toNat + 3) l).toNat % 65536) ((s.dev.vr (f.a.toNat + 3) l).toNat / 65536)
                (fun i => BitVec.ofNat 32 ((s.dev.grp s.dev.cur.gid).scratch.readN (o l i) 4)))) ++
              zeroed s.dev f.d.toNat 1 }])) ∧
  (∀ (f : FmtPref) (s : State), Issues s (.pref f) → ∃ t, exec (.pref f) s = .next t ∧ t.env = s.env ∧
    t.dev = { s.dev with
      mem := t.dev.mem, cores := t.dev.cores, towers := t.dev.towers, tlb := t.dev.tlb })

/-- R251, R252, R136, R139 and R142: a fence changes nothing but the core's L1, an acquiring one at a scope wider
than the core leaves it no line of a writable page, nor does one at GRP scope in a gang, or after engine operations of
its group wrote memory, which it joins; `FENCE.SC` waits for the tick of its tower's heartbeat
after the one that counts now. -/
def Obligations.FenceWords : Prop :=
  (∀ (f : FmtF) (s : State), Issues s (.fence f) → ∃ t, exec (.fence f) s = .next t ∧ t.env = s.env ∧
    t.dev = { s.dev with cores := t.dev.cores, groups := t.dev.groups } ∧ (f.e.toNat ≠ 1 → t.dev.groups = s.dev.groups) ∧
    (s.dev.active ≠ 0 → (f.r = 1 ∨ f.r = 3) → f.e.toNat ≥ 2 ∨ f.e.toNat = 1 ∧ 1 < s.dev.curGrp.gang.length →
      ∀ p ∈ (t.dev.core s.dev.cur.core).l1, p.2.wr = false) ∧
    (s.dev.active ≠ 0 → (f.r = 1 ∨ f.r = 3) → f.e.toNat = 1 → s.dev.curGrp.wrote = true →
      s.dev.curGrp.core = s.dev.cur.core → ∀ p ∈ (t.dev.core s.dev.cur.core).l1, p.2.wr = false) ∧
    (¬ (f.r = 1 ∨ f.r = 3) → t = s)) ∧
  (∀ (f : FmtZ) (s : State), s.dev.curWarp.fenceSc = none → s.dev.active ≠ 0 → Issues s (.fenceSc f) →
    ∃ t, exec (.fenceSc f) s = .next t ∧ WarpOnly s t ∧
      t.dev.curWarp = { s.dev.curWarp with fenceSc := some (s.dev.active, some (s.env.hb s.dev.curTower + 1)) })

/-- R253 to R256: arming a word, arriving on it, and waiting on it, where the active lanes lie in one tile,
whose lowest is `h`. -/
def Obligations.ArrivalWords : Prop :=
  ∀ (s : State) (h : Nat), tileHeads s.dev = [h] → (s.dev.groups.find? s.dev.cur.gid).isSome = true →
    (∀ f : FmtM, IssuesWith s (.sarm f) (dawCheck .write f.a f.o (some (fun d l => (d.vr f.d.toNat l).toNat % 2 ^ 28))) →
      ∃ t, exec (.sarm f) s = .next t ∧ t.env = s.env ∧ t.dev.mem = s.dev.mem ∧
        ∀ (off target : Nat) (x : DWord), off = (s.dev.vr f.a.toNat h).toNat + f.o.toNat * 8 →
          target = (s.dev.vr f.d.toNat h).toNat % 2 ^ 28 → x = Spec.wordAt s.dev off →
          Spec.wordAt t.dev off =
            if Spec.dawCount x ≥ target then
              Spec.daw 0 target (Spec.dawG x + 1) (decide (Spec.dawCount x > target)) false
            else Spec.daw (Spec.dawCount x) target (Spec.dawG x) false true) ∧
    (∀ f : FmtM, IssuesWith s (.sarr f) (dawCheck .write f.a f.o none) →
      ∃ t, exec (.sarr f) s = .next t ∧ t.env = s.env ∧ t.dev.mem = s.dev.mem ∧
        ∀ off, off = (s.dev.vr f.a.toNat h).toNat + f.o.toNat * 8 →
          (∀ l ∈ lanesOf s.dev.active, s.dev.vr f.a.toNat l = s.dev.vr f.a.toNat h) →
          Spec.wordAt t.dev off = Spec.arrived (Spec.wordAt s.dev off)
            (((lanesOf s.dev.active).map (fun l => (s.dev.vr f.d.toNat l).toNat % 2 ^ 28)).sum)) ∧
    (∀ f : FmtSwait, IssuesWith s (.swait f) (waitCheck f.a f.o) →
      ∃ t, exec (.swait f) s = .next t ∧ t.env = s.env ∧ t.dev.mem = s.dev.mem ∧
        t.dev.curGrp = { s.dev.curGrp with wrote := t.dev.curGrp.wrote } ∧
        (∀ g, g ≠ s.dev.cur.gid → t.dev.grp g = s.dev.grp g) ∧
        ∀ (off gen : Nat) (x : DWord), off = (s.dev.vr f.a.toNat h).toNat + f.o.toNat * 8 →
          gen = (s.dev.vr (f.a.toNat + 1) h).toNat % 64 → x = Spec.wordAt s.dev off →
          ∀ l, l < 32 → l / tileSize s.dev = h / tileSize s.dev → t.dev.curWarp.fibre l =
            if Spec.dawG x ≠ gen ∨ Spec.dawF x = true then
              (if s.dev.active.getLsbD l = true then (s.dev.curWarp.fibre l).setPred f.p.toNat (Spec.dawF x)
               else s.dev.curWarp.fibre l)
            else if s.dev.cur.lanes.getLsbD l = true then
              { s.dev.curWarp.fibre l with
                park := .word off gen (.pred (if s.dev.active.getLsbD l = true then f.p.toNat else 0)) }
            else s.dev.curWarp.fibre l) ∧
    (∀ f : FmtM, IssuesWith s (.waitw f) (waitCheck f.a f.o) →
      ∃ t, exec (.waitw f) s = .next t ∧ t.env = s.env ∧ t.dev.mem = s.dev.mem ∧
        t.dev.curGrp = { s.dev.curGrp with wrote := t.dev.curGrp.wrote } ∧
        (∀ g, g ≠ s.dev.cur.gid → t.dev.grp g = s.dev.grp g) ∧
        ∀ (off gen : Nat) (x : DWord), off = (s.dev.vr f.a.toNat h).toNat + f.o.toNat * 8 →
          gen = (s.dev.vr (f.a.toNat + 1) h).toNat % 64 → x = Spec.wordAt s.dev off →
          (Spec.dawG x ≠ gen ∨ Spec.dawF x = true →
            t.dev.curWarp.fib = s.dev.curWarp.fib ∧
            ∀ l ∈ lanesOf s.dev.active,
              t.dev.curWarp.phys (s.dev.cur.base * 16 + f.d.toNat) l = x.extractLsb' 0 32 ∧
              t.dev.curWarp.phys (s.dev.cur.base * 16 + f.d.toNat + 1) l = x.extractLsb' 32 32) ∧
          (¬ (Spec.dawG x ≠ gen ∨ Spec.dawF x = true) →
            ∀ l ∈ lanesOf s.dev.active, (t.dev.curWarp.fibre l).park =
              .word off gen (.pair (s.dev.cur.base * 16 + f.d.toNat))))

/-- R258 and R259: a push with room appends the active lanes' registers, 0 in every other lane; a pop takes
the oldest entry; a try answers in a predicate whether there was one.  A direction counts as it stood before the cycle.  A
word with no active lane moves no entry; a pop or a try then zeroes its register under Z alone (R185). -/
def Obligations.FifoWords : Prop :=
  (∀ s : State, s.dev.active = 0 →
    (∀ f : FmtA, IssuesWith s (.vfpush f) (fun _ d => fifoCheck 0 d) → exec (.vfpush f) s = .next s) ∧
    (∀ f : FmtD, IssuesWith s (.vfpop f) (fun _ d => fifoCheck 1 d) → ∃ t, exec (.vfpop f) s = .next t ∧
      VectorResult s t f.d.toNat 1 (fun _ _ => 0)) ∧
    (∀ f : FmtTry, IssuesWith s (.vftry f) (fun _ d => fifoCheck 2 d) → ∃ t, exec (.vftry f) s = .next t ∧
      VectorResult s t f.d.toNat 1 (fun _ _ => 0))) ∧
  ∀ s : State, s.dev.active ≠ 0 →
    (∀ f : FmtA, IssuesWith s (.vfpush f) (fun _ d => fifoCheck 0 d) → Spec.fifoClear s.dev false →
      (Spec.fifo s.dev true).length + Spec.fifoGone s.dev true < 16 → ∃ t, exec (.vfpush f) s = .next t ∧ t.env = s.env ∧
        Spec.fifo t.dev true = Spec.fifo s.dev true ++ [(List.range 32).map (fun l =>
          if s.dev.active.getLsbD l = true then s.dev.vr f.a.toNat l else 0)] ∧
        Spec.fifoFresh t.dev true = Spec.fifoFresh s.dev true + 1 ∧
        Spec.fifo t.dev false = Spec.fifo s.dev false ∧ t.dev.curWarp.v = s.dev.curWarp.v ∧
        ∀ l ∈ lanesOf s.dev.cur.lanes, (t.dev.curWarp.fibre l).park = .running) ∧
    (∀ f : FmtA, IssuesWith s (.vfpush f) (fun _ d => fifoCheck 0 d) → Spec.fifoClear s.dev false →
      (Spec.fifo s.dev true).length + Spec.fifoGone s.dev true ≥ 16 → ∃ t, exec (.vfpush f) s = .next t ∧ t.env = s.env ∧
        t.dev.cols = s.dev.cols ∧
        ∀ l ∈ lanesOf s.dev.cur.lanes, (t.dev.curWarp.fibre l).park = .fifo s.dev.curWarp.fifoSeq) ∧
    (∀ (f : FmtD) en rest, IssuesWith s (.vfpop f) (fun _ d => fifoCheck 1 d) → Spec.fifoClear s.dev true →
      Spec.fifo s.dev false = en :: rest → Spec.fifoFresh s.dev false < (Spec.fifo s.dev false).length →
      ∃ t, exec (.vfpop f) s = .next t ∧ t.env = s.env ∧
        Spec.fifo t.dev false = rest ∧ Spec.fifo t.dev true = Spec.fifo s.dev true ∧
        Spec.fifoGone t.dev false = Spec.fifoGone s.dev false + 1 ∧
        ∀ l ∈ lanesOf s.dev.active,
          t.dev.curWarp.phys (s.dev.cur.base * 16 + f.d.toNat) l = en.getD l 0 ∧
          (t.dev.curWarp.fibre l).park = .running) ∧
    (∀ (f : FmtD), IssuesWith s (.vfpop f) (fun _ d => fifoCheck 1 d) → Spec.fifoClear s.dev true →
      (Spec.fifo s.dev false).length ≤ Spec.fifoFresh s.dev false →
      ∃ t, exec (.vfpop f) s = .next t ∧ t.env = s.env ∧ t.dev.cols = s.dev.cols ∧
        ∀ l ∈ lanesOf s.dev.cur.lanes, (t.dev.curWarp.fibre l).park = .fifo s.dev.curWarp.fifoSeq) ∧
    (∀ (f : FmtTry), IssuesWith s (.vftry f) (fun _ d => fifoCheck 2 d) → Spec.fifoClear s.dev true →
      ∃ t, exec (.vftry f) s = .next t ∧ t.env = s.env ∧
        ((Spec.fifo s.dev false).length ≤ Spec.fifoFresh s.dev false →
          PredicateResult s t s.dev.active f.p.toNat (fun _ => false)) ∧
        ∀ en rest, Spec.fifo s.dev false = en :: rest → Spec.fifoFresh s.dev false < (Spec.fifo s.dev false).length →
          Spec.fifo t.dev false = rest ∧
          ∀ l ∈ lanesOf s.dev.active,
            t.dev.curWarp.phys (s.dev.cur.base * 16 + f.d.toNat) l = en.getD l 0 ∧
            (f.p ≠ 0 → (t.dev.curWarp.fibre l).pred f.p.toNat = true))

namespace Sys2Proof.Spec

open Sys2Proof.Machine

/-- The whole effect of a word that changes the fibres of some lanes alone. -/
def FibreResult (s t : State) (m : Word) (f : Nat → Fibre → Fibre) : Prop :=
  WarpOnly s t ∧ t.dev.curWarp = { s.dev.curWarp with fib := t.dev.curWarp.fib } ∧
    ∀ l, l < 32 → t.dev.curWarp.fibre l =
      if m.getLsbD l = true then f l (s.dev.curWarp.fibre l) else s.dev.curWarp.fibre l

/-- The target of a branch offset: packets of 12 bytes from the packet that holds the word (R46). -/
def target {n : Nat} (d : Dev) (o : BitVec n) : DWord := d.cur.pkt + BitVec.ofInt 64 (12 * o.toInt)

/-- Predicate p of a lane, inverted by N (R174). -/
def taken (d : Dev) (p : BitVec 4) (n : BitVec 1) (l : Nat) : Bool :=
  if n = 1 then !(d.opW.fibre l).pred p.toNat else (d.opW.fibre l).pred p.toNat

/-- The whole effect of a call (R176): each lane of the batch goes on at its target with the increment pushed
on its window stack, and the address of the packet after the word's in v0:v1 of its new window. -/
def CallResult (s t : State) (inc : Nat) (tgt : Nat → DWord) : Prop :=
  WarpOnly s t ∧ t.dev.curWarp = { s.dev.curWarp with fib := t.dev.curWarp.fib, v := t.dev.curWarp.v } ∧
    ∀ l, l < 32 →
      (s.dev.cur.lanes.getLsbD l = true →
        t.dev.curWarp.fibre l = { s.dev.curWarp.fibre l with
          pc := tgt l, base := (s.dev.opW.fibre l).base + inc, depth := (s.dev.opW.fibre l).depth + 1
          stack := ((s.dev.opW.fibre l).stack &&& ~~~(15#32 <<< (4 * (s.dev.opW.fibre l).depth))) |||
            (BitVec.ofNat 32 inc <<< (4 * (s.dev.opW.fibre l).depth)) } ∧
        t.dev.curWarp.vr ((s.dev.opW.fibre l).base + inc) 0 l = (s.dev.cur.pkt + 12).extractLsb' 0 32 ∧
        t.dev.curWarp.vr ((s.dev.opW.fibre l).base + inc) 1 l = (s.dev.cur.pkt + 12).extractLsb' 32 32 ∧
        ∀ r, r ≠ ((s.dev.opW.fibre l).base + inc) * 16 → r ≠ ((s.dev.opW.fibre l).base + inc) * 16 + 1 →
          t.dev.curWarp.phys r l = s.dev.curWarp.phys r l) ∧
      (s.dev.cur.lanes.getLsbD l = false →
        t.dev.curWarp.fibre l = s.dev.curWarp.fibre l ∧ ∀ r, t.dev.curWarp.phys r l = s.dev.curWarp.phys r l)

/-- What a batch's frame records of a cause raised by a word of a warp (R379, R380). -/
def haltOf (d : Dev) (c : Cause) (d0 : Nat) (addr : DWord) : Halt :=
  { c := d.clk d.curGrp.core, save := false, cause := c, d0 := d0, d1 := addr.toNat % 2 ^ 32, d2 := addr.toNat / 2 ^ 32
    ogid := d.cur.gid, oslot := d.cur.slot, olanes := d.cur.lanes, ostream := false, gpc := d.cur.gpc
    wpc := d.cur.wpc, ow := operandWindows d.cur.word d.cur.pfx d.cur.base 0 false (curRm d), fromWord := true
    class4 := fieldN d.cur.word 28 3 == 4, streamPc := d.cur.gpc }

end Sys2Proof.Spec

/-- R174 and R175: the branches send the lanes of the batch to their target or to the chain group that
follows. -/
def Obligations.BranchWords : Prop :=
  (∀ (f : FmtB) (s : State), Issues s (.bra f) → ∃ t, exec (.bra f) s = .next t ∧
    Spec.FibreResult s t s.dev.cur.lanes (fun l fb => { fb with
      pc := if Spec.taken s.dev f.p f.n l = true then Spec.target s.dev f.o else s.dev.cur.next })) ∧
  (∀ (f : FmtB) (s : State), Issues s (.bru f) →
    (∀ l m, s.dev.active.getLsbD l = true → s.dev.active.getLsbD m = true → l / tileSize s.dev = m / tileSize s.dev →
      (s.dev.opW.fibre l).pred f.p.toNat = (s.dev.opW.fibre m).pred f.p.toNat) →
    ∃ t, exec (.bru f) s = .next t ∧ Spec.FibreResult s t s.dev.cur.lanes (fun l fb => { fb with
      pc := if Spec.taken s.dev f.p f.n l = true then Spec.target s.dev f.o else s.dev.cur.next })) ∧
  (∀ (f : FmtBW) (s : State), Issues s (.brw f) → ∃ t, exec (.brw f) s = .next t ∧
    Spec.FibreResult s t s.dev.cur.lanes (fun _ fb => { fb with
      pc := if s.dev.opW.wflags.getLsbD (4 * f.w.toNat + f.k.toNat) = true then s.dev.cur.next
        else Spec.target s.dev f.o })) ∧
  (∀ (f : FmtA) (s : State), Issues s (.jmpr f) →
    (∀ l, s.dev.cur.lanes.getLsbD l = true → (s.dev.vpair f.a.toNat l).toNat % 12 = 0) →
    ∃ t, exec (.jmpr f) s = .next t ∧ Spec.FibreResult s t s.dev.cur.lanes (fun l fb => { fb with
      pc := s.dev.vpair f.a.toNat l }))

/-- R176: calls push a window and leave a link, a return pops it; the window is the one that the chain group found (R51). -/
def Obligations.CallWords : Prop :=
  (∀ (f : FmtBC) (s : State), IssuesWith s (.call f) (fun _ d => callCheck d f.i.toNat) →
    ∃ t, exec (.call f) s = .next t ∧ Spec.CallResult s t f.i.toNat (fun _ => Spec.target s.dev f.o)) ∧
  (∀ (f : FmtBCR) (s : State), IssuesWith s (.callr f) (fun _ d => firstRaise
      [callCheck d f.i.toNat, targetCheck d (fun l => d.vpair f.a.toNat l)]) →
    ∃ t, exec (.callr f) s = .next t ∧ Spec.CallResult s t f.i.toNat (fun l => s.dev.vpair f.a.toNat l)) ∧
  (∀ (f : FmtZ) (s : State), Issues s (.ret f) →
    (∀ l, s.dev.cur.lanes.getLsbD l = true → (s.dev.opW.fibre l).depth > 0 ∧ (s.dev.vpair 0 l).toNat % 12 = 0) →
    ∃ t, exec (.ret f) s = .next t ∧ Spec.FibreResult s t s.dev.cur.lanes (fun l fb => { fb with
      pc := s.dev.vpair 0 l
      depth := (s.dev.opW.fibre l).depth - 1
      base := (s.dev.opW.fibre l).base - ((s.dev.opW.fibre l).stack >>> (4 * ((s.dev.opW.fibre l).depth - 1))).toNat % 16
      stack := (s.dev.opW.fibre l).stack &&& ~~~(15#32 <<< (4 * ((s.dev.opW.fibre l).depth - 1))) })) ∧
  (∀ (fb : Fibre) (inc : Nat), fb.depth < 8 → inc < 16 →
    (fb.push inc).pop = { fb with stack := fb.stack &&& ~~~(15#32 <<< (4 * fb.depth)) })

/-- R177, R178, R154, R387: `FORK` and `FEXIT` complete.  A fork gives, for every k, the k-th source of the batch the k-th
idle lane, where a new fibre starts at the target with the source's predicates and window and its first four registers, and
joins a batch from the next cycle; a source left without a lane has its predicate cleared; nothing else of the warp
changes.  An exit ends the fibres of the batch and takes them out of the joins, and the group ends with its last fibre; where
they were all that was left of the host of a warp's one level, the level ends with them. -/
def Obligations.ForkAndExitWords : Prop :=
  (∀ (f : FmtFork) (s : State) (src idle : List Nat), Issues s (.fork f) →
    src = lanesOf (s.dev.withPred f.p.toNat) → idle = lanesOf (~~~s.dev.opW.liveMask) →
    (∀ l ∈ src, (s.dev.opW.fibre l).live = true) →
    ∃ t, exec (.fork f) s = .next t ∧ WarpOnly s t ∧
      t.dev.curWarp = { s.dev.curWarp with fib := t.dev.curWarp.fib, v := t.dev.curWarp.v } ∧
      (∀ k a c : Nat, src[k]? = some a → idle[k]? = some c →
        t.dev.curWarp.fibre c =
          { live := true, pc := Spec.target s.dev f.o, preds := (s.dev.opW.fibre a).preds, base := (s.dev.opW.fibre a).base
            depth := (s.dev.opW.fibre a).depth, stack := (s.dev.opW.fibre a).stack
            wake := s.dev.clk s.dev.cur.core + 1 } ∧
        ∀ j, j < 4 → t.dev.curWarp.phys ((s.dev.opW.fibre a).base * 16 + j) c = s.dev.vr j a) ∧
      (∀ k a : Nat, src[k]? = some a → idle.length ≤ k →
        t.dev.curWarp.fibre a = (s.dev.curWarp.fibre a).setPred f.p.toNat false) ∧
      (∀ l, l < 32 → (∀ k a : Nat, src[k]? = some a → idle[k]? ≠ some l) →
        (∀ k : Nat, src[k]? = some l → k < idle.length) → t.dev.curWarp.fibre l = s.dev.curWarp.fibre l) ∧
      ∀ l r, l < 32 → (∀ k a : Nat, src[k]? = some a → idle[k]? = some l →
          r < (s.dev.opW.fibre a).base * 16 ∨ (s.dev.opW.fibre a).base * 16 + 4 ≤ r) →
        t.dev.curWarp.phys r l = s.dev.curWarp.phys r l) ∧
  (∀ (f : FmtZ) (s : State), s.dev.curWarp.levels = [] → Issues s (.fexit f) → ∃ t, exec (.fexit f) s = .next t ∧
    t.env = s.env ∧ t.dev.mem = s.dev.mem ∧
    (∀ l, s.dev.cur.lanes.getLsbD l = true → (t.dev.curWarp.fibre l).live = false) ∧
    (∀ j, j < 8 → t.dev.curWarp.jm j = s.dev.curWarp.jm j &&& ~~~s.dev.cur.lanes) ∧
    (∀ l, l < 32 → s.dev.cur.lanes.getLsbD l = false →
      (t.dev.curWarp.fibre l).live = (s.dev.curWarp.fibre l).live ∧
      (t.dev.curWarp.fibre l).pc = (s.dev.curWarp.fibre l).pc ∧
      (t.dev.curWarp.fibre l).preds = (s.dev.curWarp.fibre l).preds) ∧
    t.dev.curWarp.v = s.dev.curWarp.v ∧ t.dev.curWarp.s = s.dev.curWarp.s ∧
    (∀ g, s.dev.groups.find? s.dev.cur.gid = some g → g.core = s.dev.cur.core → g.slots = [s.dev.cur.slot] →
      g.stream = none → g.halt = none →
      ((t.dev.grp s.dev.cur.gid).ended = true ↔ g.ended = true ∨
        ∀ l, l < 32 → (s.dev.curWarp.fibre l).live = true → s.dev.cur.lanes.getLsbD l = true))) ∧
  (∀ (f : FmtZ) (s : State) (lv : Level), s.dev.curWarp.levels = [lv] → Issues s (.fexit f) →
    s.dev.curGrp.core = s.dev.cur.core → s.dev.cur.lanes &&& lv.host = s.dev.cur.lanes → lv.trap = false →
    lv.stream = false →
    (∀ l, l < 32 → lv.host.getLsbD l = true → (s.dev.curWarp.fibre l).live = true → s.dev.cur.lanes.getLsbD l = true) →
    ∃ t, exec (.fexit f) s = .next t ∧ t.env = s.env ∧ t.dev.mem = s.dev.mem ∧ t.dev.curWarp.levels = [] ∧
      t.dev.curWarp.emudepth = 0 ∧ t.dev.curWarp.emupc = lv.emupc ∧ t.dev.curWarp.partn = lv.partn ∧
      (∀ i, i < 8 → t.dev.curWarp.sr (56 + i) = lv.s56.getD i 0) ∧
      ∀ l, l < 32 → lv.host.getLsbD l = true → (t.dev.curWarp.fibre l).live = false)

/-- R168 and R179 to R180: setting a join mask, arriving at a join and leaving every mask; a yield marks the
batch; `NOPK` does nothing.  An arrival counts the mask as its chain group found it (R51): here no earlier word of the
group has written it. -/
def Obligations.JoinWords : Prop :=
  (∀ (f : FmtBJ) (s : State), Issues s (.jset f) → ∃ t, exec (.jset f) s = .next t ∧ WarpOnly s t ∧
    t.dev.curWarp = { s.dev.curWarp with j := t.dev.curWarp.j, fib := t.dev.curWarp.fib } ∧
    ∀ k, t.dev.curWarp.jm k = if k = f.j.toNat then s.dev.withPred f.m.toNat else s.dev.curWarp.jm k) ∧
  (∀ (f : FmtBJ) (s : State), Issues s (.join f) → s.dev.opW.jm f.j.toNat = s.dev.curWarp.jm f.j.toNat → ∃ t, exec (.join f) s = .next t ∧ WarpOnly s t ∧
    t.dev.curWarp = { s.dev.curWarp with fib := t.dev.curWarp.fib } ∧
    (∀ l, l < 32 → (s.dev.withPred f.m.toNat &&& s.dev.curWarp.jm f.j.toNat).getLsbD l = true →
      (t.dev.curWarp.fibre l).park = .join f.j.toNat s.dev.cur.wpc ∨ (t.dev.curWarp.fibre l).park = .running) ∧
    ((∀ l, l < 32 → (s.dev.curWarp.jm f.j.toNat).getLsbD l = true →
        (s.dev.withPred f.m.toNat).getLsbD l = true) →
      ∀ l, l < 32 → (s.dev.curWarp.jm f.j.toNat).getLsbD l = true → (t.dev.curWarp.fibre l).park = .running) ∧
    ∀ m, m < 32 → (s.dev.curWarp.jm f.j.toNat).getLsbD m = true →
      (s.dev.withPred f.m.toNat).getLsbD m = false → (s.dev.curWarp.fibre m).park = .running →
      ∀ l, l < 32 → (s.dev.withPred f.m.toNat &&& s.dev.curWarp.jm f.j.toNat).getLsbD l = true →
        (t.dev.curWarp.fibre l).park = .join f.j.toNat s.dev.cur.wpc) ∧
  (∀ (f : FmtJd) (s : State), Issues s (.jdrop f) → ∃ t, exec (.jdrop f) s = .next t ∧ WarpOnly s t ∧
    t.dev.curWarp = { s.dev.curWarp with j := t.dev.curWarp.j, fib := t.dev.curWarp.fib } ∧
    ∀ k, k < 8 → t.dev.curWarp.jm k = s.dev.curWarp.jm k &&& ~~~(s.dev.withPred f.m.toNat)) ∧
  (∀ (f : FmtZ) (s : State), Issues s (.yield f) → ∃ t, exec (.yield f) s = .next t ∧
    Spec.FibreResult s t s.dev.cur.lanes (fun _ fb => { fb with yielded := true })) ∧
  (∀ (f : FmtZ) (s : State), Issues s (.nopk f) → exec (.nopk f) s = .next s)

/-- R181, R377 and R379: `TRAP` raises SOFT and `BRK` raises DEBUG, with the code and the word's address.
Where the context has a trap vector and the warp fewer than two levels open, the group's halt begins in this
cycle, with what the trap level will record, and the batch stands again at its chain group. -/
def Obligations.TrapWords : Prop :=
  ∀ (f : FmtBT) (i : Instr) (c : Cause), (i, c) ∈ [(Instr.trap f, Cause.soft), (Instr.brk f, Cause.debug)] →
    ∀ s : State, Issues s i → s.dev.cur.snap = none → s.dev.cur.stream = false →
      s.dev.curGrp.core = s.dev.cur.core → s.dev.curGrp.gang = [] → s.dev.curGrp.halt = none →
      (s.dev.groups.find? s.dev.cur.gid).isSome = true → s.dev.curCtx.trapvec ≠ 0 → s.dev.curWarp.levels.length < 2 →
      ∃ t, exec i s = .next t ∧ t.env = s.env ∧ t.dev.mem = s.dev.mem ∧
        t.dev.curGrp.halt = some (Spec.haltOf s.dev c f.i.toNat s.dev.cur.wpc) ∧
        (∀ l, l < 32 → (t.dev.curWarp.fibre l) =
          if s.dev.cur.lanes.getLsbD l = true then { s.dev.curWarp.fibre l with pc := s.dev.cur.gpc }
          else s.dev.curWarp.fibre l) ∧
        t.dev.curWarp.v = s.dev.curWarp.v ∧ t.dev.curWarp.s = s.dev.curWarp.s ∧
        t.dev.curWarp.levels = s.dev.curWarp.levels

/-- R383 and R385: what entering a handler level of a warp frame does.  The faulting chain group's address,
the batch's lanes and the operand windows are recorded, what they replace goes into the level's record with
the fibres of the host lanes, and those lanes run at the handler with an empty window stack, at an emulation level from
the eighth cycle on; OW1's REASON is 0 at a trap level (R386); where two levels
are open, or the handler's block does not fit, no level is entered. -/
def Obligations.HandlerLevelEntered : Prop :=
  ∀ (e : Env) (d : Dev) (trap : Bool) (h : Frame) (causes : List DWord) (w : Warp) (vec : DWord),
    h.stream = false → w = d.warp (d.grp h.gid).core h.slot →
    vec = (if trap = true then (d.ctx (d.grp h.gid).ctx).trapvec else (d.ctx (d.grp h.gid).ctx).emuvec) →
    (w.levels.length < 2 → w.emuctl.toNat % 16 ≤ w.nregs / 16 → ∃ w' lv,
      enterLevel e d trap h causes = d.setWarp (d.grp h.gid).core h.slot w' ∧
      w'.levels = lv :: w.levels ∧ w'.emudepth.toNat % 4 = (w.levels.length + 1) % 4 ∧ w'.emupc = h.gpc ∧
      w'.emumask = h.lanes.setWidth 64 ∧ w'.partn = 0 ∧
      w'.ow = (if trap = true then h.ow.set 1 (h.ow.getD 1 0 &&& ~~~(0x780000#64)) else h.ow) ∧
      w'.rmode = w.rmode &&& ~~~(0x1F0000#64) ∧ w'.v = w.v ∧ w'.s = w.s ∧ w'.j = w.j ∧
      (∀ l, l < 32 → w'.fibre l = if h.lanes.getLsbD l = true then
        { live := true, pc := vec
          base := if w.emuctl.toNat % 16 = 0 then (w.fibre (lowLane h.lanes)).base else w.nregs / 16 - w.emuctl.toNat % 16
          age := (w.fibre l).age, wake := if trap = true then 0 else d.clk (d.grp h.gid).core + 8
          barked := decide (h.cause = .watchdog) }
        else w.fibre l) ∧
      lv.trap = trap ∧ lv.host = h.lanes ∧ lv.emupc = w.emupc ∧ lv.partn = w.partn ∧ lv.causes = causes ∧
      lv.s56 = (List.range 8).map (fun i => w.sr (56 + i)) ∧
      lv.lanes = (lanesOf h.lanes).map (fun l => (l, { w.fibre l with age := 0, barked := false }))) ∧
    (w.levels.length ≥ 2 → enterLevel e d trap h causes =
      systemDeliver e d h.gid h.slot false h.cause true h.d0 h.d1 h.d2 h.gpc) ∧
    (w.levels.length < 2 → w.emuctl.toNat % 16 > w.nregs / 16 → enterLevel e d trap h causes =
      systemDeliver e d h.gid h.slot false h.cause false h.d0 h.d1 h.d2 h.gpc)

/-- R182, R384 and R387: `EMURET` in the host of a level ends the level and restores what its record
holds: in a warp frame with Y the lanes issue their chain group again, in full, otherwise its faulting word is skipped once;
in a stream frame the stream goes on at its word, or where the record says, with the word skipped once or not.  The end of a
trap level releases the halt: with no other trap level open in the group, every warp of it and its stream may issue again. -/
def Obligations.ReturnFromHandler : Prop :=
  ∀ (f : FmtBE) (s : State) (lv : Level) (rest : List Level) (fb : Nat → Fibre),
    Issues s (.emuret f) → s.dev.curGrp.core = s.dev.cur.core → s.dev.curWarp.levels = lv :: rest →
    s.dev.cur.lanes &&& lv.host = s.dev.cur.lanes → lv.s56.length = 8 →
    lv.lanes = (lanesOf lv.host).map (fun l => (l, fb l)) →
    ∃ t, exec (.emuret f) s = .next t ∧ t.env = s.env ∧ t.dev.mem = s.dev.mem ∧
      t.dev.curWarp.levels = rest ∧ t.dev.curWarp.emupc = lv.emupc ∧ t.dev.curWarp.emumask = lv.emumask.setWidth 64 ∧
      t.dev.curWarp.ow = lv.ow ∧ t.dev.curWarp.partn = lv.partn ∧ t.dev.curWarp.v = s.dev.curWarp.v ∧
      t.dev.curWarp.tcause = lv.causes.getD 0 0 ∧ t.dev.curWarp.tpc = lv.causes.getD 4 0 ∧
      t.dev.curWarp.rmode = ((s.dev.curWarp.rmode &&& ~~~(0x1F0000#64)) ||| (BitVec.ofNat 64 lv.enables <<< 16)) ∧
      (∀ m, 0 < m → t.dev.curWarp.sr m = if 56 ≤ m ∧ m < 64 then lv.s56.getD (m - 56) 0 else s.dev.curWarp.sr m) ∧
      (∀ l, l < 32 → t.dev.curWarp.fibre l =
        if lv.host.getLsbD l = true then
          (if lv.stream = false ∧ lv.fromWord = true ∧ (fb l).live = true then { fb l with pc := s.dev.curWarp.emupc } else fb l)
        else s.dev.curWarp.fibre l) ∧
      (lv.stream = true ∨ lv.fromWord = false → t.dev.curWarp.suppress = s.dev.curWarp.suppress) ∧
      (lv.stream = false → lv.fromWord = true → f.y = 0 → t.dev.curWarp.suppress = s.dev.curWarp.suppress ++
        [{ gpc := s.dev.curWarp.emupc, word := lv.wordAddr, lanes := lv.host }]) ∧
      (lv.stream = false → lv.fromWord = true → f.y = 1 → ∀ x ∈ t.dev.curWarp.suppress,
        x.gpc = s.dev.curWarp.emupc → x.fence = false → x.lanes &&& lv.host = 0) ∧
      (lv.stream = true → ∀ g st, s.dev.groups.find? s.dev.cur.gid = some g → g.stream = some st → ∃ st',
        (t.dev.grp s.dev.cur.gid).stream = some st' ∧ st'.skip = (if lv.fromWord = true ∧ f.y = 0
          then some s.dev.curWarp.emupc else none) ∧
        st'.pc = (if lv.fromWord = true ∧ lv.streamPc = lv.wordAddr then s.dev.curWarp.emupc else lv.streamPc) ∧
        st'.q = st.q ∧ st'.queue = st.queue ∧ st'.out = st.out) ∧
      (lv.trap = true → s.dev.curGrp.gang = [] → (s.dev.groups.find? s.dev.cur.gid).isSome = true →
        (∀ x ∈ rest, x.trap = false) →
        (∀ k ∈ s.dev.curGrp.slots, k ≠ s.dev.cur.slot → ∀ x ∈ (s.dev.warp s.dev.cur.core k).levels, x.trap = false) →
        (∀ x ∈ s.dev.saved, x.gid ≠ s.dev.cur.gid) →
        (∀ k ∈ s.dev.curGrp.slots, (t.dev.warp s.dev.cur.core k).stopped = false) ∧
        ∀ st, (t.dev.grp s.dev.cur.gid).stream = some st → st.stopped = false)

/-- R389 and R390: delivery at system level enters the trap log with the heartbeat, the sequence number of the launch, the
context, core and warp, whether it was a nested cause, the cause, its detail and its address, and the log's own count; it aborts the group's launch, and ends the group's fibres. -/
def Obligations.SystemDelivery : Prop :=
  ∀ (e : Env) (d : Dev) (gid slot : Nat) (c : Cause) (nest : Bool) (d0 d1 d2 : Nat) (tpc : DWord) (g : Group),
    d.groups.find? gid = some g → g.gang = [] → ∃ t entry,
      t = systemDeliver e d gid slot false c nest d0 d1 d2 tpc ∧
      (t.tower (g.core / 64)).trapLog = (d.tower (g.core / 64)).trapLog.push 64 entry ∧
      entry.getD 0 0 = BitVec.ofNat 64 (e.hb (g.core / 64)) ∧
      (∀ l, d.launches.find? g.launch = some l → entry.getD 1 0 = l.seq) ∧
      (d.launches.find? g.launch = none → entry.getD 1 0 = 0) ∧
      (entry.getD 2 0).toNat % 2 ^ 16 = (d.ctx g.ctx).asid.toNat % 2 ^ 16 ∧
      (g.core < 128 → (d.warp g.core slot).idx < 32 →
        (entry.getD 2 0).toNat / 2 ^ 16 % 2 ^ 7 = g.core ∧ (entry.getD 2 0).toNat / 2 ^ 23 % 2 ^ 5 = (d.warp g.core slot).idx ∧
        (entry.getD 2 0).getLsbD 28 = false ∧ (entry.getD 2 0).getLsbD 29 = nest ∧
        (entry.getD 2 0).toNat / 2 ^ 30 = c.code) ∧
      (entry.getD 6 0).toNat = (d.tower (g.core / 64)).trapLog.seq % 2 ^ 64 ∧
      (entry.getD 3 0).toNat = d0 % 2 ^ 32 + d1 % 2 ^ 32 * 2 ^ 32 ∧ (entry.getD 4 0).toNat = d2 % 2 ^ 32 ∧
      entry.getD 5 0 = tpc ∧
      (t.grp gid).killed = true ∧ (t.grp gid).ended = true ∧ (t.grp gid).halt = none ∧
      (∀ s ∈ g.slots, (t.warp g.core s).liveMask = 0) ∧
      ∀ l, d.launches.find? g.launch = some l → ∃ l', t.launches.find? g.launch = some l' ∧ l'.aborted = true

namespace Sys2Proof.Spec

open Sys2Proof.Machine

/-- The issuing group is resident and its stream is `st`. -/
def StreamIs (s : State) (st : Stream) : Prop :=
  ∃ g, s.dev.groups.find? s.dev.cur.gid = some g ∧ g.stream = some st

/-- Nothing but the issuing group changed. -/
def GroupOnly (s t : State) : Prop :=
  t.env = s.env ∧ t.dev = { s.dev with groups := t.dev.groups } ∧
    ∀ g, g ≠ s.dev.cur.gid → t.dev.grp g = s.dev.grp g

/-- The whole effect of a sequencer word: the issuing group's stream is `st'` now. -/
def StreamResult (s t : State) (st' : Stream) : Prop :=
  GroupOnly s t ∧ t.dev.curGrp = { s.dev.curGrp with stream := some st' }

/-- `st'` is `st` with `v` in q register `n`; q0 reads 0 always (R56, R314). -/
def QWritten (st st' : Stream) (n : Nat) (v : DWord) : Prop :=
  st' = { st with q := st'.q } ∧ ∀ m, st'.qr m = if m = n ∧ n ≠ 0 then v else st.qr m

/-- A q register with no pending write (R314). -/
def QReady (d : Dev) (r : BitVec 4) : Prop := qPending d d.cur.gid r.toNat = false

/-- A word of class 4 issues with its effect: it is no question about its checks alone, and its issuer, its
context and its prefix meet those of every word. -/
def StreamIssues (s : State) (i : Instr) : Prop :=
  s.dev.cur.probe = false ∧ s.dev.cur.snap = none ∧ guard s.dev i.props = none

/-- The effect of an engine operation's issue, where nothing is translated: it takes the queue's last entry,
with what it names, and its tile counts as named. -/
def Enqueued (s t : State) (st st' : Stream) (m : Mop) (tile : Bool) : Prop :=
  GroupOnly s t ∧ st'.queue = st.queue ++ [m] ∧
    t.dev.curGrp = { s.dev.curGrp with
      stream := some st'
      tiles := if tile = true ∧ ¬ m.acc ∈ s.dev.curGrp.tiles then s.dev.curGrp.tiles ++ [m.acc] else s.dev.curGrp.tiles } ∧
    m.gid = s.dev.cur.gid ∧ m.core = s.dev.cur.core ∧ m.pc = s.dev.cur.wpc ∧ m.word = s.dev.cur.word ∧
    m.acc = accOf s.dev.cur.word ∧ m.cls = st.cls

end Sys2Proof.Spec

/-- R314, R331, R332: the sequencer's own arithmetic and branches.  A result goes to a q register, q0 discarding
it; `MLOOP` branches while the decremented register is not 0, `MBRA` on its register being not 0 or being 0;
the class that `MPRIO` sets is at most the task's. -/
def Obligations.SequencerWords : Prop :=
  (∀ (f : FmtMI) (s : State) (st : Stream), Spec.StreamIssues s (.mli f) → Spec.StreamIs s st → Spec.QReady s.dev f.q →
    ∃ t st', exec (.mli f) s = .next t ∧ Spec.StreamResult s t st' ∧
      Spec.QWritten st st' f.q.toNat (BitVec.ofInt 64 f.i.toInt)) ∧
  (∀ (f : FmtAddq) (s : State) (st : Stream), Spec.StreamIssues s (.maddq f) → Spec.StreamIs s st →
    Spec.QReady s.dev f.s → Spec.QReady s.dev f.b → Spec.QReady s.dev f.d →
    ∃ t st', exec (.maddq f) s = .next t ∧ Spec.StreamResult s t st' ∧
      Spec.QWritten st st' f.d.toNat (st.qr f.s.toNat + st.qr f.b.toNat + BitVec.ofInt 64 f.i.toInt)) ∧
  (∀ (f : FmtLoop) (s : State) (st : Stream), Spec.StreamIssues s (.mloop f) → Spec.StreamIs s st → Spec.QReady s.dev f.q →
    ∃ t st' st'', exec (.mloop f) s = .next t ∧ Spec.StreamResult s t st'' ∧
      Spec.QWritten st st' f.q.toNat (st.qr f.q.toNat - 1) ∧
      st'' = { st' with pc := if st.qr f.q.toNat = 1 then s.dev.cur.next else Spec.target s.dev f.o }) ∧
  (∀ (f : FmtMbra) (s : State) (st : Stream), Spec.StreamIssues s (.mbra f) → Spec.StreamIs s st → Spec.QReady s.dev f.q →
    ∃ t, exec (.mbra f) s = .next t ∧ Spec.StreamResult s t { st with
      pc := if (f.n = 0 ∧ st.qr f.q.toNat ≠ 0) ∨ (f.n = 1 ∧ st.qr f.q.toNat = 0)
        then Spec.target s.dev f.o else s.dev.cur.next }) ∧
  (∀ (f : FmtPrio) (s : State) (st : Stream), Spec.StreamIssues s (.mprio f) → Spec.StreamIs s st → f.k.toNat ≤ st.cls0 →
    ∃ t, exec (.mprio f) s = .next t ∧ Spec.StreamResult s t { st with cls := f.k.toNat }) ∧
  (∀ (f : FmtMfence) (s : State) (st : Stream), Spec.StreamIssues s (.mfence f) → Spec.StreamIs s st →
    st.queue = [] → st.out = [] → exec (.mfence f) s = .next s)

/-- R261, R327, R330, R331 and R333: a wait on a data-arrival word goes on with the FAULT bit in its register where
the generation has moved on or the word has failed, and parks the stream otherwise; `MSIG` joins the queue; `MSTAT`
reads the fold word beside the count of fold words, and joins the group's operations that wrote memory (R142); `MLDQ`
reads a dword of scratch, which arrives in the sixth cycle at the earliest (R261);
`MEND` ends the stream. -/
def Obligations.StreamWaitsAndStatus : Prop :=
  (∀ (f : FmtMwait) (s : State) (st : Stream) (off : Nat) (x : DWord), Spec.StreamIssues s (.mwait f) →
    Spec.StreamIs s st → Spec.QReady s.dev f.s → Spec.QReady s.dev f.g → Spec.QReady s.dev f.d →
    off = (st.qr f.s.toNat).toNat % 2 ^ 19 → off % 8 = 0 → off + 8 ≤ s.dev.curGrp.shape.scratch →
    x = scr64 s.dev.curGrp off →
    ∃ t st', exec (.mwait f) s = .next t ∧ Spec.StreamResult s t st' ∧
      (x.toNat / 2 ^ 56 % 64 ≠ (st.qr f.g.toNat).toNat % 64 ∨ x.getLsbD 62 = true →
        Spec.QWritten st st' f.d.toNat (if x.getLsbD 62 = true then 1 else 0)) ∧
      (x.toNat / 2 ^ 56 % 64 = (st.qr f.g.toNat).toNat % 64 → x.getLsbD 62 = false →
        st' = { st with park := .mwait off ((st.qr f.g.toNat).toNat % 64) f.d.toNat })) ∧
  (∀ (f : FmtMsig) (s : State) (st : Stream) (off : Nat), Spec.StreamIssues s (.msig f) → Spec.StreamIs s st →
    Spec.QReady s.dev f.s → st.queue.length < 8 →
    off = (st.qr f.s.toNat).toNat % 2 ^ 19 → off % 8 = 0 → off + 8 ≤ s.dev.curGrp.shape.scratch →
    ∃ t st' m, exec (.msig f) s = .next t ∧ Spec.Enqueued s t st st' m false ∧ m.kind = .msig ∧
      m.qa = st.qr f.s.toNat ∧ st' = { st with queue := st'.queue }) ∧
  (∀ (f : FmtStat) (s : State) (st : Stream), Spec.StreamIssues s (.mstat f) → Spec.StreamIs s st → Spec.QReady s.dev f.d →
    (∀ m, m ∈ st.queue ∨ m ∈ st.out → m.kind = .mdrain ∨ m.kind = .msig) →
    ∃ t st', exec (.mstat f) s = .next t ∧ t.env = s.env ∧
      t.dev = { s.dev with groups := t.dev.groups, cores := t.dev.cores } ∧
      t.dev.curGrp = { s.dev.curGrp with stream := some st', wrote := false } ∧
      (∀ g, g ≠ s.dev.cur.gid → t.dev.grp g = s.dev.grp g) ∧
      Spec.QWritten st st' f.d.toNat (BitVec.ofNat 64 (st.fold + st.opseq % 2 ^ 32 * 2 ^ 16)) ∧
      (s.dev.curGrp.wrote = false → t.dev.cores = s.dev.cores) ∧
      (s.dev.curGrp.wrote = true → ∀ p ∈ (t.dev.core s.dev.curGrp.core).l1, p.2.wr = false)) ∧
  (∀ (f : FmtLdq) (s : State) (st : Stream) (off : Nat), Spec.StreamIssues s (.mldq f) → Spec.StreamIs s st →
    Spec.QReady s.dev f.s → Spec.QReady s.dev f.d → off = (st.qr f.s.toNat).toNat % 2 ^ 19 → off % 8 = 0 →
    off + 8 * f.o.toNat + 8 ≤ s.dev.curGrp.shape.scratch →
    ∃ p : Ev.LoadReturn, exec (.mldq f) s = .next { s with dev := s.dev.post (.loadReturn p) } ∧
      p.vec = [] ∧ p.sca = [] ∧ p.due = s.dev.clk s.dev.cur.core + 6 ∧
      p.strm = [(s.dev.cur.gid, f.d.toNat, BitVec.ofNat 64 (s.dev.curGrp.scratch.readN (off + 8 * f.o.toNat) 8))]) ∧
  (∀ (s : State) (st : Stream), Spec.StreamIssues s .mend → Spec.StreamIs s st →
    ∃ t st', exec .mend s = .next t ∧ t.env = s.env ∧ t.dev.mem = s.dev.mem ∧ t.dev.warps = s.dev.warps ∧
      (s.dev.curGrp.gang.length < 2 → Spec.GroupOnly s t) ∧ t.dev.curGrp.stream = some st' ∧ st'.ended = true ∧
      st'.queue = st.queue ∧ st'.q = st.q ∧ st'.pc = st.pc ∧
      (st.queue = [] → st.out = [] → ∀ k p, (k, p) ∈ st.pins → (k, p.release) ∈ st'.pins) ∧
      (st.queue = [] → st.out = [] → st.faults = [] → s.dev.curGrp.halt = none →
        (∀ w, w ∈ s.dev.curGrp.slots → (s.dev.warp s.dev.curGrp.core w).liveMask = 0) → t.dev.curGrp.ended = true))

/-- R309, R314, R315, R320, R323 and R324: an engine operation whose operands pass its checks takes the last
entry of the stream's queue with the values its q registers have now; `MMA` and `MMAS` count as a use of the pin
their handle names; a weight load or a drain to memory also leaves what its translation marks. -/
def Obligations.EngineOperationWords : Prop :=
  (∀ (f : FmtMMA) (i : Instr) (k : MopKind) (b : Bool), (i, k, b) ∈ [(Instr.mma f, MopKind.mma, false), (Instr.mmas f, MopKind.mmas, true)] →
    ∀ (s : State) (st : Stream) (n : Nat) (p : Pin), Spec.StreamIssues s i → Spec.StreamIs s st →
      mmaCheck f b s.dev = none → livePin st (st.qr f.w.toNat) = some (n, p) →
      ∃ t st' m, exec i s = .next t ∧ Spec.Enqueued s t st st' m true ∧ m.kind = k ∧ m.qa = st.qr f.x.toNat ∧
        m.qf = st.qr f.f.toNat ∧ m.entry = p.entries.headD 0 ∧ st'.seq = st.seq + 1 ∧
        st'.pins.get n {} = { p with used := st.seq + 1 } ∧ (∀ j, j ≠ n → st'.pins.get j {} = st.pins.get j {}) ∧
        st'.q = st.q ∧ st'.out = st.out) ∧
  (∀ (f : FmtAcc) (s : State) (st : Stream), Spec.StreamIssues s (.mzero f) → Spec.StreamIs s st → st.queue.length < 8 →
    ∃ t st' m, exec (.mzero f) s = .next t ∧ Spec.Enqueued s t st st' m true ∧ m.kind = .mzero ∧
      st' = { st with queue := st'.queue }) ∧
  (∀ (f : FmtLacc) (s : State) (st : Stream), Spec.StreamIssues s (.mlacc f) → Spec.StreamIs s st → st.queue.length < 8 →
    Spec.QReady s.dev f.s → (st.qr f.s.toNat).toNat % 128 = 0 →
    (st.qr f.s.toNat).toNat % 2 ^ 19 + 4096 ≤ s.dev.curGrp.shape.scratch →
    ∃ t st' m, exec (.mlacc f) s = .next t ∧ Spec.Enqueued s t st st' m true ∧ m.kind = .mlacc ∧
      m.qa = st.qr f.s.toNat ∧ st' = { st with queue := st'.queue }) ∧
  (∀ (f : FmtMwld) (s : State) (st : Stream), IssuesWith s (.mwld f) (fun _ d => firstRaise
      [qHold d ([f.s, f.f, f.d] ++ (if (d.q f.f).getLsbD 11 then [f.x] else [])), roomHold d,
        mxIf d (badB (d.q f.f)) 1 f.f 0, mxIf d ((d.q f.s).toNat % 128 != 0) 3 f.s (d.q f.s).toNat,
        mxIf d ((d.q f.f).getLsbD 11 && (d.q f.x).toNat % 64 != 0) 3 f.x (d.q f.x).toNat,
        mxXlate d .read f.s [(d.q f.s, tileBytes (d.q f.f))],
        mxXlate d .read f.x (if (d.q f.f).getLsbD 11 then [(d.q f.x, scaleBytes (d.q f.f))] else [])]) →
    Spec.StreamIs s st →
    ∃ t m, exec (.mwld f) s = .next t ∧ t.env = s.env ∧ t.dev.warps = s.dev.warps ∧ m.kind = .mwld ∧
      m.qa = st.qr f.s.toNat ∧ m.qf = st.qr f.f.toNat ∧ m.dst = f.d.toNat ∧ (m.new = true ↔ f.n = 1) ∧
      ((st.qr f.f.toNat).getLsbD 11 = true → m.qx = st.qr f.x.toNat) ∧
      t.dev.curGrp = { s.dev.curGrp with stream := some { st with queue := st.queue ++ [m] } }) ∧
  (∀ (f : FmtDrain) (s : State) (st : Stream), IssuesWith s (.mdrain f) (fun _ d => drainCheck f d) →
    Spec.StreamIs s st →
    ∃ t m, exec (.mdrain f) s = .next t ∧ t.env = s.env ∧ t.dev.warps = s.dev.warps ∧ m.kind = .mdrain ∧
      m.qd = st.qr f.d.toNat ∧ m.qo = st.qr f.o.toNat ∧ m.acc = accOf s.dev.cur.word ∧
      m.rows = (List.range (qoRows (st.qr f.o.toNat))).map (fun r => qoRow (st.qr f.o.toNat) + r) ∧
      t.dev.curGrp = { s.dev.curGrp with
        stream := some { st with queue := st.queue ++ [m] }
        tiles := if m.acc ∈ s.dev.curGrp.tiles then s.dev.curGrp.tiles else s.dev.curGrp.tiles ++ [m.acc] })

namespace Sys2Proof.Spec

open Sys2Proof.Machine

/-- The reply of a command on its way to s[dst] (R123, R267, R368, R445); s0 asks for none. -/
def replyOf (d : Dev) (eng dst : Nat) (v : DWord) : List Ev.Event :=
  if dst = 0 then [] else
    [.commandReply { core := d.cur.core, slot := d.cur.slot, gid := d.cur.gid, d := dst, value := v, eng := eng }]

/-- A command whose whole effect is its reply. -/
def RepliesOnly (s t : State) (eng dst : Nat) (v : DWord) : Prop :=
  t = { s with dev := { s.dev with agenda := s.dev.agenda ++ replyOf s.dev eng dst v } }

/-- A command that replies with `v`, and changes no register of a warp and no byte of memory. -/
def Replies (s t : State) (eng dst : Nat) (v : DWord) : Prop :=
  t.env = s.env ∧ t.dev.warps = s.dev.warps ∧ t.dev.mem = s.dev.mem ∧ t.dev.cur = s.dev.cur ∧
    t.dev.agenda = s.dev.agenda ++ replyOf s.dev eng dst v

/-- No word waits for a bind slot in either tower (R403). -/
def bindIdle (d : Dev) : Prop := noBindWait d ∧ d.choice = []

/-- R268: the shape that 64 bytes describe. -/
def shapeFields (v : Nat) : CShape :=
  { row := v % 2 ^ 20, count1 := v / 2 ^ 32 % 2 ^ 16, count2 := v / 2 ^ 48 % 2 ^ 16
    mstride1 := BitVec.ofNat 64 (v / 2 ^ 64), mstride2 := BitVec.ofNat 64 (v / 2 ^ 128)
    sstride1 := v / 2 ^ 192 % 2 ^ 32, sstride2 := v / 2 ^ 224 % 2 ^ 32 }

/-- R269, R270: a transfer command has none of the reasons to be turned away, for the shape `sh` that its slot
holds: its scratch extent and its arrival word lie in the scratch and apart, the word is aligned, its reserved bits
are 0, its scope is one of the five, the far side is a transient address for `CRING` alone, and what its function
asks for beside. -/
def transferOk (func : Nat) (d : Dev) (far x : DWord) (sh : CShape) : Prop :=
  let v := x.toNat
  let size := d.curGrp.shape.scratch
  let soff := v % 2 ^ 19
  let aoff := v / 2 ^ 24 % 2 ^ 19
  let last := soff + (sh.count1 - 1) * sh.sstride1 + (sh.count2 - 1) * sh.sstride2 + sh.row
  last ≤ size ∧ aoff + 8 ≤ size ∧ (aoff + 8 ≤ soff ∨ last ≤ aoff) ∧ aoff % 8 = 0 ∧ v < 2 ^ 62 ∧
    1 ≤ v / 2 ^ 21 % 8 ∧ v / 2 ^ 21 % 8 ≤ 5 ∧ (windowOf far.toNat = 3 ↔ func = 5) ∧
    (func = 1 ∨ func = 2 → v / 2 ^ 43 = 0) ∧
    (func = 3 → v / 2 ^ 43 % 4 = 0 ∧ v / 2 ^ 43 + 4 * sh.count1 ≤ size ∧ sh.count2 = 1) ∧
    (func = 4 → 0 < v / 2 ^ 43 ∧ v / 2 ^ 43 < 2 ^ 8 ∧ v / 2 ^ 43 < 2 ^ max 1 d.curGrp.gang.length) ∧
    (func = 5 → v / 2 ^ 44 = 0 ∧ ringErr d (copyOp d 5 far x sh) d.cur.core = none)

/-- R271: the group holds fewer than 16 entries that are not DONE, and some entry of the core's 64 is free or DONE. -/
def copyRoom (d : Dev) : Prop :=
  ((d.core d.cur.core).copies.filter (fun p => p.2.gid == d.cur.gid && p.2.state != .done)).length < 16 ∧
    ∃ k, k < 64 ∧ ((d.core d.cur.core).copies.find? k = none ∨
      ∃ x, (d.core d.cur.core).copies.find? k = some x ∧ x.state = .done)

/-- R279, R449: the groups that an operation's data goes to: the issuer, or the gang members that a `CMCAST` names; a
member that has ended takes none. -/
def transferTo (func : Nat) (d : Dev) (x : DWord) : List Nat :=
  if func = 4 ∧ d.curGrp.gang ≠ [] then
    ((List.range d.curGrp.gang.length).filter (fun k => x.getLsbD (43 + k))).map (fun k => d.curGrp.gang.getD k 0)
  else [d.cur.gid]

/-- A transfer command completes: it takes an entry of the core's table, free or DONE, for the operation it asks for,
and its handle is on its way (R271). -/
def transferCompletes (f : FmtX) (i : Instr) (func : Nat) : Prop :=
  ∀ (s : State) (sh : CShape), Issues s i → s.dev.cur.snap = none →
    s.dev.curGrp.cshapes.find? ((s.dev.sr f.b.toNat).toNat / 2 ^ 19 % 4) = some sh →
    transferOk func s.dev (s.dev.sr f.a.toNat) (s.dev.sr f.b.toNat) sh → copyRoom s.dev →
    ∃ t k o, exec i s = .next t ∧ t.env = s.env ∧ t.dev.warps = s.dev.warps ∧ t.dev.mem = s.dev.mem ∧
      t.dev.groups = s.dev.groups ∧ k < 64 ∧
      ((s.dev.core s.dev.cur.core).copies.find? k = none ∨
        ∃ x, (s.dev.core s.dev.cur.core).copies.find? k = some x ∧ x.state = .done) ∧
      (t.dev.core s.dev.cur.core).copies.find? k = some o ∧
      (∀ j, j ≠ k → (t.dev.core s.dev.cur.core).copies.find? j = (s.dev.core s.dev.cur.core).copies.find? j) ∧
      (∀ c, c ≠ s.dev.cur.core → t.dev.core c = s.dev.core c) ∧
      o.gid = s.dev.cur.gid ∧ o.func = func ∧ o.far = s.dev.sr f.a.toNat ∧ o.xfer = s.dev.sr f.b.toNat ∧
      o.shape = sh ∧ o.members.map (·.gid) = transferTo func s.dev (s.dev.sr f.b.toNat) ∧
      o.state = (if ∀ m ∈ o.members, m.dropped = true then .done else .queued) ∧
      (∀ m ∈ o.members, m.arrived = [] ∧ (m.dropped = true ↔ func = 4 ∧ s.dev.curGrp.gang ≠ [] ∧ hasEnded s.dev m.gid = true)) ∧
      o.gen = ((s.dev.core s.dev.cur.core).copyGen.get k 0 + 1) % 256 ∧
      t.dev.agenda = s.dev.agenda ++ replyOf s.dev 0 f.d.toNat (BitVec.ofNat 64 (k + o.gen * 64 + 2 ^ 14))

/-- A handle operand names no scope, or one of the issuer's tower and ASID whose COUNT can rise by 1 (R368). -/
def nearHandle (d : Dev) (h : DWord) : Prop :=
  h = 0 ∨ scopeTower h = d.curTower ∧
    ∃ x, scopeFind d h = some x ∧ x.asid = d.curAsid ∧ x.count + 1 ≤ 2 ^ 32 - 1

/-- An arena record is taken for a task that has still to retire (R355, R367). -/
def recHeld (d : Dev) (lid i : Nat) : Dev :=
  d.modLaunch lid (fun l => { l with recs := l.recs ++ [i], extra := l.extra + 1 })

/-- Where the 64 bytes of arena record `i` of the issuer's launch go, in the state `w`; none where the write fails
(R450). -/
def recPieces (w d : Dev) (i : Nat) : Option (List (Nat × Nat × Page × List ADSet)) :=
  engPiecesOf w (curLaunch d).ctx (recVa (curLaunch d) i) 64 .write d.curTower

/-- R450: a failed write of the graph engine at `va`: the launch is aborted, the failure counted and its address kept. -/
def WriteAborted (w t : Dev) (lid tw : Nat) (va : DWord) : Prop :=
  (t.launch lid).aborted = true ∧ (t.tower tw).wrerr = min 0xFFFF ((w.tower tw).wrerr + 1) ∧ (t.tower tw).gerrva = va

/-- The task's record stands in the arena record `i`, and memory is else as the translation left it. -/
def RecordWritten (w t d : Dev) (i : Nat) (task : Task) : Prop :=
  ∀ pa pg ads, recPieces w d i = some [(pa, 64, pg, ads)] → t.mem.readN pa 64 = taskBits task % 2 ^ 512 ∧
    ∀ a, a < pa ∨ pa + 64 ≤ a → Memory.read t.mem a = Memory.read (ads.foldl setAD w).mem a

/-- R361, R367, R450: from the state `w` that holds record `i` for it, a task enters the spawn queue of its class at the
tail; where its record cannot be written, the launch aborts and the queue stays. -/
def TaskQueued (w t d : Dev) (lid tw i : Nat) (task : Task) (h : DWord) : Prop :=
  (recPieces w d i = none → WriteAborted w t lid tw (recVa (w.launch lid) i) ∧
    ∀ k, (t.tower tw).spawn.get k [] = (w.tower tw).spawn.get k []) ∧
  ((recPieces w d i).isSome = true → (t.launch lid) = (w.launch lid) ∧ RecordWritten w t d i task ∧
    ∀ k, (t.tower tw).spawn.get k [] = (w.tower tw).spawn.get k [] ++
      if k = task.cls then [{ launch := lid, va := recVa (w.launch lid) i, task := task, scope := h }] else [])

/-- The reply is all that the issuer's warp is sent, and no warp or group changed. -/
def Replied (s t : State) (dst : Nat) (v : DWord) : Prop :=
  t.dev.warps = s.dev.warps ∧ t.dev.groups = s.dev.groups ∧ t.dev.agenda = s.dev.agenda ++ replyOf s.dev 1 dst v

/-- A command on a scope of the other tower leaves for it over UCIe, the next message in sequence (R149, R363; the
form of the message is the model's, log 77). -/
def farCommand (f : FmtX) (func : Nat) (s t : State) : Prop :=
  t.env = s.env ∧ t.dev.warps = s.dev.warps ∧ t.dev.groups = s.dev.groups ∧ t.dev.mem = s.dev.mem ∧
    t.dev.tower s.dev.curTower = { s.dev.tower s.dev.curTower with
      mirrorOut := ((s.dev.tower s.dev.curTower).mirrorOut + 1) % 2 ^ 32 } ∧
    t.dev.agenda = s.dev.agenda ++ [.ucieMirrorMessage {
      src := s.dev.curTower, seq := (s.dev.tower s.dev.curTower).mirrorOut, kind := 5, launch := curLid s.dev
      a := (s.dev.sr f.a.toNat).toNat, sent := s.dev.now
      cmd := some { func := func, core := s.dev.cur.core, slot := s.dev.cur.slot, gid := s.dev.cur.gid
                    d := f.d.toNat, launch := curLid s.dev, ctx := s.dev.curGrp.ctx, h := s.dev.sr f.a.toNat
                    n := (s.dev.sr f.b.toNat).toNat, record := 0 } }]

/-- The dirty lines numbered `lo` to `hi` of both towers (R120). -/
def dirtyIn (d : Dev) (lo hi : Nat) : Nat :=
  (d.towers.map (fun p => (p.2.lines.filter (fun q => decide (lo ≤ q.1 ∧ q.1 ≤ hi) && q.2.dirty)).length)).sum

/-- Nothing is in flight that found its targets before: no stream holds a weight load or a drain, and no weight entry
is being filled (R91). -/
def noTargetsHeld (d : Dev) : Prop :=
  (∀ g ∈ d.groups, ∀ st, g.2.stream = some st → ∀ m ∈ st.queue ++ st.out, m.kind ≠ .mwld ∧ m.kind ≠ .mdrain) ∧
    ∀ c ∈ d.cols, ∀ q ∈ c.2.wbuf, q.2.filling = false

end Sys2Proof.Spec

/-- R266 to R271: `CSHAPE` sets a shape slot from a well-formed descriptor; each of the five transfer commands, where
R270 finds no reason against it, takes an entry of the core's table, free or DONE, and returns its handle. -/
def Obligations.CopyTransferCommands : Prop :=
  (∀ (f : FmtX) (s : State) (off v : Nat), Issues s (.cshape f) →
    (s.dev.groups.find? s.dev.cur.gid).isSome = true →
    off = (s.dev.sr f.a.toNat).toNat → off % 64 = 0 → off + 64 ≤ s.dev.curGrp.shape.scratch → off < 2 ^ 19 →
    (s.dev.sr f.b.toNat).toNat < 4 → v = s.dev.curGrp.scratch.readN off 64 →
    (Spec.shapeFields v).row ≠ 0 → (Spec.shapeFields v).count1 ≠ 0 → (Spec.shapeFields v).count2 ≠ 0 →
    v / 2 ^ 20 % 2 ^ 12 = 0 → v < 2 ^ 256 →
    (Spec.shapeFields v).row * (Spec.shapeFields v).count1 * (Spec.shapeFields v).count2 ≤ 2 ^ 28 - 1 →
    ∃ t, exec (.cshape f) s = .next t ∧ Spec.Replies s t 0 f.d.toNat 0 ∧
      t.dev.curGrp = { s.dev.curGrp with cshapes := t.dev.curGrp.cshapes } ∧
      ∀ k, t.dev.curGrp.cshapes.find? k =
        if k = (s.dev.sr f.b.toNat).toNat then some (Spec.shapeFields v) else s.dev.curGrp.cshapes.find? k) ∧
  ∀ f : FmtX,
    Spec.transferCompletes f (.cget f) 1 ∧ Spec.transferCompletes f (.cput f) 2 ∧
    Spec.transferCompletes f (.cgath f) 3 ∧ Spec.transferCompletes f (.cmcast f) 4 ∧
    Spec.transferCompletes f (.cring f) 5

/-- R271 and R278 to R281: the commands that name an operation by its handle.  A stale handle replies 0 and does
nothing; `CSTAT` reads the status; `CRESUME` sets a stopped operation running again, or DONE where nothing is
left of it; `CCANCEL` frees a stopped entry, and stops one that runs, its reply left to the settling step. -/
def Obligations.CopyHandleCommands : Prop :=
  ∀ (f : FmtXA) (s : State),
    (Issues s (.cstat f) → liveHandle s.dev (s.dev.sr f.a.toNat) = none →
      ∃ t, exec (.cstat f) s = .next t ∧ Spec.RepliesOnly s t 0 f.d.toNat 0) ∧
    (Issues s (.cresume f) → liveHandle s.dev (s.dev.sr f.a.toNat) = none →
      ∃ t, exec (.cresume f) s = .next t ∧ Spec.RepliesOnly s t 0 f.d.toNat 0) ∧
    (Issues s (.ccancel f) → liveHandle s.dev (s.dev.sr f.a.toNat) = none →
      ∃ t, exec (.ccancel f) s = .next t ∧ Spec.RepliesOnly s t 0 f.d.toNat 0) ∧
    ∀ (k : Nat) (o : CopyOp), liveHandle s.dev (s.dev.sr f.a.toNat) = some (k, o) →
      (Issues s (.cstat f) → ∃ t, exec (.cstat f) s = .next t ∧
        Spec.RepliesOnly s t 0 f.d.toNat (copyStatus s.dev o)) ∧
      (Issues s (.cresume f) → ∃ t, exec (.cresume f) s = .next t ∧
        Spec.Replies s t 0 f.d.toNat (BitVec.ofNat 64 o.state.code) ∧
        (∃ x, (t.dev.core s.dev.cur.core).copies.find? k = some x ∧
          (¬ (o.state = .faulted ∨ o.state = .cancelled) → x = o) ∧
          (o.state = .faulted ∨ o.state = .cancelled →
            x = { o with state := x.state, reason := 0, waits := [], held := [] } ∧
            x.state = if ∀ m ∈ o.members, m.dropped = true ∨ m.arrived.length = opChunks s.dev o then .done
              else .running)) ∧
        ∀ j, j ≠ k → (t.dev.core s.dev.cur.core).copies.find? j = (s.dev.core s.dev.cur.core).copies.find? j) ∧
      (Issues s (.ccancel f) → o.state = .done → ∃ t, exec (.ccancel f) s = .next t ∧
        Spec.RepliesOnly s t 0 f.d.toNat 4) ∧
      (Issues s (.ccancel f) → o.state = .faulted ∨ o.state = .cancelled → ∃ t, exec (.ccancel f) s = .next t ∧
        Spec.Replies s t 0 f.d.toNat (BitVec.ofNat 64 o.state.code) ∧
        (t.dev.core s.dev.cur.core).copies.find? k = none ∧
        ∀ j, j ≠ k → (t.dev.core s.dev.cur.core).copies.find? j = (s.dev.core s.dev.cur.core).copies.find? j) ∧
      (Issues s (.ccancel f) → o.state = .queued ∨ o.state = .running ∨ o.state = .parked →
        ∃ (t : State) (x : CopyOp), exec (.ccancel f) s = .next t ∧ t.dev.warps = s.dev.warps ∧ t.dev.mem = s.dev.mem ∧
          t.dev.agenda = s.dev.agenda ∧ (t.dev.core s.dev.cur.core).copies.find? k = some x ∧ x.settling = true ∧
          x.members = o.members ∧
          (o.settling = false → x.reason = 4 ∧ x.waits = []) ∧
          x.reply = o.reply ++ (if f.d = 0 then [] else
            [{ core := s.dev.cur.core, slot := s.dev.cur.slot, gid := s.dev.cur.gid, d := f.d.toNat
               value := BitVec.ofNat 64 o.state.code, eng := 0 }]))

/-- R361 to R363 and R367, R368: a spawned task enters the spawn queue of its class in the issuer's tower, its record
copied into the arena; a successor counter falls by n, and the decrement that reaches 0 enqueues the task that the
counter's record describes; a scope is opened with the continuation's record and one hold.  Where the arena record
cannot be written, and only there, the launch aborts, `GSTAT`.WRERR counts, `GERRVA` names the record, and the task is
not dispatched (R450). -/
def Obligations.SpawnCommands : Prop :=
  (∀ (f : FmtX) (s : State) (h : DWord) (task : Task) (i : Nat) (d w : Dev),
    IssuesWith s (.tspawn f) (recCommandCheck f) → Spec.bindIdle s.dev →
    (s.dev.sr f.a.toNat).toNat % 64 = 0 → h = s.dev.sr f.b.toNat →
    task = taskOf (recRead s.dev (recAcc (s.dev.sr f.a.toNat) 64)) →
    d = recTouch s.dev .read (recAcc (s.dev.sr f.a.toNat) 64) → taskOk d (curLaunch s.dev) task = true →
    (s.dev.launches.find? (curLid s.dev)).isSome = true →
    freeRec (curLaunch s.dev) 8192 (curLaunch s.dev).arenasz = some i →
    Spec.nearHandle s.dev h → w = Spec.recHeld (scopeJoin d h) (curLid s.dev) i →
    ∃ t, exec (.tspawn f) s = .next t ∧ t.env = s.env ∧
      Spec.TaskQueued w t.dev s.dev (curLid s.dev) s.dev.curTower i task h ∧
      ((Spec.recPieces w s.dev i).isSome = true → Spec.Replied s t f.d.toNat 0 ∧
        ∀ x, h ≠ 0 → scopeFind s.dev h = some x → scopeFind t.dev h = some { x with count := x.count + 1 })) ∧
  (∀ (f : FmtX) (s : State) (pa : Nat) (pg : Page) (ads : List ADSet) (n c : Nat),
    IssuesWith s (.tsucc f) (fun e d => tsuccCheck e d (d.sr f.a.toNat) (d.sr f.b.toNat)) → Spec.bindIdle s.dev →
    n = (s.dev.sr f.b.toNat).toNat → 0 < n → n < 2 ^ 32 → (s.dev.sr f.a.toNat).toNat % 16 = 0 →
    counterAt s.dev (curLaunch s.dev).ctx (s.dev.sr f.a.toNat) s.dev.curTower = some (pa, pg, ads) →
    c = s.dev.mem.readN pa 4 →
    (n < c → ∃ t, exec (.tsucc f) s = .next t ∧ t.env = s.env ∧ t.dev.warps = s.dev.warps ∧
      t.dev.mem.readN pa 4 = c - n ∧
      (∀ a, a < pa ∨ pa + 4 ≤ a → Memory.read t.dev.mem a = Memory.read (ads.foldl setAD s.dev).mem a) ∧
      t.dev.agenda = s.dev.agenda ++ Spec.replyOf s.dev 1 f.d.toNat (BitVec.ofNat 64 ((c - n) * 2 ^ 32))) ∧
    (c < n → ∃ t, exec (.tsucc f) s = .next t ∧ Spec.RepliesOnly s t 1 f.d.toNat 5) ∧
    ∀ (va : DWord) (v i : Nat) (task : Task) (d w : Dev), n = c →
      va = BitVec.ofNat 64 (s.dev.mem.readN (pa + 8) 8) → va.toNat % 64 = 0 →
      engRead s.dev (curLaunch s.dev).ctx va 64 s.dev.curTower = some v → task = taskOf v →
      (taskOk s.dev (curLaunch s.dev) task = false → ∃ t, exec (.tsucc f) s = .next t ∧
        Spec.RepliesOnly s t 1 f.d.toNat 2) ∧
      (taskOk s.dev (curLaunch s.dev) task = true → (s.dev.launches.find? (curLid s.dev)).isSome = true →
        freeRec (curLaunch s.dev) 8192 (curLaunch s.dev).arenasz = some i → s.dev.curGrp.scope = 0 →
        d = memWrite s.env (touch (engMark s.dev (curLaunch s.dev).ctx va 64 s.dev.curTower) (curLaunch s.dev).ctx ads)
          pa 4 0 pg → w = Spec.recHeld d (curLid s.dev) i →
        ∃ t, exec (.tsucc f) s = .next t ∧ t.env = s.env ∧ d.mem.readN pa 4 = 0 ∧
          Spec.TaskQueued w t.dev s.dev (curLid s.dev) s.dev.curTower i task 0 ∧
          ((Spec.recPieces w s.dev i).isSome = true → Spec.Replied s t f.d.toNat 0))) ∧
  (∀ (f : FmtX) (s : State) (h : DWord) (task : Task) (i r : Nat) (d w : Dev),
    IssuesWith s (.fsopen f) (recCommandCheck f) → Spec.bindIdle s.dev →
    (s.dev.sr f.a.toNat).toNat % 64 = 0 → h = s.dev.sr f.b.toNat →
    task = taskOf (recRead s.dev (recAcc (s.dev.sr f.a.toNat) 64)) →
    d = recTouch s.dev .read (recAcc (s.dev.sr f.a.toNat) 64) → taskOk d (curLaunch s.dev) task = true →
    (s.dev.launches.find? (curLid s.dev)).isSome = true →
    Spec.nearHandle s.dev h → SMap.free (s.dev.tower s.dev.curTower).scopes 256 = some i →
    freeRec (curLaunch s.dev) 8192 (curLaunch s.dev).arenasz = some r →
    w = (scopeJoin d h).modLaunch (curLid s.dev) (fun l => { l with recs := l.recs ++ [r] }) →
    ∃ t, exec (.fsopen f) s = .next t ∧ t.env = s.env ∧
      (t.dev.tower s.dev.curTower).scopes.find? i = some
        { count := 1, cont := task, va := recVa (curLaunch s.dev) r, launch := curLid s.dev, parent := h
          asid := s.dev.curAsid } ∧
      (Spec.recPieces w s.dev r = none → Spec.WriteAborted w t.dev (curLid s.dev) s.dev.curTower (recVa (curLaunch s.dev) r)) ∧
      ((Spec.recPieces w s.dev r).isSome = true →
        (t.dev.launch (curLid s.dev)).aborted = (curLaunch s.dev).aborted ∧ Spec.RecordWritten w t.dev s.dev r task ∧
        Spec.Replied s t f.d.toNat (BitVec.ofNat 64
          (i * 2 ^ 8 + (s.dev.tower s.dev.curTower).scopeGen.get i 0 * 2 ^ 16 + s.dev.curTower * 2 ^ 32 + 2 ^ 33))))

/-- R363 and R368 to R370: a scope's count rises and falls, and at 0 its entry is freed under a new generation; a
command on a scope of the other tower leaves for it; a `TRETIRE` is turned away, or noted with its reply, and the tile
becomes READY, or FREED with no reader left, when the cycle's retirements are taken; a launch is accepted; a pass takes
a new class in the issuer's tower, which from then on the tower's dispatch reads, and the other tower is told. -/
def Obligations.GraphCommands : Prop :=
  (∀ (f : FmtX) (s : State) (h : DWord) (n : Nat) (x : FScope),
    IssuesWith s (.fsadd f) (fun _ d => farCheck d (d.sr f.a.toNat)) → h = s.dev.sr f.a.toNat →
    scopeTower h = s.dev.curTower → n = (s.dev.sr f.b.toNat).toNat → 0 < n → n < 2 ^ 16 → scopeFind s.dev h = some x → x.asid = s.dev.curAsid →
    x.count + n ≤ 2 ^ 32 - 1 →
    ∃ t, exec (.fsadd f) s = .next t ∧
      Spec.Replies s t 1 f.d.toNat (BitVec.ofNat 64 ((x.count + n) * 2 ^ 32)) ∧ t.dev.groups = s.dev.groups ∧
      scopeFind t.dev h = some { x with count := x.count + n }) ∧
  (∀ (f : FmtX) (s : State) (h : DWord) (n : Nat) (x : FScope),
    IssuesWith s (.fsclose f) (fun _ d => farCheck d (d.sr f.a.toNat)) → h = s.dev.sr f.a.toNat →
    scopeTower h = s.dev.curTower → n = (s.dev.sr f.b.toNat).toNat → 0 < n → n < 2 ^ 16 → scopeFind s.dev h = some x → x.asid = s.dev.curAsid →
    n ≤ x.count →
    ∃ t, exec (.fsclose f) s = .next t ∧
      Spec.Replies s t 1 f.d.toNat (BitVec.ofNat 64 ((x.count - n) * 2 ^ 32)) ∧ t.dev.groups = s.dev.groups ∧
      (n < x.count → scopeFind t.dev h = some { x with count := x.count - n }) ∧
      (n = x.count → scopeFind t.dev h = none ∧
        (t.dev.tower (scopeTower h)).scopes.find? (scopeIdx h) = none)) ∧
  (∀ (f : FmtX) (s : State), s.dev.sr f.a.toNat ≠ 0 → scopeTower (s.dev.sr f.a.toNat) ≠ s.dev.curTower →
    s.dev.uciUp = true →
    (Issues s (.fsadd f) → ∃ t, exec (.fsadd f) s = .next t ∧ Spec.farCommand f 4 s t) ∧
    (Issues s (.fsclose f) → ∃ t, exec (.fsclose f) s = .next t ∧ Spec.farCommand f 3 s t)) ∧
  (∀ (f : FmtXA) (s : State) (r k : Nat), Issues s (.tretire f) → (s.dev.groups.find? s.dev.cur.gid).isSome = true →
    r = (s.dev.sr f.a.toNat).toNat → k = r * 2 ^ 24 + s.dev.curGrp.task.ty * 2 ^ 12 + s.dev.curGrp.task.tx →
    (2 ^ 8 ≤ r → ∃ t, exec (.tretire f) s = .next t ∧ Spec.RepliesOnly s t 1 f.d.toNat 1) ∧
    (r < 2 ^ 8 → s.dev.curGrp.task.pass = 255 ∨ ¬ r ∈ ((curLaunch s.dev).pass s.dev.curGrp.task.pass).outs ∨
        r ∈ s.dev.curGrp.trets ∨ (((curLaunch s.dev).rt k).st ≠ .writing ∧ ((curLaunch s.dev).rt k).lost = false) →
      ∃ t, exec (.tretire f) s = .next t ∧ Spec.RepliesOnly s t 1 f.d.toNat 2) ∧
    (r < 2 ^ 8 → s.dev.curGrp.gang = [] → s.dev.curGrp.task.pass ≠ 255 →
      r ∈ ((curLaunch s.dev).pass s.dev.curGrp.task.pass).outs → ¬ r ∈ s.dev.curGrp.trets →
      ((curLaunch s.dev).rt k).st = .writing ∨ ((curLaunch s.dev).rt k).lost = true →
      ∃ t, exec (.tretire f) s = .next t ∧ Spec.Replies s t 1 f.d.toNat 0 ∧ t.dev.launches = s.dev.launches ∧
        t.dev.curGrp = { s.dev.curGrp with trets := s.dev.curGrp.trets ++ [r], tretDue := s.dev.curGrp.tretDue ++ [r] })) ∧
  (∀ (d : Dev) (gid r k : Nat) (g : Group), d.groups.find? gid = some g → g.tretDue = [r] →
    (d.launches.find? g.launch).isSome = true → k = r * 2 ^ 24 + g.task.ty * 2 ^ 12 + g.task.tx →
    (((d.launch g.launch).rt k).lost = true → ((tretApply d gid).launch g.launch) = d.launch g.launch) ∧
    (((d.launch g.launch).rt k).st = .writing → ((d.launch g.launch).rt k).lost = false →
      (((tretApply d gid).launch g.launch).rt k).lost = false ∧
      if (d.launch g.launch).readers k + decrementsOut d g.launch k = 0 ∧ ((d.launch g.launch).resD (k / 2 ^ 24)).transient = true then
        (((tretApply d gid).launch g.launch).rt k).st = .freed
      else (((tretApply d gid).launch g.launch).rt k).st = .ready ∧
        (((tretApply d gid).launch g.launch).rt k).lrc = (d.launch g.launch).readers k + decrementsOut d g.launch k)) ∧
  (∀ (f : FmtX) (s : State) (h : DWord) (l : Launch) (v : Nat) (d : Dev),
    IssuesWith s (.glaunch f) (recCommandCheck f) → Spec.bindIdle s.dev →
    (s.dev.sr f.a.toNat).toNat % 64 = 0 → h = s.dev.sr f.b.toNat → v = recRead s.dev (recAcc (s.dev.sr f.a.toNat) 64) →
    Spec.nearHandle s.dev h → d = recTouch s.dev .read (recAcc (s.dev.sr f.a.toNat) 64) →
    loadCheck d s.dev.curGrp.ctx v s.dev.curTower = (0, l) →
    launchOver (acceptLaunch (scopeJoin d h) l none h v s.dev.curTower) s.dev.nextLaunch = false →
    ∃ t x, exec (.glaunch f) s = .next t ∧ t.env = s.env ∧ t.dev.warps = s.dev.warps ∧ t.dev.groups = s.dev.groups ∧
      t.dev.nextLaunch = s.dev.nextLaunch + 1 ∧ t.dev.launches.find? s.dev.nextLaunch = some x ∧
      x.graph = l.graph ∧ x.ctx = l.ctx ∧ x.scope = h ∧ x.parts = [s.dev.curTower] ∧
      (∀ j, j ≠ s.dev.nextLaunch → t.dev.launches.find? j = s.dev.launches.find? j) ∧
      (l.towers.testBit (1 - s.dev.curTower) = false →
        t.dev.agenda = s.dev.agenda ++ Spec.replyOf s.dev 1 f.d.toNat 0)) ∧
  (∀ (f : FmtX) (s : State) (p k : Nat), Issues s (.gprio f) → (s.dev.launches.find? (curLid s.dev)).isSome = true →
    s.dev.curTower < 2 → p = (s.dev.sr f.a.toNat).toNat → k = (s.dev.sr f.b.toNat).toNat → p < 64 → k < 8 →
    s.dev.curGrp.task.pass ≠ 255 → p < (curLaunch s.dev).graph.passes.length → k ≤ (curLaunch s.dev).classcap →
    ∃ t, exec (.gprio f) s = .next t ∧ t.env = s.env ∧ t.dev.warps = s.dev.warps ∧ t.dev.mem = s.dev.mem ∧
      t.dev.groups = s.dev.groups ∧
      t.dev.agenda = s.dev.agenda ++ (if (curLaunch s.dev).towers = 3 ∧ s.dev.uciUp = true then
          [.ucieMirrorMessage { src := s.dev.curTower, seq := (s.dev.tower s.dev.curTower).mirrorOut, kind := 3
                                launch := curLid s.dev, a := p * 8 + k, sent := s.dev.now }] else []) ++
        Spec.replyOf s.dev 1 f.d.toNat (BitVec.ofNat 64 ((curLaunch s.dev).classOf p s.dev.curTower * 2 ^ 8)) ∧
      (curLaunch t.dev).classOf p s.dev.curTower = k ∧ (curLaunch t.dev).classes = (curLaunch s.dev).classes ∧
      ∀ q w, w < 2 → (q ≠ p ∨ w ≠ s.dev.curTower) →
        (curLaunch t.dev).classOf q w = (curLaunch s.dev).classOf q w)

/-- R119 to R123, R91 and R402: the memory engine's commands.  An operand outside its range gets status 1 and a split that
R103 rules out status 2, with no effect; a length of 0 completes at once; `CFLUSH` replies DONE with the lines written
back in bits 63 to 32, and skips a page whose walk ends at an invalid entry; `PATCH` is refused where no list of a
PATCHABLE version, as the model reads one (log 85), names its address. -/
def Obligations.MemoryEngineCommands : Prop :=
  (∀ (f : FmtX) (s : State) (a b : Nat), a = (s.dev.sr f.a.toNat).toNat → b = (s.dev.sr f.b.toNat).toNat →
    (Issues s (.icinv f) → a + b > 2 ^ 64 → ∃ t, exec (.icinv f) s = .next t ∧ Spec.RepliesOnly s t 3 f.d.toNat 1) ∧
    (Issues s (.icinv f) → b = 0 → ∃ t, exec (.icinv f) s = .next t ∧ Spec.RepliesOnly s t 3 f.d.toNat 0) ∧
    (Issues s (.cflush f) → a + b % 2 ^ 48 > 2 ^ 64 ∨ b / 2 ^ 48 ≥ 3 →
      ∃ t, exec (.cflush f) s = .next t ∧ Spec.RepliesOnly s t 3 f.d.toNat 1) ∧
    (Issues s (.cflush f) → b % 2 ^ 48 = 0 → b / 2 ^ 48 < 3 →
      ∃ t, exec (.cflush f) s = .next t ∧ Spec.RepliesOnly s t 3 f.d.toNat 0) ∧
    (Issues s (.csplit f) → a > 12 ∨ b ≥ 4 → ∃ t, exec (.csplit f) s = .next t ∧ Spec.RepliesOnly s t 3 f.d.toNat 1) ∧
    (Issues s (.csplit f) → a ≤ 12 → b < 4 →
      (∃ t, t < 2 ∧ b.testBit t = true ∧ splitOk s.dev s.dev.curGrp.ctx t a = false) →
      ∃ t, exec (.csplit f) s = .next t ∧ Spec.RepliesOnly s t 3 f.d.toNat 2) ∧
    (Issues s (.tlbinv f) → b ≥ 2 ^ 18 → ∃ t, exec (.tlbinv f) s = .next t ∧ Spec.RepliesOnly s t 3 f.d.toNat 1)) ∧
  (∀ (f : FmtX) (s : State) (n mode level pte : Nat) (tva : DWord), Issues s (.cflush f) →
    n = (s.dev.sr f.b.toNat).toNat % 2 ^ 48 → mode = (s.dev.sr f.b.toNat).toNat / 2 ^ 48 → mode < 3 → 0 < n →
    windowOf (s.dev.sr f.a.toNat).toNat = 0 → (s.dev.sr f.a.toNat).toNat % 65536 + n ≤ 65536 →
    resolveAt s.dev s.dev.who (s.dev.sr f.a.toNat) 1 0 1 .read (s.dev.opt 1) = .error (.xlate false level pte tva) →
    ∃ t, exec (.cflush f) s = .next t ∧ Spec.RepliesOnly s t 3 f.d.toNat 0) ∧
  (∀ (f : FmtX) (s : State) (a n : Nat), Issues s (.icinv f) → a = (s.dev.sr f.a.toNat).toNat →
    n = (s.dev.sr f.b.toNat).toNat → 0 < n → a + n ≤ 2 ^ 64 →
    ∃ t, exec (.icinv f) s = .next t ∧ Spec.Replies s t 3 f.d.toNat 0 ∧
      ∀ c, t.dev.core c = { s.dev.core c with
        code := (s.dev.core c).code.filter (fun l => !(l.asid == s.dev.curAsid && decide (l.va < a + n ∧ a < l.va + 64))) }) ∧
  (∀ (f : FmtX) (s : State) (pa n mode : Nat) (pg : Page) (ads : List ADSet), Issues s (.cflush f) →
    s.dev.choice = [] → s.dev.uciUp = true → n = (s.dev.sr f.b.toNat).toNat % 2 ^ 48 →
    mode = (s.dev.sr f.b.toNat).toNat / 2 ^ 48 → mode < 3 → 0 < n → windowOf (s.dev.sr f.a.toNat).toNat = 0 →
    (s.dev.sr f.a.toNat).toNat % 65536 + n ≤ 65536 →
    resolveAt s.dev s.dev.who (s.dev.sr f.a.toNat) 1 0 1 .read 0 = .ok (.mem pa pg, ads) →
    ∃ t v, exec (.cflush f) s = .next t ∧ t.env = s.env ∧ t.dev.warps = s.dev.warps ∧ t.dev.groups = s.dev.groups ∧
      t.dev.mem = (ads.foldl setAD s.dev).mem ∧ t.dev.agenda = s.dev.agenda ++ Spec.replyOf s.dev 3 f.d.toNat v ∧
      v = (if mode = 2 then 0 else BitVec.ofNat 64 (min (Spec.dirtyIn (touch s.dev s.dev.curGrp.ctx ads)
        (pa / 128) ((pa + n - 1) / 128)) (2 ^ 32 - 1) * 2 ^ 32)) ∧
      (∀ k, pa / 128 ≤ k → k ≤ (pa + n - 1) / 128 →
        (mode = 2 → (t.dev.core s.dev.cur.core).l1.find? k = none) ∧
        (mode = 1 → (∀ w, (t.dev.tower w).lines.find? k = none) ∧ ∀ c, (t.dev.core c).l1.find? k = none) ∧
        (mode = 0 → ∀ w x, (t.dev.tower w).lines.find? k = some x → x.dirty = false))) ∧
  (∀ (f : FmtX) (s : State) (a m : Nat), Issues s (.csplit f) → a = (s.dev.sr f.a.toNat).toNat →
    m = (s.dev.sr f.b.toNat).toNat → m < 4 → a ≤ 12 →
    (∀ t, t < 2 → m.testBit t = true → splitOk s.dev s.dev.curGrp.ctx t a = true) →
    ∃ t, exec (.csplit f) s = .next t ∧ Spec.Replies s t 3 f.d.toNat 0 ∧
      (∀ k, k < 2 → m.testBit k = true → ((t.dev.tower k).ways.get s.dev.curGrp.ctx []).length = a) ∧
      (∀ k, k < 2 → m.testBit k = false → t.dev.tower k = s.dev.tower k) ∧
      t.dev.curCtx = { s.dev.curCtx with
        ways0 := if m.testBit 0 = true then a else s.dev.curCtx.ways0
        ways1 := if m.testBit 1 = true then a else s.dev.curCtx.ways1 }) ∧
  (∀ (f : FmtX) (s : State) (b : DWord), Issues s (.tlbinv f) → b = s.dev.sr f.b.toNat → b.toNat < 2 ^ 18 →
    ∃ t, exec (.tlbinv f) s = .next t ∧ t.env = s.env ∧ t.dev.warps = s.dev.warps ∧ t.dev.mem = s.dev.mem ∧
      (s.dev.invals = [] → Spec.noTargetsHeld s.dev → t.dev.invals = [] ∧ Spec.Replies s t 3 f.d.toNat 0) ∧
      ∀ x, x ∈ t.dev.tlb ↔ x ∈ s.dev.tlb ∧
        ¬ ((b.getLsbD 16 = true ∨ x.asid = b.toNat % 2 ^ 16) ∧
          (b.getLsbD 17 = true ∨ x.va = (s.dev.sr f.a.toNat).toNat / 2 ^ (16 + 13 * x.level)))) ∧
  (∀ (f : FmtX) (s : State), IssuesWith s (.patch f) (fun e d => memCheck e d .patch [recAcc (d.sr f.a.toNat) 8]) →
    ∀ (d : Dev) (ok : Bool), patchSlot s.env s.dev s.dev.curGrp.ctx (s.dev.sr f.a.toNat) = (d, ok) →
      (ok = false → ∃ t, exec (.patch f) s = .next t ∧ t.env = s.env ∧
        t.dev = { d with agenda := d.agenda ++ Spec.replyOf s.dev 3 f.d.toNat 2 }) ∧
      (ok = true → Spec.bindIdle d →
        ∀ (pa : Nat) (pg : Page) (ads : List ADSet),
          accTarget s.dev s.dev.who .patch (recAcc (s.dev.sr f.a.toNat) 8) (0, 8) = .ok (.mem pa pg, ads) →
          ∃ t, exec (.patch f) s = .next t ∧ t.env = s.env ∧ t.dev.warps = d.warps ∧
            t.dev.agenda = d.agenda ++ Spec.replyOf s.dev 3 f.d.toNat 0 ∧
            t.dev.mem.readN pa 8 = (s.dev.sr f.b.toNat).toNat ∧
            (∀ a, a < pa ∨ pa + 8 ≤ a → Memory.read t.dev.mem a = Memory.read (ads.foldl setAD d).mem a) ∧
            ∀ c l, l ∈ (t.dev.core c).code → l.asid = d.curAsid →
              l.va ≥ (s.dev.sr f.a.toNat).toNat + 8 ∨ (s.dev.sr f.a.toNat).toNat ≥ l.va + 64)) ∧
  (∀ (f : FmtX) (s : State), IssuesWith s (.patch f) (fun e d => memCheck e d .patch [recAcc (d.sr f.a.toNat) 8]) →
    patchElems s.dev s.dev.curGrp.ctx = [] → ∃ t, exec (.patch f) s = .next t ∧ Spec.RepliesOnly s t 3 f.d.toNat 2)

/-- R445 to R447: `TELRD` reads a telemetry item of the issuer's column into bits [63:16] of its reply, status 1
for an item or an index that is not there; `PGREQ` asks for a gate or an ungate of a layer. -/
def Obligations.TelemetryAndPowerCommands : Prop :=
  (∀ (f : FmtXA) (s : State) (a i k : Nat), Issues s (.telrd f) → a = (s.dev.sr f.a.toNat).toNat →
    i = a / 2 ^ 8 → k = s.dev.cur.core / 2 →
    (a < 2 ^ 16 → ∀ v, (a % 256, v) ∈
        [(0, if i = 0 then some (s.dev.mgmt.en0 + s.dev.mgmt.en1 * 2 ^ 8) else none),
         (1, if i ≤ 6 then some ((s.dev.mgmt.temps.get (k * 8 + i) 0 % 65536).toNat) else none),
         (2, if 3 ≤ i ∧ i ≤ 6 then some ((vfstat (vfBlock s.dev (k * 4 + i - 3))).toNat % 2 ^ 28) else none),
         (3, if 3 ≤ i ∧ i ≤ 6 then some (vfBlock s.dev (k * 4 + i - 3)).why else none),
         (4, if i = 0 then some s.dev.mgmt.pwr else none),
         (5, if i = 0 then some (s.dev.mgmt.sva.get k 0 + s.dev.mgmt.svb.get k 0 + s.dev.mgmt.smx.get k 0) else none)] →
      ∃ t, exec (.telrd f) s = .next t ∧ Spec.RepliesOnly s t 2 f.d.toNat (match v with
        | some x => BitVec.ofNat 64 (x * 2 ^ 16)
        | none => 1)) ∧
    (a ≥ 2 ^ 16 ∨ a % 256 > 5 → ∃ t, exec (.telrd f) s = .next t ∧ Spec.RepliesOnly s t 2 f.d.toNat 1)) ∧
  (∀ (f : FmtX) (s : State) (a col tw lay key : Nat), Issues s (.pgreq f) → a = (s.dev.sr f.a.toNat).toNat →
    col = a % 32 → tw = a / 32 % 2 → lay = a / 256 → a / 64 % 4 = 0 → 4 ≤ lay → lay ≤ 6 →
    key = (tw * 32 + col) * 8 + lay → ¬ col ∈ (s.dev.tower tw).retiring →
    (s.dev.sr f.b.toNat = 1 → key ∈ s.dev.mgmt.gated →
      ∃ t, exec (.pgreq f) s = .next t ∧ Spec.RepliesOnly s t 2 f.d.toNat 0) ∧
    (s.dev.sr f.b.toNat = 1 → ¬ key ∈ s.dev.mgmt.gated →
      ∃ t, exec (.pgreq f) s = .next t ∧ t.env = s.env ∧ t.dev.mem = s.dev.mem ∧ t.dev.agenda = s.dev.agenda ∧
        t.dev.mgmt = { s.dev.mgmt with
          gating := s.dev.mgmt.gating ++ [⟨key, false, some ⟨s.dev.cur.core, s.dev.cur.slot, s.dev.cur.gid, f.d.toNat⟩⟩] } ∧
        ∀ g x, g ∈ gateGroups s.dev key → s.dev.groups.find? g = some x → x.ended = false →
          (t.dev.grp g).saving = true) ∧
    (s.dev.sr f.b.toNat = 0 → key ∈ s.dev.mgmt.heldHot ∨ key ∈ s.dev.mgmt.failed →
      ∃ t, exec (.pgreq f) s = .next t ∧ Spec.RepliesOnly s t 2 f.d.toNat 2) ∧
    (s.dev.sr f.b.toNat = 0 → ¬ key ∈ s.dev.mgmt.heldHot → ¬ key ∈ s.dev.mgmt.failed →
      (∀ g ∈ s.dev.mgmt.gating, g.key ≠ key) → ¬ key ∈ s.dev.mgmt.gated →
      ∃ t, exec (.pgreq f) s = .next t ∧ Spec.RepliesOnly s t 2 f.d.toNat 0) ∧
    (s.dev.sr f.b.toNat = 0 → ¬ key ∈ s.dev.mgmt.heldHot → ¬ key ∈ s.dev.mgmt.failed →
      (∀ g ∈ s.dev.mgmt.gating, g.key ≠ key) → key ∈ s.dev.mgmt.gated →
      ∃ t, exec (.pgreq f) s = .next t ∧ t.env = s.env ∧ t.dev.warps = s.dev.warps ∧ t.dev.agenda = s.dev.agenda ∧
        ¬ key ∈ t.dev.mgmt.gated ∧
        t.dev.mgmt.ungating = s.dev.mgmt.ungating ++ [(key,
          { core := s.dev.cur.core, slot := s.dev.cur.slot, gid := s.dev.cur.gid, d := f.d.toNat })]))

namespace Sys2Proof.Spec

open Sys2Proof.Machine

/-- The frame of R162: the batch whose age reached the limit, and no word. -/
def watchdogHalt (d : Dev) (p : Ev.Batch) (w : Warp) : Halt :=
  { c := d.clk p.core, save := false, cause := .watchdog, d0 := p.lanes.toNat
    d1 := (w.fibre (lowLane p.lanes)).pc.toNat % 2 ^ 32, d2 := (w.fibre (lowLane p.lanes)).pc.toNat / 2 ^ 32
    ogid := w.gid, oslot := p.slot, olanes := p.lanes, ostream := false, gpc := (w.fibre (lowLane p.lanes)).pc
    wpc := (w.fibre (lowLane p.lanes)).pc, ow := [0, 0, 0, 0, 0, 0, 0, 0], fromWord := false, class4 := false
    streamPc := 0 }

/-- The writable lines have left a core's L1 (R136). -/
def l1Joined (s t : State) (c : Nat) : Prop := (t.dev.core c).l1 = (s.dev.core c).l1.filter (fun p => !p.2.wr)

/-- Nothing waits on a fault buffer but what is parked as a replay: no walk of `CFLUSH`, no bind slot, no fault
owed to a group, no copy. -/
def quietBuffers (d : Dev) : Prop :=
  d.walking = [] ∧ (∀ w ∈ d.warps, ∀ f ∈ w.2.fib, ∀ t k va r o, f.2.park ≠ .bind t k va r o) ∧
    (∀ g ∈ d.groups, g.2.waits = [] ∧ g.2.owed = []) ∧ ∀ c ∈ d.cores, ∀ o ∈ c.2.copies, o.2.waits = []

/-- The byte that a target of memory or of the scratch ways holds. -/
def byteOf (d : Dev) (x : Target) (i : Nat) : Byte :=
  match x with
  | .mem pa _ => Memory.read d.mem (pa + i)
  | .ring tw key => Memory.read (d.tower tw).ringMem (key + i)
  | _ => 0

/-- Bytes `lo` to `lo + n - 1` lie apart from the arrival word at `w`. -/
def apart (w lo n : Nat) : Prop := w + 8 ≤ lo ∨ lo + n ≤ w

/-- A chunk of `len` bytes is counted at its arrival word in a member's scratch (R253, R273), and its operation has it
for that member. -/
def chunkCounted (s t : State) (p : Ev.Chunk) (m : CMember) (aoff len : Nat) : Prop :=
  scr64 (t.dev.grp m.gid) aoff = arrived (scr64 (s.dev.grp m.gid) aoff) len ∧
    ∃ o', (t.dev.core p.core).copies.find? p.entry = some o' ∧
      o'.members[p.member]? = some { m with arrived := m.arrived ++ [p.chunk] }

/-- The bits of an element of A or B of a format code (R317, R318). -/
def elemWidth (fmt : Nat) : Nat := if fmt < 2 then 16 else if fmt = 3 then 6 else 8
/-- The value of an element's code: BF16, FP16, T8, T6 or INT8 (R317). -/
def elemValue (fmt c : Nat) : XV :=
  if fmt = 0 then bf16.decode c else if fmt = 1 then f16.decode c else if fmt = 2 then decodeTaper 7 c
  else if fmt = 3 then decodeTaper 5 c else xint (BitVec.ofNat 8 c).toInt

/-- R38, R42: the shares of the products, each summed exactly and rounded, added into the accumulator one by one. -/
def shareSums (prod : Nat → XV) : List Nat → Nat → Word → Word
  | [], _, acc => acc
  | n :: r, k, acc => shareSums prod r (k + n) (radd acc
      (roundF32 rne (XV.sum false ((List.range n).map (fun i => prod (k + i))))).1)

/-- What an `MMA` computes of one element (R38, R39, R42, R295, R320): on the integer path the wrapped sum of all 64
products; else the sums of the shares that the mode and the layers present give; a dense element of A or B without
scales is its decoded code. -/
def MmaRule : Prop :=
  ∀ (m : Mop) (w : WEntry) (p i j : Nat) (old acc : Word), acc = (if m.qf.getLsbD 10 = true then old else 0) →
    (m.qf.toNat % 16 = 4 → w.fields % 32 = 4 →
      mmaElem m w p i j old = BitVec.ofInt 32 (acc.toInt + ((List.range 64).map (fun s =>
        (BitVec.ofNat 8 (m.arows.getD i 0 / 2 ^ (8 * bIndex w j s))).toInt * (BitVec.ofNat 8 (bCode w j s)).toInt)).sum)) ∧
    (¬ (m.qf.toNat % 16 = 4 ∧ w.fields % 32 = 4) →
      mmaElem m w p i j old = shareSums (fun s => (aVal m i (bIndex w j s)).mul (bVal w j s))
        (if m.strict = true ∨ 4 ≤ p then [16, 16, 16, 16] else if p = 3 then [22, 21, 21] else if p = 2 then [32, 32] else [64])
        0 acc) ∧
    ∀ k, (m.qf.getLsbD 11 = false → m.qf.toNat % 16 < 5 → aVal m i k =
        elemValue (m.qf.toNat % 16) (m.arows.getD i 0 / 2 ^ (k * elemWidth (m.qf.toNat % 16)) % 2 ^ elemWidth (m.qf.toNat % 16))) ∧
      (w.fields % 32 < 5 → bVal w j k = elemValue (w.fields % 16) (bCode w j k)) ∧ (w.fields / 32 = 0 → bIndex w j k = k)

/-- A quotient in the destination format of OFMT 1 to 5 (R325). -/
def drainCode (fmt : Nat) (k : Rnd) (y : XV) : Nat :=
  if fmt = 1 then (bf16.round k y).1 else if fmt = 2 then (f16.round k y).1 else if fmt = 3 then (roundTaper 7 k y).1
  else if fmt = 4 then (roundTaper 5 k y).1 else ((convInt (-128) 127 k y).1 % 256).toNat

/-- What a drain makes of one element (R23, R325): x is the tile's element, s the scale of the row, old the element that
ADD reads. -/
def DrainRule : Prop :=
  ∀ (m : Mop) (i j fmt s : Nat) (old : Option (List Nat)) (raw : Word) (k : Rnd) (c : Nat), j < 32 → fmt = m.qo.toNat % 8 →
    raw = SMap.get (m.tile.getD []) (32 * i + j) 0 → k = { rm := m.rm, seed := m.seed, idx := 32 * i + j } →
    c = (drainRow m i old).1.getD j 0 → s = (drainRow m i old).2 →
    (fmt < 6 → s = (s12Cover (fmt - 1) ((List.range 32).map (fun n => xf32 (SMap.get (m.tile.getD []) (32 * i + n) 0)))).1) ∧
    (m.qo.getLsbD 10 = false →
      (fmt = 0 → old = none → c = raw.toNat) ∧
      (∀ l, fmt = 0 → old = some l → c = (f32.round k (XV.add (m.rm == 4) (f32.decode (l.getD j 0)) (xf32 raw))).1) ∧
      (1 ≤ fmt → fmt ≤ 5 → old = none ∨ 3 ≤ fmt → c = drainCode fmt k (xf32 raw)) ∧
      (∀ l, fmt = 1 → old = some l → c = (bf16.round k (XV.add (m.rm == 4) (bf16.decode (l.getD j 0)) (xf32 raw))).1) ∧
      (∀ l, fmt = 2 → old = some l → c = (f16.round k (XV.add (m.rm == 4) (f16.decode (l.getD j 0)) (xf32 raw))).1) ∧
      (fmt = 6 → old = none → c = raw.toNat) ∧
      (∀ l, fmt = 6 → old = some l → c = (l.getD j 0 + raw.toNat) % 2 ^ 32) ∧
      (fmt = 7 → old = none → c = (f32.round k (xint raw.toInt)).1) ∧
      (∀ l, fmt = 7 → old = some l → c = (f32.round k (XV.add (m.rm == 4) (f32.decode (l.getD j 0)) (xint raw.toInt))).1)) ∧
    (m.qo.getLsbD 10 = true → 1 ≤ fmt → fmt ≤ 5 → old = none →
      (s / 16 % 256 = 0 → c = 0) ∧
      (s / 16 % 256 = 255 → c = [0x7FC0, 0x7E00, 2 ^ 7, 2 ^ 5, 0].getD (fmt - 1) 0) ∧
      (1 ≤ s / 16 % 256 → s / 16 % 256 ≤ 254 → c = drainCode fmt k ((xf32 raw).mul
        (.fin false (16 * 2 ^ (127 - s / 16 % 256)) ((16 + s % 16) * 2 ^ (s / 16 % 256 - 127))))))

/-- The fold word of R299: the layers present, the mode, and of an `MMA` the fusion, the stack, its contributors and the
shares. -/
def foldOf (mask : Nat) (strict : Bool) : Option Nat → Nat
  | none => mask + (if strict = true then 0 else 16)
  | some n => mask + (if strict = true then 0 else 16) +
      (if maskCount mask = 4 then 0 else if strict = true then 32 else 64) + (if 2 ≤ n then 128 else 0) + 256 * n +
      4096 * (if strict = true ∨ maskCount mask = 4 then 0 else 4 - maskCount mask)

/-- The stream's one operation out of its queue has completed with this fold word (R299, R300). -/
def folded (s t : State) (gid id w : Nat) : Prop :=
  ∀ g st x, s.dev.groups.find? gid = some g → g.stream = some st → st.out = [x] → x.id = id → x.done = none →
    ∃ g' st', t.dev.groups.find? gid = some g' ∧ g'.stream = some st' ∧ st'.out = [] ∧ st'.fold = w ∧
      st'.opseq = (st.opseq + 1) % 2 ^ 32

end Sys2Proof.Spec

/-- R123, R139, R162, R237, R267, R380 and R72: the steps of a core that no word makes.  Returned data land in
the registers they name; a reply in its scalar register; a completed `FENCE.SC` lets its lanes go on; a batch
whose age reaches the limit raises WATCHDOG; the end of a halt enters the trap level in the warp it began in and
stops the group's others; a never-assigned word raises EMULATE. -/
def Obligations.CoreEvents : Prop :=
  (∀ (p : Ev.LoadReturn) (s : State) (w : Warp), s.dev.warps.find? (wkey p.core p.slot) = some w → p.strm = [] →
    (p.vec.map Prod.fst).Nodup → (p.sca.map Prod.fst).Nodup →
    ∃ t w', exec (.loadReturn p) s = .next t ∧ t.env = s.env ∧ t.dev = { s.dev with warps := t.dev.warps } ∧
      (∀ c k, wkey c k ≠ wkey p.core p.slot → t.dev.warp c k = s.dev.warp c k) ∧
      t.dev.warp p.core p.slot = w' ∧ w' = { w with v := w'.v, s := w'.s } ∧
      (∀ r l x, l < 32 → (r * 32 + l, x) ∈ p.vec → w'.phys r l = x) ∧
      (∀ r l, l < 32 → ¬ (r * 32 + l) ∈ p.vec.map Prod.fst → w'.phys r l = w.phys r l) ∧
      (∀ n x, n ≠ 0 → (n, x) ∈ p.sca → w'.sr n = x) ∧
      (∀ n, ¬ n ∈ p.sca.map Prod.fst → w'.sr n = w.sr n)) ∧
  (∀ (p : Ev.LoadReturn) (s : State) (g r : Nat) (v : DWord) (x : Group) (st : Stream), p.vec = [] → p.sca = [] →
    p.strm = [(g, r, v)] → s.dev.groups.find? g = some x → x.stream = some st →
    ∃ t st', exec (.loadReturn p) s = .next t ∧ t.env = s.env ∧ t.dev.mem = s.dev.mem ∧
      t.dev.grp g = { x with stream := some st' } ∧ Spec.QWritten st st' r v) ∧
  (∀ (p : Ev.Reply) (s : State) (w : Warp), s.dev.warps.find? (wkey p.core p.slot) = some w → w.gid = p.gid →
    ∃ t, exec (.commandReply p) s = .next t ∧ t.env = s.env ∧
      t.dev = { s.dev with warps := t.dev.warps, cores := t.dev.cores } ∧
      t.dev.warp p.core p.slot = { w with s := (t.dev.warp p.core p.slot).s } ∧
      (∀ m, (t.dev.warp p.core p.slot).sr m = if m = p.d ∧ p.d ≠ 0 then p.value else w.sr m) ∧
      (p.eng = 3 → Spec.l1Joined s t p.core) ∧ (p.eng ≠ 3 → t.dev.cores = s.dev.cores)) ∧
  (∀ (p : Ev.WarpRef) (s : State) (w : Warp), s.dev.warps.find? (wkey p.core p.slot) = some w →
    ∃ t, exec (.fenceScComplete p) s = .next t ∧ t.env = s.env ∧
      t.dev = { s.dev with warps := t.dev.warps, cores := t.dev.cores } ∧
      t.dev.warp p.core p.slot = { w with fenceSc := none } ∧ Spec.l1Joined s t p.core) ∧
  (∀ (p : Ev.Batch) (s : State) (w : Warp) (g : Group), s.dev.warps.find? (wkey p.core p.slot) = some w →
    s.dev.groups.find? w.gid = some g → g.core = p.core → g.gang = [] → g.halt = none →
    (s.dev.ctx g.ctx).trapvec ≠ 0 → w.levels.length < 2 →
    ∃ t, exec (.watchdogExpiry p) s = .next t ∧ t.env = s.env ∧ t.dev.mem = s.dev.mem ∧
      (t.dev.grp w.gid).halt = some (Spec.watchdogHalt s.dev p w) ∧
      (t.dev.warp p.core p.slot).fib = w.fib ∧ (t.dev.warp p.core p.slot).v = w.v ∧
      (t.dev.warp p.core p.slot).s = w.s) ∧
  (∀ (p : Ev.GroupRef) (s : State) (g : Group) (hl : Halt) (w : Warp), s.dev.groups.find? p.gid = some g →
    g.halt = some hl → hl.save = false → hl.ogid = p.gid → hl.ostream = false → g.saving = false → g.slots = [hl.oslot] →
    s.dev.warps.find? (wkey g.core hl.oslot) = some w → w.levels.length < 2 → w.emuctl.toNat % 16 ≤ w.nregs / 16 →
    ∃ t, exec (.haltComplete p) s = .next t ∧ t.env = s.env ∧ t.dev.mem = s.dev.mem ∧ (t.dev.grp p.gid).halt = none ∧
      (t.dev.warp g.core hl.oslot).levels.length = w.levels.length + 1 ∧
      (t.dev.warp g.core hl.oslot).tcause.toNat % 256 = hl.cause.code ∧
      (t.dev.warp g.core hl.oslot).tdet0 = BitVec.ofNat 64 (hl.d0 % 2 ^ 32) ∧
      (t.dev.warp g.core hl.oslot).tpc = hl.gpc ∧ (t.dev.warp g.core hl.oslot).v = w.v ∧
      (∀ l, l < 32 → hl.olanes.getLsbD l = true →
        ((t.dev.warp g.core hl.oslot).fibre l).pc = (s.dev.ctx g.ctx).trapvec) ∧
      (∀ l, l < 32 → hl.olanes.getLsbD l = false → (t.dev.warp g.core hl.oslot).fibre l = w.fibre l)) ∧
  (∀ (p : Ev.Bad) (s : State), decode p.word = .error .never → s.dev.cur.probe = false → s.dev.cur.stream = false →
    s.dev.curGrp.core = s.dev.cur.core → s.dev.curWarp.levels = [] → s.dev.curCtx.emuvec ≠ 0 →
    s.dev.curWarp.emuctl.toNat % 16 ≤ s.dev.curWarp.nregs / 16 →
    ∃ t, exec (.unassignedEncoding p) s = .next t ∧ t.env = s.env ∧ t.dev.mem = s.dev.mem ∧
      t.dev.curWarp.levels.length = 1 ∧ t.dev.curWarp.emupc = s.dev.cur.gpc ∧ t.dev.curWarp.v = s.dev.curWarp.v ∧
      ∀ l, l < 32 → s.dev.cur.lanes.getLsbD l = true → (t.dev.curWarp.fibre l).pc = s.dev.curCtx.emuvec)

/-- R272 to R277, R279, R282, R287, R299, R306, R315, R322, R325, R326 and R328: the steps of the copy engine and of the
matrix engine.  A chunk's bytes go from memory or the scratch ways to a member's scratch (`CGET`, `CGATH`, `CRING`, and
the first member of a `CMCAST`), from the scratch out (`CPUT` and a `CRING` that puts), or from member to member
(`CMCAST`), and each is counted at the arrival word; one that fails stops its operation. -/
def Obligations.EngineEvents : Prop :=
  Spec.MmaRule ∧ Spec.DrainRule ∧
  (∀ (p : Ev.Chunk) (s : State) (o : CopyOp) (m : CMember) (va : DWord) (so len : Nat) (x : Target) (ads : List ADSet),
    s.dev.choice = [] → chunkReady s.dev p.core p.entry p.member p.chunk = true → p.fail = 0 →
    (s.dev.core p.core).copies.find? p.entry = some o → o.members[p.member]? = some m →
    chunkAddr s.dev o p.chunk = some (va, so, len) → m.direct = true ∨ o.held.find? p.chunk = none →
    resolve s.dev (o.who p.core) va len 0 len (if o.puts = true then .write else .read) 0 = .ok (x, ads) →
    (∃ pa pg, x = .mem pa pg) ∨ (∃ tw key, x = .ring tw key) →
    farErr s.env s.dev (if o.puts = true then .write else .read) x len = none →
    (o.puts = true → Spec.noBindWait s.dev) →
    ∃ t, exec (.chunkComplete p) s = .next t ∧ t.env = s.env ∧
      (o.puts = true ∨ Spec.apart (xAoff o.xfer) so len → Spec.chunkCounted s t p m (xAoff o.xfer) len) ∧
      (o.puts = false → t.dev.mem = (ads.foldl setAD s.dev).mem ∧
        (∀ b, so ≤ b → b < so + len → b < xAoff o.xfer ∨ xAoff o.xfer + 8 ≤ b →
          Memory.read (t.dev.grp m.gid).scratch b = Spec.byteOf (ads.foldl setAD s.dev) x (b - so)) ∧
        ∀ b, b < so ∨ so + len ≤ b → b < xAoff o.xfer ∨ xAoff o.xfer + 8 ≤ b →
          Memory.read (t.dev.grp m.gid).scratch b = Memory.read (s.dev.grp m.gid).scratch b) ∧
      (o.puts = true →
        (∀ k, k < len → Spec.byteOf t.dev x k = Memory.read (s.dev.grp o.gid).scratch (so + k)) ∧
        (∀ pa pg, x = .mem pa pg → ∀ a, a < pa ∨ pa + len ≤ a →
          Memory.read t.dev.mem a = Memory.read (ads.foldl setAD s.dev).mem a) ∧
        ∀ b, b < xAoff o.xfer ∨ xAoff o.xfer + 8 ≤ b →
          Memory.read (t.dev.grp m.gid).scratch b = Memory.read (s.dev.grp m.gid).scratch b)) ∧
  (∀ (p : Ev.Chunk) (s : State) (o : CopyOp) (m : CMember) (va : DWord) (so len v : Nat),
    chunkReady s.dev p.core p.entry p.member p.chunk = true → p.fail = 0 →
    (s.dev.core p.core).copies.find? p.entry = some o → o.func = 4 → o.members[p.member]? = some m → m.direct = false →
    chunkAddr s.dev o p.chunk = some (va, so, len) → o.held.find? p.chunk = some v → Spec.apart (xAoff o.xfer) so len →
    ∃ t, exec (.chunkComplete p) s = .next t ∧ t.env = s.env ∧ t.dev.mem = s.dev.mem ∧
      Spec.chunkCounted s t p m (xAoff o.xfer) len ∧
      (t.dev.grp m.gid).scratch.readN so len = v % 2 ^ (8 * len)) ∧
  (∀ (p : Ev.Chunk) (s : State) (o : CopyOp) (m : CMember) (va tva : DWord) (so len level pte : Nat) (bad : Bool),
    s.dev.choice = [] → chunkReady s.dev p.core p.entry p.member p.chunk = true → p.fail = 0 →
    (s.dev.core p.core).copies.find? p.entry = some o → o.settling = false → o.members[p.member]? = some m →
    chunkAddr s.dev o p.chunk = some (va, so, len) → m.direct = true ∨ o.held.find? p.chunk = none →
    resolve s.dev (o.who p.core) va len 0 len (if o.puts = true then .write else .read) 0 = .error (.xlate bad level pte tva) →
    bad = true ∨ (s.dev.ctx o.ctx).ctxcfg.getLsbD 0 = false →
    ∃ t o', exec (.chunkComplete p) s = .next t ∧ t.env = s.env ∧ t.dev.mem = s.dev.mem ∧
      (t.dev.core p.core).copies.find? p.entry = some o' ∧ o'.settling = true ∧ o'.reason = 1 ∧ o'.members = o.members) ∧
  (∀ (p : Ev.CopyRef) (s : State) (o : CopyOp), (s.dev.core p.core).copies.find? p.entry = some o → o.settling = true →
    settleReady s.dev o = true →
    ∃ t o', exec (.copyFaultSettle p) s = .next t ∧ t.env = s.env ∧ t.dev.mem = s.dev.mem ∧
      (t.dev.core p.core).copies.find? p.entry = some o' ∧ o'.settling = false ∧
      o'.state = (if o.reason = 4 then .cancelled else .faulted) ∧
      t.dev.agenda = s.dev.agenda ++ o.reply.map Ev.Event.commandReply ∧
      ∀ m, o.members = [m] → m.dropped = false → (s.dev.groups.find? m.gid).isSome = true →
        dawFault (scr64 (t.dev.grp m.gid) (xAoff o.xfer)) = true) ∧
  (∀ (p : Ev.GroupRef) (s : State) (g : Group), s.dev.groups.find? p.gid = some g → g.saving = true → g.gang = [] →
    ∃ t, exec (.copyQuiesceTimeout p) s = .next t ∧ t.env = s.env ∧ (t.dev.grp p.gid).killed = true ∧
      (t.dev.grp p.gid).ended = true) ∧
  (∀ (p : Ev.GroupRef) (s : State) (g : Group) (st : Stream) (m : Mop) (rest : List Mop),
    s.dev.groups.find? p.gid = some g → g.stream = some st → st.queue = m :: rest → leaveReady s.dev p.gid = true →
    m.kind = .mma ∨ m.kind = .mzero ∨ m.kind = .mlacc ∨ m.kind = .mdrain ∨ m.kind = .msig →
    ∃ t st' m', exec (.matrixOpDequeue p) s = .next t ∧ t.env = s.env ∧ t.dev.mem = s.dev.mem ∧
      t.dev.warps = s.dev.warps ∧ (t.dev.grp p.gid).stream = some st' ∧ st'.queue = rest ∧ st'.leave = s.dev.colClk (g.core / 2) + 1 ∧
      st'.q = st.q ∧ st'.out.getLast? = some m' ∧ st'.out.map (·.id) = st.out.map (·.id) ++ [m'.id] ∧
      m'.id = (s.dev.col (g.core / 2)).nextId ∧ m'.kind = m.kind ∧ m'.acc = m.acc ∧
      m'.strict = g.mxcfg.getLsbD 0 ∧
      m'.merge = g.mxcfg.getLsbD 1 ∧ m'.policy = g.mxcfg.toNat / 4 % 4 ∧ m'.holde = g.mxcfg.toNat / 16 % 16 ∧
      (m.kind = .mma → st'.out = st.out ++ [m'] ∧
        m'.arriveAt = some (s.dev.colClk (g.core / 2) + qfRows m.qf / 4))) ∧
  (∀ (p : Ev.EngineRef) (s : State) (k : KSlot), (s.dev.col p.col).kennel.find? p.idx = some k → k.deadline ≤ s.dev.colClk p.col →
    ∃ t o, exec (.kennelDeadline p) s = .next t ∧ t.env = s.env ∧ t.dev = { s.dev with cols := t.dev.cols } ∧
      (t.dev.col p.col).kennel.find? p.idx = none ∧
      (t.dev.col p.col).ready.find? (s.dev.col p.col).nextId = some o ∧ o.members = k.members ∧ o.born = s.dev.colClk p.col ∧
      (∀ m ∈ k.members, m.mop.cls ≤ o.cls) ∧ (k.members ≠ [] → ∃ m ∈ k.members, m.mop.cls = o.cls)) ∧
  (∀ (p : Ev.EngineRef) (s : State) (o : EOp) (mask iv : Nat), entryNow s.dev p.col = some (p.idx, o, mask, iv) →
    ∃ t, exec (.engineEntry p) s = .next t ∧ t.env = s.env ∧ t.dev = { s.dev with cols := t.dev.cols } ∧
      (t.dev.col p.col).ready.find? p.idx = none ∧
      (t.dev.col p.col).flying.find? p.idx = some { o with
        layers := mask, resultAt := s.dev.colClk p.col + maskCount mask * iv + 6, again := false, since := 0
        stageAt := s.dev.colClk p.col, stages := maskCount mask, iv := iv } ∧
      (t.dev.col p.col).lastEntry = s.dev.colClk p.col ∧ (t.dev.col p.col).lastI = iv) ∧
  (∀ (p : Ev.EngineRef) (s : State) (o : EOp) (f : Mop), (s.dev.col p.col).flying.find? p.idx = some o →
    o.first = some f → o.resultAt ≤ s.dev.colClk p.col →
    (f.kind = .mzero →
      ∃ t, exec (.matrixResultWrite p) s = .next t ∧ t.env = s.env ∧ t.dev.mem = s.dev.mem ∧
        (t.dev.col p.col).flying.find? p.idx = none ∧
        (∀ k, k < 1024 → (t.dev.core f.core).acc.get (f.acc * 1024 + k) 0 = 0) ∧
        (∀ k, k / 1024 ≠ f.acc → (t.dev.core f.core).acc.get k 0 = (s.dev.core f.core).acc.get k 0) ∧
        (t.dev.core f.core).accTag.get f.acc 0 = f.asid s.dev ∧
        Spec.folded s t f.gid f.id (Spec.foldOf (presentMask s.dev p.col f.policy) f.strict none)) ∧
    (∀ (w : WEntry), f.kind = .mma → (s.dev.col p.col).wbuf.find? f.entry = some w → s.dev.opt 14 = 0 →
      (o.members.map (fun m => (m.mop.core, m.mop.acc))).Nodup →
      (∀ m ∈ o.members, fieldN m.mop.qf 16 5 + m.mop.arows.length ≤ 32) →
      ∃ t, exec (.matrixResultWrite p) s = .next t ∧ t.env = s.env ∧ t.dev.mem = s.dev.mem ∧
        (t.dev.col p.col).flying.find? p.idx = none ∧
        ∀ m ∈ o.members,
          (∀ i j, i < m.mop.arows.length → j < 32 →
            (t.dev.core m.mop.core).acc.get (m.mop.acc * 1024 + (fieldN m.mop.qf 16 5 + i) * 32 + j) 0 =
              mmaElem m.mop w (maskCount o.layers) i j
                (((accTake s.dev m.mop.core m.mop.acc (m.mop.asid s.dev)).core m.mop.core).acc.get
                  (m.mop.acc * 1024 + (fieldN m.mop.qf 16 5 + i) * 32 + j) 0)) ∧
          (o.members = [m] → Spec.folded s t m.mop.gid m.mop.id (Spec.foldOf o.layers f.strict (some 1))))) ∧
  (∀ (p : Ev.EngineRef) (s : State) (w w' : WEntry) (data : Memory), (s.dev.col p.col).wbuf.find? p.idx = some w →
    w.filling = true → w.first = p.idx → w.readyAt ≤ s.dev.colClk p.col → w.settled s.dev = some w' →
    fillRead s.env s.dev w' = .ok data →
    ∃ t, exec (.weightFillComplete p) s = .next t ∧ t.env = s.env ∧ t.dev.mem = s.dev.mem ∧ t.dev.warps = s.dev.warps ∧
      (t.dev.col p.col).wbuf.find? p.idx = some { w with filling := false, data := data }) ∧
  (∀ (p : Ev.DrainRow) (s : State) (m : Mop) (g : Group) (tile : List (Nat × Word)) (x : Target),
    drainReady s.dev p.core p.op p.row = true → outOp s.dev p.core p.op = some m → s.dev.groups.find? m.gid = some g →
    m.tile = some tile → m.qo.getLsbD 6 = false →
    m.rowParts s.dev p.row = some ([(x, 32 * qoSize m.qo)], []) → farErr s.env s.dev .write x (32 * qoSize m.qo) = none →
    (∀ off, x = .scr off → m.qo.getLsbD 47 = false ∨ Spec.apart (qoAoff m.qo) off (32 * qoSize m.qo) →
      ∃ t, exec (.drainRowPerform p) s = .next t ∧ t.env = s.env ∧ t.dev.mem = s.dev.mem ∧
        (∀ j, j < 32 → (t.dev.grp m.gid).scratch.readN (off + qoSize m.qo * j) (qoSize m.qo) =
          ((drainRow m p.row none).1.getD j 0) % 2 ^ (8 * qoSize m.qo)) ∧
        (∀ b, b < off ∨ off + 32 * qoSize m.qo ≤ b →
          m.qo.getLsbD 47 = false ∨ b < qoAoff m.qo ∨ qoAoff m.qo + 8 ≤ b →
          Memory.read (t.dev.grp m.gid).scratch b = Memory.read g.scratch b) ∧
        (m.qo.getLsbD 47 = true → scr64 (t.dev.grp m.gid) (qoAoff m.qo) =
          Spec.arrived (scr64 g (qoAoff m.qo)) (32 * qoSize m.qo))) ∧
    (∀ pa pg, x = .mem pa pg → Spec.noBindWait s.dev →
      ∃ t, exec (.drainRowPerform p) s = .next t ∧ t.env = s.env ∧
        (∀ j, j < 32 → t.dev.mem.readN (pa + qoSize m.qo * j) (qoSize m.qo) =
          ((drainRow m p.row none).1.getD j 0) % 2 ^ (8 * qoSize m.qo)) ∧
        (∀ a, a < pa ∨ pa + 32 * qoSize m.qo ≤ a → Memory.read t.dev.mem a = Memory.read s.dev.mem a) ∧
        (m.qo.getLsbD 47 = false → (t.dev.grp m.gid).scratch = g.scratch) ∧
        (m.qo.getLsbD 47 = true → scr64 (t.dev.grp m.gid) (qoAoff m.qo) =
          Spec.arrived (scr64 g (qoAoff m.qo)) (32 * qoSize m.qo)))) ∧
  (∀ (p : Ev.MopRef) (s : State) (m : Mop) (off : Nat), msigReady s.dev p.core p.op = true →
    outOp s.dev p.core p.op = some m → (s.dev.groups.find? m.gid).isSome = true → off = m.qa.toNat % 2 ^ 19 →
    ∃ t, exec (.msigArrival p) s = .next t ∧ t.env = s.env ∧ t.dev.mem = s.dev.mem ∧
      scr64 (t.dev.grp m.gid) off = Spec.arrived (scr64 (s.dev.grp m.gid) off) 1)

namespace Sys2Proof.Spec

open Sys2Proof.Machine

/-- The tower has made its dispatch of the cycle, and waits for no gang that was cancelled at its limit (R354, R358). -/
def dispatching (d : Dev) (t : Nat) : Dev :=
  d.modTower t (fun w => { w with dispatched := d.now + 1, gangLate := [] })

/-- A group as its save leaves it: its waits moved off the fault buffer, its stream withdrawn, its halt over (R310,
R394). -/
def saveView (d : Dev) (gid : Nat) : Dev :=
  ((withdrawFrames (leaveEntries d gid) gid).modStream gid withdraw).modGrp gid (fun g => { g with
    waits := (g.waits.filter (fun w => w.2.2.bind)).map (fun w => (w.1, Config.fbEntries, w.2.2))
    halt := none, saving := false })

/-- The record of its save: taken while its pins stand (R310, R395). -/
def saveRecord (e : Env) (d : Dev) (gid : Nat) : Memory :=
  recordImage e ((withdrawFrames (leaveEntries d gid) gid).modStream gid (fun st => { withdraw st with pins := st.pins })) gid

/-- A saved group's context is switched in (R393). -/
def switchedIn (d : Dev) (gid : Nat) : Dev :=
  { d with saved := d.saved.map (fun x => if x.gid = gid then { x with group := { x.group with out := false } } else x) }

/-- A warp as its record has it, ready at once (R396, R399). -/
def warpBack (m : Memory) (x : Saved) (i : Nat) (w : Warp) : Warp :=
  (warpLoad m (offAt x.group 0 + i * (6144 + 128 * x.group.shape.regs)) w).rested

end Sys2Proof.Spec

/-- R351 to R354, R358, R360, R365, R393, R394, R399, R400 and R419: the steps of the graph engine and of the
pre-emption of groups. -/
def Obligations.GraphEvents : Prop :=
  (∀ (p : Ev.Tower) (s : State) (c : Cand) (x : Spawned) (core : Nat) (slots : List Nat) (o : Occ),
    dispatchChoice s.dev p.tower = some (.start c core) → c.spawned = some x →
    (occOf s.dev core).place c.shape = some (slots, o) → s.dev.groups.find? s.dev.nextGid = none →
    ∃ t g, exec (.taskDispatch p) s = .next t ∧ t.env = s.env ∧ t.dev.nextGid = s.dev.nextGid + 1 ∧
      (t.dev.tower p.tower).dispatched = s.dev.now + 1 ∧
      t.dev.groups.find? s.dev.nextGid = some g ∧ g.core = core ∧ g.slots = slots ∧ g.task = x.task ∧
      g.taskVa = x.va ∧ g.launch = c.launch ∧ g.scope = x.scope ∧
      (∀ k, k ≠ s.dev.nextGid → t.dev.groups.find? k = s.dev.groups.find? k)) ∧
  (∀ (p : Ev.Tower) (s : State) (c : Cand) (core i : Nat) (slots : List Nat) (o : Occ) (l : Launch),
    dispatchChoice s.dev p.tower = some (.start c core) → c.spawned = none →
    (occOf s.dev core).place c.shape = some (slots, o) → s.dev.groups.find? s.dev.nextGid = none →
    s.dev.launches.find? c.launch = some l → freeRec l 0 8192 = some i →
    (engPiecesOf (Spec.dispatching s.dev p.tower) l.ctx (recVa l i) 64 .write p.tower = none →
      ∃ t, exec (.taskDispatch p) s = .next t ∧ t.env = s.env ∧ t.dev.groups.find? s.dev.nextGid = none ∧
        ∀ l', t.dev.launches.find? c.launch = some l' → l'.aborted = true) ∧
    ((engPiecesOf (Spec.dispatching s.dev p.tower) l.ctx (recVa l i) 64 .write p.tower).isSome = true →
      ∃ t g l', exec (.taskDispatch p) s = .next t ∧ t.env = s.env ∧ t.dev.nextGid = s.dev.nextGid + 1 ∧
        (t.dev.tower p.tower).dispatched = s.dev.now + 1 ∧
        t.dev.groups.find? s.dev.nextGid = some g ∧ g.core = core ∧ g.slots = slots ∧ g.task = tileTask l c ∧
        g.taskVa = recVa l i ∧ g.launch = c.launch ∧ g.scope = 0 ∧ g.ended = false ∧
        t.dev.launches.find? c.launch = some l' ∧ l'.cts.find? c.key = some .running ∧ i ∈ l'.recs ∧
        ∀ r ∈ (l.pass (c.key / 2 ^ 24)).outs, ∀ k, k = r * 2 ^ 24 + c.key % 2 ^ 24 →
          (l.rt k).st = .idle ∨ (l.rt k).st = .freed → (l'.rt k).st = .writing ∧ (l'.rt k).lost = false)) ∧
  (∀ (p : Ev.Tower) (s : State), dispatchChoice s.dev p.tower = none → exec (.taskDispatch p) s = .next s) ∧
  (∀ (p : Ev.Gang) (s : State) (core i : Nat) (g : GangRes),
    (gangMoves s.dev p.tower).find? (fun x => x.1 == p.core) = some (core, i, .next g) →
    i < (s.dev.tower p.tower).gangs.length →
    ∃ t, exec (.gangReservation p) s = .next t ∧ t.env = s.env ∧ t.dev = { s.dev with towers := t.dev.towers } ∧
      (t.dev.tower p.tower).gangs[i]? = some (beginMember s.dev p.tower i g) ∧
      ∀ j, j ≠ i → (t.dev.tower p.tower).gangs[j]? = (s.dev.tower p.tower).gangs[j]?) ∧
  (∀ (p : Ev.Tower) (s : State), ∃ t, exec (.gangReservationTimeout p) s = .next t ∧ t.env = s.env ∧
    t.dev = { s.dev with towers := t.dev.towers } ∧
    (t.dev.tower p.tower).gangs = (s.dev.tower p.tower).gangs.filter (fun g => decide (s.dev.now < g.started + 48))) ∧
  (∀ (p : Ev.GroupRef) (s : State) (g : Group) (k : Nat), s.dev.groups.find? p.gid = some g →
    retireReady s.dev p.gid = true → k ∈ g.gang → k ≠ p.gid → (s.dev.groups.find? k).isSome = true →
    ∃ t, exec (.tileRetire p) s = .next t ∧ t.env = s.env ∧ t.dev.groups.find? p.gid = none ∧
      (∀ j, j ≠ p.gid → t.dev.groups.find? j = s.dev.groups.find? j) ∧ t.dev.launches = s.dev.launches ∧
      ∀ w, w ∈ t.dev.warps ↔ w ∈ s.dev.warps ∧ ¬ (w.2.gid = p.gid ∧ w.1 / 64 = g.core)) ∧
  (∀ (p : Ev.GroupRef) (s : State) (g : Group) (l : Launch) (r ck k j n : Nat), s.dev.groups.find? p.gid = some g →
    retireReady s.dev p.gid = true → g.gang = [] → g.killed = false → g.scope = 0 → g.task.pass ≠ 255 →
    g.task.tx < 2 ^ 12 → g.task.ty < 2 ^ 12 → ck = g.task.pass * 2 ^ 24 + g.task.ty * 2 ^ 12 + g.task.tx →
    s.dev.launches.find? g.launch = some l → l.finished = false → l.aborted = false →
    j ≠ ck → l.cts.find? j = some .running → (l.pass g.task.pass).outs = [r] →
    k = r * 2 ^ 24 + ck % 2 ^ 24 → (l.rt k).st = .writing → (l.rt k).lost = false → ¬ k ∈ l.covers ck →
    l.coverCount ck k = 0 → (l.cts.map (·.1)).Nodup →
    n = l.readers k + decrementsOut s.dev g.launch k →
    ∃ t l', exec (.tileRetire p) s = .next t ∧ t.env = s.env ∧ t.dev.groups.find? p.gid = none ∧
      t.dev.launches.find? g.launch = some l' ∧ l'.cts.find? ck = some .retired ∧ l'.finished = false ∧
      (n = 0 ∧ (l.resD r).transient = true → (l'.rt k).st = .freed) ∧
      (¬ (n = 0 ∧ (l.resD r).transient = true) → (l'.rt k).st = .ready ∧ (l'.rt k).lrc = n) ∧
      ∀ w m, w ≠ ck → l.cts.find? w = some (.waiting m) → l.tileTower w = (l.homeOf k).getD 0 → 0 < l.coverCount w k →
        l'.cts.find? w = some (if m ≤ l.coverCount w k then .released else .waiting (m - l.coverCount w k))) ∧
  (∀ (p : Ev.Mirror) (s : State) (l : Launch), p.seq = (s.dev.tower (1 - p.src)).mirrorIn → s.dev.uciUp = true →
    s.dev.launches.find? p.launch = some l → p.kind = 0 ∨ p.kind = 1 ∨ p.kind = 3 ∨ p.kind = 4 →
    ∃ t l', exec (.ucieMirrorMessage p) s = .next t ∧ t.env = s.env ∧ t.dev.mem = s.dev.mem ∧
      t.dev.launches.find? p.launch = some l' ∧
      (t.dev.tower (1 - p.src)).mirrorIn = ((s.dev.tower (1 - p.src)).mirrorIn + 1) % 2 ^ 32 ∧
      (p.kind = 0 → (l'.rt p.a).seen = true ∧ (l'.rt p.a).st = (l.rt p.a).st) ∧
      (p.kind = 1 → l' = l.lrcDown p.a) ∧
      (p.kind = 3 → l'.classes.get (p.a / 8 * 2 + (1 - p.src)) 8 = p.a % 8) ∧
      (p.kind = 4 → ∀ w, w ∈ l'.parts ↔ w = 1 - p.src ∨ w ∈ l.parts)) ∧
  (∀ (p : Ev.Mirror) (s : State) (turn : Nat), turn = (s.dev.tower (1 - p.src)).mirrorIn →
    (s.dev.uciUp = false ∨ p.seq ≠ turn ∧ (turn + 2 ^ 32 - p.seq) % 2 ^ 32 < 2 ^ 31 →
      exec (.ucieMirrorMessage p) s = .next s) ∧
    (s.dev.uciUp = true → p.seq ≠ turn → 2 ^ 31 ≤ (turn + 2 ^ 32 - p.seq) % 2 ^ 32 →
      ∃ t, exec (.ucieMirrorMessage p) s = .next t ∧
        t = { s with dev := { s.dev with agenda := s.dev.agenda ++ [.ucieMirrorMessage p] } })) ∧
  (∀ (p : Ev.Tower) (s : State) (vs : List (Nat × Group)) (g : Nat) (x : Group),
    (candsOf s.dev p.tower).findSome? (starved s.dev p.tower) = some vs → victimOf s.dev vs = some g →
    s.dev.groups.find? g = some x → x.ended = false →
    ∃ t, exec (.preemptionTimeout p) s = .next t ∧ t.env = s.env ∧ t.dev.mem = s.dev.mem ∧ (t.dev.grp g).saving = true) ∧
  (∀ (p : Ev.Tower) (s : State) (v : Nat × Group) (x : Group), lateRedo s.dev p.tower = some [v] →
    s.dev.groups.find? v.1 = some x → x.ended = false →
    ∃ t, exec (.reexecPlacementTimeout p) s = .next t ∧ t.env = s.env ∧ t.dev.mem = s.dev.mem ∧
      (t.dev.grp v.1).saving = true) ∧
  (∀ (p : Ev.GroupRef) (s : State) (g : Group) (va : DWord) (d : Dev) (ok : Bool),
    s.dev.groups.find? p.gid = some g → saveReady s.dev p.gid = true → g.gang = [] → g.fifo = false →
    va = ((s.dev.ctx g.ctx).savepool &&& 0xFFFFFFFFFFFFF000) + BitVec.ofNat 64
      ((saveBlock (Spec.saveView s.dev p.gid) g.ctx).getD 0 * 65536 * ((s.dev.ctx g.ctx).savecfg.toNat % 2 ^ 16)) →
    storeRecord s.env (Spec.saveView s.dev p.gid) g.ctx va (Spec.saveRecord s.env s.dev p.gid) (offAt g 6) (g.core / 64) =
      (d, ok) →
    ∃ t, exec (.contextSave p) s = .next t ∧ t.env = s.env ∧ t.dev.mem = d.mem ∧
      (ok = true → t.dev.groups.find? p.gid = none ∧
        (∀ w ∈ t.dev.warps, ¬ (w.2.gid = p.gid ∧ w.1 / 64 = g.core)) ∧
        ∃ x ∈ t.dev.saved, x.gid = p.gid ∧ x.ctx = g.ctx ∧ x.va = va ∧ x.at_ = s.dev.now ∧ x.group.task = g.task ∧
          x.group.launch = g.launch ∧ x.warps.length = g.slots.length) ∧
      (ok = false → (t.dev.grp p.gid).killed = true ∧ (t.dev.grp p.gid).ended = true)) ∧
  (∀ (p : Ev.GroupRef) (s : State) (g : Group), s.dev.groups.find? p.gid = some g → saveReady s.dev p.gid = false →
    (g.ended = true ∨ saveFits s.dev p.gid = false → exec (.contextSave p) s = .next s) ∧
    (g.ended = false → saveFits s.dev p.gid = true → ∃ t, exec (.contextSave p) s = .next t ∧ t.env = s.env ∧
      t.dev.mem = s.dev.mem ∧ (t.dev.grp p.gid).saving = true ∧ (t.dev.grp p.gid).out = true)) ∧
  (∀ (p : Ev.GroupRef) (s : State) (d : Dev), d = Spec.switchedIn s.dev p.gid →
    (∀ ps, restoreReady d p.gid = some ps → ∃ t, exec (.contextRestore p) s = .next t ∧ t.env = s.env ∧
      t.dev = restoreAll s.env d ps (ps.any (fun x => d.saved.any (fun s => s.gid == x.1 && isStarved d s)))) ∧
    (restoreReady d p.gid = none → exec (.contextRestore p) s = .next { s with dev := d }) ∧
    ∀ (x : Saved) (core : Nat) (slots : List Nat) (o : Occ) (m : Memory),
      restoreReady d p.gid = some [(p.gid, core)] → d.saved.find? (fun y => y.gid == p.gid) = some x →
      (occOf d core).place x.group.shape = some (slots, o) → (d.col (core / 2)).holders = none → x.holders = none →
      x.group.fifo = false → x.group.stream = none → x.faults = [] →
      (loadRecord s.env d x.ctx x.va (offAt x.group 6) (core / 64)).2 = some m → m.readN 0 2 = 1 →
      slots.length = x.warps.length → slots.Nodup → (∀ k ∈ slots, k < 64) →
      (∀ (i : Nat) (w : Warp), x.warps[i]? = some w → ∀ f ∈ (Spec.warpBack m x i w).fib, f.2.park = .running) →
      ∃ t g, exec (.contextRestore p) s = .next t ∧ t.env = s.env ∧ t.dev.groups.find? p.gid = some g ∧
        g.core = core ∧ g.slots = slots ∧ g.task = x.group.task ∧ g.taskVa = x.group.taskVa ∧
        g.launch = x.group.launch ∧ g.scope = x.group.scope ∧ (∀ y ∈ t.dev.saved, y.gid ≠ p.gid) ∧
        (∀ b, b < x.group.shape.scratch → Memory.read g.scratch b = Memory.read m (offAt x.group 1 + b)) ∧
        ∀ (i k : Nat) (w : Warp), x.warps[i]? = some w → slots[i]? = some k →
          t.dev.warp core k = Spec.warpBack m x i w) ∧
  (∀ (p : Ev.Ctx) (s : State) (x : Saved) (g : Nat) (y : Group), starvedGroup s.dev p.ctx = some x →
    restorePlace s.dev x = none → starveVictim s.dev x = some g → s.dev.groups.find? g = some y → y.ended = false →
    ∃ t, exec (.starvationRestore p) s = .next t ∧ t.env = s.env ∧ t.dev.mem = s.dev.mem ∧ (t.dev.grp g).saving = true) ∧
  (∀ (p : Ev.Queue) (s : State) (ctx n : Nat) (x : Queue) (d : Dev) (got : Option Nat),
    submitReady s.env s.dev p.queue = true → x = s.dev.queue p.queue → ctx = (ctxOfAsid s.dev x.asid).getD 0 →
    n = x.sqhead → physIn s.env s.dev ctx (x.sqbase.toNat + 64 * (n % 2 ^ x.log2sz)) 64 = (d, got) →
    (d.queue p.queue).cqtail = x.cqtail →
    (got = none → ∃ t, exec (.submissionConsume p) s = .next t ∧ t.env = s.env ∧
      t.dev = complete s.env (noteRefused (d.modQueue p.queue (fun x => { x with sqhead := (n + 1) % 2 ^ 32 }))
        (launchOf 0 ctx) 13) p.queue n 1 13 ∧
      (t.dev.queue p.queue).sqhead = (n + 1) % 2 ^ 32 ∧ (t.dev.queue p.queue).cqtail = (x.cqtail + 1) % 2 ^ 32) ∧
    ∀ (v reason : Nat) (l : Launch) (d' : Dev), got = some v →
      d' = d.modQueue p.queue (fun x => { x with sqhead := (n + 1) % 2 ^ 32 }) → loadCheck d' ctx v 0 = (reason, l) →
      ∃ t, exec (.submissionConsume p) s = .next t ∧ t.env = s.env ∧
        (t.dev.queue p.queue).sqhead = (n + 1) % 2 ^ 32 ∧
        (reason ≠ 0 → (t.dev.queue p.queue).cqtail = (x.cqtail + 1) % 2 ^ 32 ∧
          t.dev.launches.map (·.1) = s.dev.launches.map (·.1)) ∧
        (reason = 0 → launchOver (acceptLaunch d' l (some (p.queue, n)) 0 v 0) s.dev.nextLaunch = false →
          (t.dev.queue p.queue).cqtail = (x.cqtail + 1) % 2 ^ 32 ∧ t.dev.nextLaunch = s.dev.nextLaunch + 1 ∧
          ∃ y, t.dev.launches.find? s.dev.nextLaunch = some y ∧ y.graph = l.graph ∧ y.sub = some (p.queue, n)))
namespace Sys2Proof.Spec

open Sys2Proof.Machine

/-- An interface violation (R417): Unsupported Request, an entry of the link error log with its interrupt, and nothing
else; a number that the spec does not give for the entry is a free value (log 44). -/
def Violated (s t : State) (off : Nat) : Prop :=
  t.env = s.env ∧ t.dev = { s.dev with
    linkLog := t.dev.linkLog, free := t.dev.free, hostData := 2 ^ 64 - 1, hostUr := true, msix := t.dev.msix, mem := t.dev.mem } ∧
  (∀ b, b < 0x8000000000000 → Memory.read t.dev.mem b = Memory.read s.dev.mem b) ∧
  t.dev.linkLog.head = (s.dev.linkLog.head + 1) % 32 ∧
  ∃ n, t.dev.linkLog.entries.get s.dev.linkLog.head [] = [BitVec.ofNat 64 (s.env.hb 0), 8, n, BitVec.ofNat 64 off]

/-- Bit `i` of a register after a write of some of its bytes (R13). -/
def regBit (p : Ev.RegWrite) (old : DWord) (i : Nat) : Bool :=
  if 8 * (p.off % 8) ≤ i ∧ i < 8 * (p.off % 8) + 8 * p.size then p.value.getLsbD (i - 8 * (p.off % 8)) else old.getLsbD i

/-- A write of register `o` of eight bytes, whole. -/
def Whole (p : Ev.RegWrite) (o : Nat) : Prop := p.off = o ∧ p.size = 8

/-- Writes of the registers of BAR0 that the host reaches: each under its own access code (R13, R87, R97, R382, R415,
R417, R418, R421, R422, R427, R428, R432, R435, R440). -/
def RegisterWrites : Prop :=
  -- The submission queues.
  (∀ (p : Ev.RegWrite) (s : State) (q : Nat), q < 64 → p.off % 8 + p.size ≤ 8 →
    (p.off / 8 * 8 = 0x100000 + 0x40 * q → ∃ t, exec (.registerWrite p) s = .next t ∧ t.env = s.env ∧
      t.dev = { s.dev with queues := t.dev.queues } ∧ (∀ k, k ≠ q → t.dev.queue k = s.dev.queue k) ∧
      t.dev.queue q = { s.dev.queue q with sqbase := (t.dev.queue q).sqbase } ∧
      ∀ i, i < 64 → (t.dev.queue q).sqbase.getLsbD i = (decide (6 ≤ i) && regBit p (s.dev.queue q).sqbase i)) ∧
    (p.off / 8 * 8 = 0x100018 + 0x40 * q → ∃ t, exec (.registerWrite p) s = .next t ∧ t.env = s.env ∧
      t.dev = { s.dev with queues := t.dev.queues } ∧ (∀ k, k ≠ q → t.dev.queue k = s.dev.queue k) ∧
      t.dev.queue q = { s.dev.queue q with cqbase := (t.dev.queue q).cqbase } ∧
      ∀ i, i < 64 → (t.dev.queue q).cqbase.getLsbD i = (decide (4 ≤ i) && regBit p (s.dev.queue q).cqbase i))) ∧
  (∀ (p : Ev.RegWrite) (s : State) (q n : Nat), q < 64 → Whole p (0x100008 + 0x40 * q) → n = p.value.toNat % 32 →
    ∃ t, exec (.registerWrite p) s = .next t ∧ t.env = s.env ∧ t.dev = { s.dev with queues := t.dev.queues } ∧
      (∀ k, k ≠ q → t.dev.queue k = s.dev.queue k) ∧
      t.dev.queue q = { s.dev.queue q with
        log2sz := if 4 ≤ n ∧ n ≤ 16 then n else 4, enable := p.value.getLsbD 5, remote := p.value.getLsbD 6
        error := (s.dev.queue q).error && !p.value.getLsbD 7, asid := p.value.toNat / 2 ^ 16 % 2 ^ 16 }) ∧
  (∀ (p : Ev.RegWrite) (s : State) (q : Nat), q < 64 → p.off = 0x100020 + 0x40 * q → p.size = 4 →
    ∃ t, exec (.registerWrite p) s = .next t ∧ t.env = s.env ∧ t.dev = { s.dev with queues := t.dev.queues } ∧
      (∀ k, k ≠ q → t.dev.queue k = s.dev.queue k) ∧
      t.dev.queue q = { s.dev.queue q with cqhead := p.value.toNat % 2 ^ 32 }) ∧
  -- The violations.
  (∀ (p : Ev.RegWrite) (s : State) (q : Nat), q < 64 →
    regRead s.env s.dev (p.off / 8 * 8) = none ∨ p.off / 8 * 8 = 0x08 ∨ p.off = 0x100014 + 0x40 * q ∨
      p.off = 0x100024 + 0x40 * q →
    ∃ t, exec (.registerWrite p) s = .next t ∧ Violated s t p.off) ∧
  -- The logs, the heads and MSI-X.
  (∀ (p : Ev.RegWrite) (s : State), Whole p 0x200000 → ∃ t, exec (.registerWrite p) s = .next t ∧ t.env = s.env ∧
    t.dev = { s.dev with linkLog := { s.dev.linkLog with lost := t.dev.linkLog.lost } } ∧
    ∀ i, i < 8 → t.dev.linkLog.lost.testBit i = (s.dev.linkLog.lost.testBit i && !p.value.getLsbD (8 + i))) ∧
  (∀ (p : Ev.RegWrite) (s : State) (h : Nat), h < 4 →
    (Whole p (0x201000 + 0x100 * h) → ∃ t, exec (.registerWrite p) s = .next t ∧ t.env = s.env ∧
      t.dev = { s.dev with heads := t.dev.heads } ∧ t.dev.head h = { s.dev.head h with surf := p.value } ∧
      ∀ k, k ≠ h → t.dev.head k = s.dev.head k) ∧
    (Whole p (0x201010 + 0x100 * h) → ∃ t, exec (.registerWrite p) s = .next t ∧ t.env = s.env ∧
      t.dev = { s.dev with heads := t.dev.heads } ∧
      t.dev.head h = { s.dev.head h with hcfg := p.value &&& 0x1FFFFF } ∧
      ∀ k, k ≠ h → t.dev.head k = s.dev.head k)) ∧
  (∀ (p : Ev.RegWrite) (s : State) (v : Nat) (a c : DWord), v < 72 →
    s.dev.msix.table.get v (0, 0x100000000) = (a, c) →
    (Whole p (0x3FF0000 + 16 * v) → s.dev.msix.pending = [] → ∃ t, exec (.registerWrite p) s = .next t ∧ t.env = s.env ∧
      t.dev = { s.dev with msix := { s.dev.msix with table := s.dev.msix.table.set v (p.value &&& ~~~3#64, c) } }) ∧
    (Whole p (0x3FF0008 + 16 * v) → s.dev.msix.pending = [] ∨ p.value.getLsbD 32 = true →
      ∃ t, exec (.registerWrite p) s = .next t ∧ t.env = s.env ∧
      t.dev = { s.dev with msix := { s.dev.msix with table := s.dev.msix.table.set v (a, p.value &&& 0x1FFFFFFFF) } }) ∧
    (Whole p (0x3FF0008 + 16 * v) → v ∈ s.dev.msix.pending → p.value.getLsbD 32 = false → s.dev.msix.fmask = false →
      ∃ t, exec (.registerWrite p) s = .next t ∧ t.env = s.env ∧ ¬ v ∈ t.dev.msix.pending ∧
        (∀ u, u ≠ v → (u ∈ t.dev.msix.pending ↔ u ∈ s.dev.msix.pending)) ∧
        t.dev.mem.readN (0x8000000000000 + a.toNat) 4 = p.value.toNat % 2 ^ 32)) ∧
  -- The context blocks.
  (∀ (p : Ev.RegWrite) (s : State) (k : Nat), k < 256 → Whole p (0x300000 + 0x100 * k) →
    (ctxIdle s.dev k = false ∨ (p.value.getLsbD 0 = true ∧ ∃ x ∈ s.dev.ctxs, x.1 ≠ k ∧ x.2.valid = true ∧
        x.2.asid = (s.dev.ctx k).asid) → ∃ t, exec (.registerWrite p) s = .next t ∧ Violated s t p.off) ∧
    (ctxIdle s.dev k = true → (p.value.getLsbD 0 = true → ∀ x ∈ s.dev.ctxs, x.1 ≠ k → x.2.valid = true →
        x.2.asid ≠ (s.dev.ctx k).asid) →
      ∃ t, exec (.registerWrite p) s = .next t ∧ t.env = s.env ∧ t.dev = { s.dev with ctxs := t.dev.ctxs } ∧
        t.dev.ctx k = { s.dev.ctx k with valid := p.value.getLsbD 0, sys := p.value.getLsbD 1 } ∧
        ∀ j, j ≠ k → t.dev.ctx j = s.dev.ctx j)) ∧
  (∀ (p : Ev.RegWrite) (s : State) (k r n : Nat), k < 256 → r < 0x70 → r ≠ 0x20 → ctxRegAt r = some n →
    Whole p (0x300000 + 0x100 * k + r) →
    (r = 0x08 ∨ r = 0x10 → ctxIdle s.dev k = false → ∃ t, exec (.registerWrite p) s = .next t ∧ Violated s t p.off) ∧
    (r = 0x58 ∨ r = 0x60 → p.value.toNat % 12 ≠ 0 → ∃ t, exec (.registerWrite p) s = .next t ∧ Violated s t p.off) ∧
    (¬ (r = 0x08 ∨ r = 0x10) ∨ ctxIdle s.dev k = true → ¬ (r = 0x58 ∨ r = 0x60) ∨ p.value.toNat % 12 = 0 →
      ∃ t, exec (.registerWrite p) s = .next t ∧ t.env = s.env ∧ t.dev = { s.dev with ctxs := t.dev.ctxs } ∧
        t.dev.ctx k = ctxSet (s.dev.ctx k) n p.value ∧ ctxGet (t.dev.ctx k) 0 n = p.value &&& ctxMask n ∧
        ∀ j, j ≠ k → t.dev.ctx j = s.dev.ctx j)) ∧
  -- The towers' counts and trap logs.
  (∀ (p : Ev.RegWrite) (s : State) (w : Nat), w < 2 →
    (Whole p (0x1000000 + 0x40000 * w) → ∃ t, exec (.registerWrite p) s = .next t ∧ t.env = s.env ∧
      t.dev = { s.dev with towers := t.dev.towers } ∧
      ∀ i, i < 32 → (t.dev.tower w).fullcnt.testBit i = ((s.dev.tower w).fullcnt.testBit i && !p.value.getLsbD (16 + i))) ∧
    (Whole p (0x1800000 + 0x40000 * w) → ∃ t, exec (.registerWrite p) s = .next t ∧ t.env = s.env ∧
      t.dev = { s.dev with towers := t.dev.towers } ∧ ∀ i, i < 16 →
        (t.dev.tower w).wrerr.testBit i = ((s.dev.tower w).wrerr.testBit i && !p.value.getLsbD (16 + i)) ∧
        (t.dev.tower w).reexec.testBit i = ((s.dev.tower w).reexec.testBit i && !p.value.getLsbD (32 + i)) ∧
        (t.dev.tower w).succerr.testBit i = ((s.dev.tower w).succerr.testBit i && !p.value.getLsbD (48 + i))) ∧
    (Whole p (0x1C00000 + 0x40000 * w) → ∃ t, exec (.registerWrite p) s = .next t ∧ t.env = s.env ∧
      t.dev = { s.dev with towers := t.dev.towers } ∧
      (t.dev.tower w).trapLog = { (s.dev.tower w).trapLog with lost := (t.dev.tower w).trapLog.lost } ∧
      ∀ i, i < 8 → (t.dev.tower w).trapLog.lost.testBit i =
        ((s.dev.tower w).trapLog.lost.testBit i && !p.value.getLsbD (8 + i)))) ∧
  -- The management block.
  (∀ (p : Ev.RegWrite) (s : State), Whole p 0x2000008 → ∃ t, exec (.registerWrite p) s = .next t ∧ t.env = s.env ∧
    t.dev = { s.dev with mgmt := { s.dev.mgmt with
      pwrLim := max 300 (min s.dev.mgmt.pwrMax (p.value.toNat % 1024)), curLim := p.value.toNat / 2 ^ 16 % 1024 } }) ∧
  (∀ (p : Ev.RegWrite) (s : State) (n : Nat), n < 7 → Whole p (0x2000020 + 8 * n) →
    ∃ t, exec (.registerWrite p) s = .next t ∧ t.env = s.env ∧
      t.dev = { s.dev with mgmt := { s.dev.mgmt with warn := s.dev.mgmt.warn.set n (p.value.toNat % 2 ^ 16) } }) ∧
  (∀ (p : Ev.RegWrite) (s : State) (n : Nat), n < 4 → Whole p (0x2001000 + 8 * n) →
    ∃ t, exec (.registerWrite p) s = .next t ∧ t.env = s.env ∧
      t.dev = { s.dev with mgmt := { s.dev.mgmt with nonce := s.dev.mgmt.nonce.set n p.value } }) ∧
  (∀ (p : Ev.RegWrite) (s : State) (k : Nat), k < 256 →
    (∀ i, i < 16 → Whole p (0x2010000 + 0x100 * k + 8 * i) → ∃ t, exec (.registerWrite p) s = .next t ∧ t.env = s.env ∧
      t.dev = { s.dev with mgmt := { s.dev.mgmt with vf := t.dev.mgmt.vf } } ∧ vfpt t.dev k i = p.value &&& 0x0FFF03FF) ∧
    (Whole p (0x2010080 + 0x100 * k) → ∃ t, exec (.registerWrite p) s = .next t ∧ t.env = s.env ∧
      t.dev = { s.dev with mgmt := { s.dev.mgmt with vf := t.dev.mgmt.vf } } ∧
      vfBlock t.dev k = { vfBlock s.dev k with
        ofs := p.value.toNat % 256, pmax := p.value.toNat / 2 ^ 8 % 16, pmin := p.value.toNat / 2 ^ 12 % 16 })) ∧
  (∀ (p : Ev.RegWrite) (s : State), Whole p 0x2030000 → ∃ t, exec (.registerWrite p) s = .next t ∧ t.env = s.env ∧
    t.dev = { s.dev with mgmt := { s.dev.mgmt with
      throttle := { s.dev.mgmt.throttle with lost := t.dev.mgmt.throttle.lost } } } ∧
    ∀ i, i < 8 → t.dev.mgmt.throttle.lost.testBit i =
      (s.dev.mgmt.throttle.lost.testBit i && !p.value.getLsbD (8 + i)))

/-- The host's reads of BAR0, and what reaches the device beside the BARs (R13, R412, R415, R417, R425). -/
def HostReads : Prop :=
  (∀ (p : Ev.HostRead) (s : State), regRead s.env s.dev (p.off / 8 * 8) = none →
    ∃ t, runEvent (.hostRead p) s = .next t ∧ Violated s t p.off) ∧
  (∀ (p : Ev.HostRead) (s : State) (v : DWord), regRead s.env s.dev (p.off / 8 * 8) = some v →
    regClears p.off { idx := 0, off := 0, lo := 8 * (p.off % 8), bits := 8 * p.size } = none →
    ∃ t, runEvent (.hostRead p) s = .next t ∧ t.env = s.env ∧ t.dev.mem = s.dev.mem ∧ t.dev.warps = s.dev.warps ∧
      t.dev.hostUr = false ∧ t.dev.hostData = v.toNat / 2 ^ (8 * (p.off % 8)) % 2 ^ (8 * p.size)) ∧
  ∀ (p : Ev.HostConfig) (s : State),
    (p.kind = 0 → runEvent (.hostConfig p) s = .next { s with dev := { s.dev with bar2 := p.value } }) ∧
    (p.kind = 1 → 28 ≤ p.value.toNat → p.value.toNat ≤ 37 →
      runEvent (.hostConfig p) s = .next { s with dev := { s.dev with bar2Size := p.value.toNat } }) ∧
    (p.kind = 2 → p.value.getLsbD 0 = true → runEvent (.hostConfig p) s =
      .next { s with dev := { s.dev with msix := { s.dev.msix with fmask := true } } }) ∧
    (p.kind = 3 → runEvent (.hostConfig p) s = .next { s with dev := { s.dev with mgmt := { s.dev.mgmt with
      allow := s.dev.mgmt.allow.set (p.idx % 16) (p.value.toNat % 2 ^ 48) } } })

/-- The link carries every byte of `n` at `pa` (R6, R424). -/
def reaches (d : Dev) (pa n : Nat) : Prop := d.uciUp = true ∨ ∀ b, pa ≤ b → b < pa + n → homeTower b = 0

/-- A request that the link has lost (R424, R428): its own entry of the log names its address. -/
def LinkLost (s t : State) (pa n : Nat) : Prop :=
  t.env = s.env ∧ t.dev.warps = s.dev.warps ∧ t.dev.hostUr = true ∧ t.dev.hostData = 2 ^ (8 * n) - 1 ∧
  (∀ b, b < 0x8000000000000 → Memory.read t.dev.mem b = Memory.read s.dev.mem b) ∧
  ∃ k, t.dev.linkLog.entries.get s.dev.linkLog.head [] = [BitVec.ofNat 64 (s.env.hb 0), 33, k, BitVec.ofNat 64 pa]

/-- The device as a frame of Ethernet leaves it: the number expected next of its source, and its acknowledgement
(R425). -/
def ethAt (d : Dev) (p : Ev.Frame) (ack : Bool) : Dev :=
  { d with eth := { d.eth with
      rx := d.eth.rx.set p.src ((p.seq + 1) % 2 ^ 64), acks := if ack then d.eth.acks.set p.src p.seq else d.eth.acks } }

end Sys2Proof.Spec

/-- R13, R98, R106, R366, R412 to R428: what reaches the device from outside the core: registers, submission
queues, BAR2 and AtomicOps, releases of the fault buffers, reads that clear, UCIe, Ethernet and the heads.  What the
request for a line of tower 1 answers while the link is down is the model's choice (log 76), and so are the sequence
numbers that no rule gives (log 44). -/
def Obligations.HostEvents : Prop :=
  Spec.RegisterWrites ∧ Spec.HostReads ∧
  (∀ (p : Ev.Write) (s : State), s.env.attached = true → (s.dev.queue p.idx).enable = true →
    (s.dev.queue p.idx).remote = false →
    (doorbellOk s.dev (s.dev.queue p.idx) (p.value.toNat % 2 ^ 32) = true →
      ∃ t, exec (.sqDoorbell p) s = .next t ∧ t.env = s.env ∧ t.dev = { s.dev with queues := t.dev.queues } ∧
        t.dev.queue p.idx = { s.dev.queue p.idx with sqtail := p.value.toNat % 2 ^ 32 } ∧
        ∀ q, q ≠ p.idx → t.dev.queue q = s.dev.queue q) ∧
    (doorbellOk s.dev (s.dev.queue p.idx) (p.value.toNat % 2 ^ 32) = false →
      ∃ t, exec (.sqDoorbell p) s = .next t ∧ t.env = s.env ∧ t.dev.warps = s.dev.warps ∧
        t.dev.queue p.idx = { s.dev.queue p.idx with error := true } ∧
        (∀ q, q ≠ p.idx → t.dev.queue q = s.dev.queue q) ∧
        t.dev.linkLog.entries.get s.dev.linkLog.head [] = [BitVec.ofNat 64 (s.env.hb 0), 8,
          BitVec.ofNat 64 (s.dev.queue p.idx).sqtail, BitVec.ofNat 64 (0x100010 + 0x40 * p.idx)])) ∧
  (∀ (p : Ev.Write) (s : State), s.env.attached = false ∨ (s.dev.queue p.idx).enable = false ∨
      (s.dev.queue p.idx).remote = true →
    ∃ t, exec (.sqDoorbell p) s = .next t ∧ Spec.Violated s t (0x100010 + 0x40 * p.idx)) ∧
  (∀ (p : Ev.Write) (s : State), p.idx % 8 = 0 →
    ∃ t, exec (.attachWrite p) s = .next t ∧
      t.env = { s.env with proto := p.value.toNat % 256, attached := decide (p.value.toNat % 256 = 1) } ∧
      t.dev.warps = s.dev.warps ∧ (p.value.toNat % 256 = 1 → t.dev = s.dev)) ∧
  (∀ (p : Ev.Write) (s : State), ∃ t, exec (.ctxCsplitWrite p) s = .next t ∧ t.env = s.env ∧ t.dev.mem = s.dev.mem ∧
    t.dev.warps = s.dev.warps ∧
    (t.dev.ctx p.idx).ctxst = BitVec.ofNat 64 (csplit s.dev p.idx 3 (p.value.toNat % 16)).2) ∧
  (∀ (p : Ev.Bar2) (s : State) (pa : Nat), pa = s.dev.bar2.toNat + p.off →
    (p.size = 0 ∨ 2 ^ s.dev.bar2Size < p.off + p.size ∨ inGddr (pa + p.size - 1) = false ∨
        (if p.write then 512 else 4096) < p.size →
      ∃ t, exec (.hostBar2Access p) s = .next t ∧
        t = { s with dev := { s.dev with hostData := 2 ^ (8 * p.size) - 1, hostUr := true } }) ∧
    (0 < p.size → p.off + p.size ≤ 2 ^ s.dev.bar2Size → inGddr (pa + p.size - 1) = true →
      (s.dev.uciUp = false → homeTower pa = 1 → p.size ≤ 512 →
        ∃ t, exec (.hostBar2Access p) s = .next t ∧ Spec.LinkLost s t pa p.size) ∧
      (p.write = true → p.size ≤ 512 → Spec.reaches s.dev pa p.size → Spec.noBindWait s.dev →
        ∃ t, exec (.hostBar2Access p) s = .next t ∧ t.env = s.env ∧ t.dev.warps = s.dev.warps ∧ t.dev.hostUr = false ∧
          ∀ b, Memory.read t.dev.mem b = if pa ≤ b ∧ b < pa + p.size then BitVec.ofNat 8 (p.value / 256 ^ (b - pa))
            else Memory.read s.dev.mem b) ∧
      (p.write = false → p.size ≤ 4096 → Spec.reaches s.dev pa p.size →
        (∀ b, pa ≤ b → b < pa + p.size → readErr s.dev b = none) →
        ∃ t, exec (.hostBar2Access p) s = .next t ∧ t.env = s.env ∧ t.dev.mem = s.dev.mem ∧ t.dev.warps = s.dev.warps ∧
          t.dev.hostUr = false ∧ t.dev.hostData = s.dev.mem.readN pa p.size) ∧
      (∀ x, p.write = false → p.size ≤ 4096 → s.dev.uciUp = true → readErr s.dev pa = some x →
        ∃ t, exec (.hostBar2Access p) s = .next t ∧ t.env = s.env ∧ t.dev.hostUr = true ∧
          t.dev.hostData = 2 ^ (8 * p.size) - 1))) ∧
  (∀ (p : Ev.AtomicOp) (s : State) (pa old : Nat), bar2Addr s.dev p.off p.size = some pa → p.size = 4 ∨ p.size = 8 →
    pa % p.size = 0 → p.op < 3 → readErr s.dev pa = none → old = s.dev.mem.readN pa p.size → Spec.noBindWait s.dev →
    s.dev.uciUp = true ∨ homeTower pa = 0 →
    ∃ t, exec (.hostAtomicop p) s = .next t ∧ t.env = s.env ∧ t.dev.warps = s.dev.warps ∧ t.dev.hostUr = false ∧
      t.dev.hostData = old ∧
      (∀ b, b < pa ∨ pa + p.size ≤ b → Memory.read t.dev.mem b = Memory.read s.dev.mem b) ∧
      t.dev.mem.readN pa p.size =
        (if p.op = 0 then old + p.a.toNat else if p.op = 1 then p.a.toNat
         else if old = p.a.toNat % 2 ^ (8 * p.size) then p.b.toNat else old) % 2 ^ (8 * p.size)) ∧
  (∀ (p : Ev.TowerEntry) (s : State) (x : FbEntry), (s.dev.tower p.tower).fb.find? p.index = some x →
    Spec.quietBuffers s.dev →
    ∃ t, exec (.fbRelease p) s = .next t ∧ t.env = s.env ∧ t.dev.mem = s.dev.mem ∧
      (t.dev.tower p.tower).fb.find? p.index = none ∧
      (∀ k, k ≠ p.index → (t.dev.tower p.tower).fb.find? k = (s.dev.tower p.tower).fb.find? k) ∧
      ∀ c k l b, ((s.dev.warp c k).fibre l).park = .replay p.tower [p.index] b →
        ((t.dev.warp c k).fibre l).park = .running) ∧
  (∀ (p : Ev.Tower) (s : State), Spec.quietBuffers s.dev →
    ∃ t, exec (.fbReleaseAll p) s = .next t ∧ t.env = s.env ∧ t.dev.mem = s.dev.mem ∧ (t.dev.tower p.tower).fb = []) ∧
  (∀ (p : Ev.FbAbort) (s : State) (x : FbEntry), (s.dev.tower p.tower).fb.find? p.index = some x → p.all = false →
    Spec.quietBuffers s.dev →
    ∃ t, exec (.fbAbort p) s = .next t ∧ t.env = s.env ∧ t.dev.mem = s.dev.mem ∧
      (t.dev.tower p.tower).fb.find? p.index = none ∧
      ∀ k, k ≠ p.index → (t.dev.tower p.tower).fb.find? k = (s.dev.tower p.tower).fb.find? k) ∧
  (∀ (p : Ev.TowerEntry) (s : State), ∃ t, exec (.lostLineEntryClear p) s = .next t ∧ t.env = s.env ∧
    t.dev = { s.dev with towers := t.dev.towers } ∧
    ∀ k, (t.dev.tower p.tower).lost.find? k =
      if k = p.index then none else (s.dev.tower p.tower).lost.find? k) ∧
  (∀ (p : Ev.ReadClear) (s : State), p.lo = 0 → p.bits = 64 → p.vec = [] → p.sca = none →
    (∃ t, exec (.flipsRead p) s = .next t ∧ t.env = s.env ∧ t.dev.mem = s.dev.mem ∧ t.dev.warps = s.dev.warps ∧
      t.dev.hostData = ((s.dev.head p.idx).flips + (s.dev.head p.idx).drops * 2 ^ 32) % 2 ^ 64 ∧
      t.dev.head p.idx = { s.dev.head p.idx with flips := 0, drops := 0 }) ∧
    (∃ t, exec (.gddrCounterRead p) s = .next t ∧ t.env = s.env ∧ t.dev.mem = s.dev.mem ∧ t.dev.warps = s.dev.warps ∧
      t.dev.hostData = s.dev.mgmt.gddr.get (p.idx * 8 + p.off / 8) 0 % 2 ^ 64 ∧
      t.dev.mgmt.gddr.get (p.idx * 8 + p.off / 8) 0 = 0) ∧
    (∃ t, exec (.sentinelCounterRead p) s = .next t ∧ t.env = s.env ∧ t.dev.mem = s.dev.mem ∧ t.dev.warps = s.dev.warps ∧
      (p.off = 0 → t.dev.hostData = (s.dev.mgmt.sruns.get p.idx 0 + s.dev.mgmt.sskips.get p.idx 0 * 2 ^ 32) % 2 ^ 64 ∧
        t.dev.mgmt.sruns.get p.idx 0 = 0 ∧ t.dev.mgmt.sskips.get p.idx 0 = 0) ∧
      (p.off ≠ 0 → t.dev.mgmt.sva.get p.idx 0 = 0 ∧ t.dev.mgmt.svb.get p.idx 0 = 0 ∧ t.dev.mgmt.smx.get p.idx 0 = 0))) ∧
  (∀ (s : State), s.dev.uciUp = true → s.dev.choice = [] → (∀ m ∈ lostMessages s.dev, m.cmd = none) →
    ∃ t, exec .ucieLinkDown s = .next t ∧ t.env = s.env ∧ t.dev.uciUp = false ∧ t.dev.warps = s.dev.warps ∧
      (∀ m, ¬ Ev.Event.ucieMirrorMessage m ∈ t.dev.agenda) ∧
      (∀ m, lostMessages s.dev = [m] → ∃ a, t.dev.linkLog.entries.get s.dev.linkLog.head [] =
        [BitVec.ofNat 64 (s.env.hb 0), 33, BitVec.ofNat 64 m.seq, a]) ∧
      ∀ k l, s.dev.launches.find? k = some l → spansTowers l = true → l.finished = false →
        t.dev.launches.find? k = some { l with aborted := true, heard := [0, 1] }) ∧
  (∀ (s : State) (m : Ev.Mirror) (c : Ev.GCmd) (g : Group), s.dev.uciUp = true → s.dev.choice = [] →
    lostMessages s.dev = [m] → m.cmd = some c → s.dev.groups.find? c.gid = some g → g.killed = false → g.gang = [] →
    ∃ t, exec .ucieLinkDown s = .next t ∧ t.env = s.env ∧ t.dev.uciUp = false ∧
      (t.dev.grp c.gid).killed = true ∧ (t.dev.grp c.gid).ended = true) ∧
  (∀ s : State, s.dev.uciUp = false → exec .ucieLinkDown s = .next s) ∧
  (∀ (p : Ev.Frame) (s : State), p.port ≤ 1 → p.version = 1 → p.seq = s.dev.eth.rx.get p.src 0 →
    exec (.ethCompletion p) s = .next { s with dev := Spec.ethAt s.dev p true } ∧
    (∃ t, exec (.ethReadyMessage p) s = .next t ∧ t.env = s.env ∧ t.dev.mem = s.dev.mem ∧ t.dev.warps = s.dev.warps ∧
      t.dev.eth.rx = (Spec.ethAt s.dev p true).eth.rx ∧ t.dev.eth.acks = s.dev.eth.acks.set p.src p.seq ∧
      (∀ k l, s.dev.launches.find? k = some l → l.seq.toNat = p.launch → l.graph.spansCards = true →
        l.card ≠ p.card → l.finished = false → ((t.dev.launch k).rt p.a).st = .ready) ∧
      ((∀ l ∈ s.dev.launches, ¬ (l.2.seq.toNat = p.launch ∧ l.2.graph.spansCards = true ∧ l.2.card ≠ p.card ∧
          l.2.finished = false)) →
        t.dev.launches = s.dev.launches ∧ t.dev.eth.early = s.dev.eth.early ++ [(p.launch, p.a)])) ∧
    ((∀ x ∈ s.dev.mgmt.allow, x.2 ≠ p.src) ∨ p.data.length ≠ 64 →
      ∃ t, exec (.ethLaunchRecord p) s = .next t ∧ t.env = s.env ∧ t.dev.queues = s.dev.queues ∧
        t.dev.warps = s.dev.warps ∧ t.dev.eth = (Spec.ethAt s.dev p true).eth ∧
        (s.dev.uciUp = true → t.dev.linkLog.entries.get s.dev.linkLog.head [] =
          [BitVec.ofNat 64 (s.env.hb 0), BitVec.ofNat 64 (42 + p.port), BitVec.ofNat 64 p.seq, 0])) ∧
    (∃ t, exec (.ethAck p) s = .next t ∧ t.env = s.env ∧ t.dev = { s.dev with eth := t.dev.eth } ∧
      t.dev.eth.rx = (Spec.ethAt s.dev p false).eth.rx ∧ t.dev.eth.acks = s.dev.eth.acks ∧
      (∀ x ∈ t.dev.eth.unacked, ¬ (x.port = p.port ∧ x.seq = p.a)) ∧
      (∀ x ∈ t.dev.eth.unacked, x.port = p.port → x.first = s.dev.now) ∧
      ∀ x, x.port ≠ p.port → (x ∈ t.dev.eth.unacked ↔ x ∈ s.dev.eth.unacked)) ∧
    (∃ t, exec (.ethStreamData p) s = .next t ∧ t.env = s.env ∧
      t.dev = { Spec.ethAt s.dev p true with eth := { (Spec.ethAt s.dev p true).eth with stream := t.dev.eth.stream } } ∧
      t.dev.eth.stream.get p.port [] = s.dev.eth.stream.get p.port [] ++ p.data)) ∧
  (∀ (p : Ev.Frame) (s : State), ¬ (p.port ≤ 1 ∧ p.version = 1 ∧ p.seq = s.dev.eth.rx.get p.src 0) →
    exec (.ethCompletion p) s = .next s ∧ exec (.ethReadyMessage p) s = .next s ∧ exec (.ethLaunchRecord p) s = .next s ∧
    exec (.ethAck p) s = .next s ∧ exec (.ethStreamData p) s = .next s) ∧
  (∀ (p : Ev.Frame) (s : State) (k pa : Nat) (x : Queue), ethNext s.dev p = true → (∃ y ∈ s.dev.mgmt.allow, y.2 = p.src) →
    p.data.length = 64 → s.env.attached = true → s.dev.uciUp = true → Spec.noBindWait s.dev →
    List.find? (fun (y : Nat × Queue) => y.2.remote && y.2.enable && y.2.asid == p.a) s.dev.queues = some (k, x) →
    s.dev.queues.find? k = some x → doorbellOk s.dev x ((x.sqtail + 1) % 2 ^ 32) = true →
    pa = x.sqbase.toNat + 64 * (x.sqtail % 2 ^ x.log2sz) → inAlias pa = false →
    physFail s.env (Spec.ethAt s.dev p true) .write pa 64 = none →
    ∃ t, exec (.ethLaunchRecord p) s = .next t ∧ t.env = s.env ∧ t.dev.warps = s.dev.warps ∧
      t.dev.queue k = { x with sqtail := (x.sqtail + 1) % 2 ^ 32 } ∧
      ∀ b, Memory.read t.dev.mem b = if pa ≤ b ∧ b < pa + 64 then p.data.getD (b - pa) 0 else Memory.read s.dev.mem b) ∧
  (∀ (p : Ev.Port) (s : State), ∃ t, exec (.ethRetransmit p) s = .next t ∧ t.env = s.env ∧
    t.dev = { s.dev with eth := { s.dev.eth with unacked := t.dev.eth.unacked } } ∧
    t.dev.eth.unacked.length = s.dev.eth.unacked.length ∧
    ∀ (i : Nat) (x : EthSent), s.dev.eth.unacked[i]? = some x → t.dev.eth.unacked[i]? = some { x with
      last := if x.port = p.port ∧ x.last + s.dev.ns 100000 ≤ s.dev.now then s.dev.now else x.last }) ∧
  (∀ (p : Ev.Port) (s : State),
    (ethDead s.dev p.port = false → exec (.ethPeerTimeout p) s = .next s) ∧
    (ethDead s.dev p.port = true →
      ∃ t, exec (.ethPeerTimeout p) s = .next t ∧ t.env = s.env ∧
        t.dev.eth.unacked = s.dev.eth.unacked.filter (fun x => !(x.port == p.port)) ∧
        ((∀ l ∈ s.dev.launches, l.2.graph.spansCards = false ∨ l.2.finished = true) → t.dev.launches = s.dev.launches) ∧
        ∀ k l l', s.dev.launches.find? k = some l → l.graph.spansCards = true → l.finished = false →
          t.dev.launches.find? k = some l' → l'.aborted = true)) ∧
  (∀ (p : Ev.Head) (s : State), ∃ t, exec (.vblank p) s = .next t ∧ t.env = s.env ∧
    (t.dev.head p.head = if (s.dev.head p.head).pend = 0 then s.dev.head p.head
      else { s.dev.head p.head with
        surf := (s.dev.head p.head).pend, pend := 0, flips := ((s.dev.head p.head).flips + 1) % 2 ^ 32 }) ∧
    ((s.dev.head p.head).hcfg.getLsbD 20 = false → t.dev = { s.dev with heads := t.dev.heads }))

namespace Sys2Proof.Spec

open Sys2Proof.Machine

/-- The layer that a command of the management core names (R2, R432). -/
def mgLayer (p : Ev.MgOp) : Nat := (p.tower * 32 + p.column) * 8 + p.layer
/-- A command whose fields fit MGCMD. -/
def mgFits (p : Ev.MgOp) : Prop := p.tower < 2 ∧ p.column < 32 ∧ p.layer < 8

/-- R432, R443, R444: what a write of MGCMD starts: RANGE and REFUSED have no effect but their status; each other
command ends by itself or waits for what it orders. -/
def MgCommands : Prop :=
  (∀ (p : Ev.MgOp) (i : Instr) (op : Nat), (i, op) ∈ [(Instr.mgcmdGate p, 1), (Instr.mgcmdUngate p, 2),
      (Instr.mgcmdRetireBus p, 3), (Instr.mgcmdShutdownLayer p, 4)] → ∀ s : State,
    (s.dev.mgmt.busy = true → ∃ t, exec i s = .next t ∧ Violated s t 0x2000018) ∧
    (s.dev.mgmt.busy = false → ∃ t j, exec i s = .next t ∧ t.env = s.env ∧ t.dev.mgmt.busy = true ∧
      t.dev.mgmt.cmd = mgWord op p ∧ t.dev.mgmt.job = some j) ∧
    (s.dev.mgmt.busy = false → mgFits p →
      (op ≠ 4 ∧ enabledCols s.dev p.tower ≤ p.column) ∨ (op ≤ 2 ∧ ¬ (4 ≤ p.layer ∧ p.layer ≤ 6)) ∨
        (3 ≤ op ∧ ¬ (p.layer = 1 ∨ p.layer = 2)) →
      ∃ t k, exec i s = .next t ∧ t.env = s.env ∧
        t.dev = { s.dev with mgmt := { s.dev.mgmt with cmd := mgWord op p, busy := true, job := some (op, k, 1) } })) ∧
  (∀ (p : Ev.MgOp) (s : State) (b lk : Nat), s.dev.mgmt.busy = false → mgFits p → p.column < enabledCols s.dev p.tower →
    4 ≤ p.layer → p.layer ≤ 6 → lk = mgLayer p → b = p.column * 2 + (p.layer - 1) →
    (p.column ∈ (s.dev.tower p.tower).retiring → ∃ t, exec (.mgcmdGate p) s = .next t ∧ t.env = s.env ∧
      t.dev = { s.dev with mgmt := { s.dev.mgmt with cmd := mgWord 1 p, busy := true, job := some (1, lk, 2) } }) ∧
    (¬ p.column ∈ (s.dev.tower p.tower).retiring → lk ∈ s.dev.mgmt.gated → ∃ t, exec (.mgcmdGate p) s = .next t ∧
      t.env = s.env ∧ t.dev.mgmt.gated = s.dev.mgmt.gated ∧ t.dev.mgmt.job = some (0, lk, 0) ∧ jobDone t.dev = true) ∧
    (¬ p.column ∈ (s.dev.tower p.tower).retiring → ¬ lk ∈ s.dev.mgmt.gated → ∃ t, exec (.mgcmdGate p) s = .next t ∧
      t.env = s.env ∧ t.dev.mgmt.job = some (1, lk, 0) ∧ jobDone t.dev = false ∧
      t.dev.mgmt.gating = s.dev.mgmt.gating ++ [{ key := lk, up := false, reply := none }] ∧
      ∀ g ∈ gateGroups s.dev lk, ∀ x, s.dev.groups.find? g = some x → x.ended = false → (t.dev.grp g).saving = true) ∧
    (lk ∈ s.dev.mgmt.heldHot ∨ lk ∈ s.dev.mgmt.failed → ∃ t, exec (.mgcmdUngate p) s = .next t ∧ t.env = s.env ∧
      t.dev = { s.dev with mgmt := { s.dev.mgmt with cmd := mgWord 2 p, busy := true, job := some (2, lk, 2) } }) ∧
    (¬ lk ∈ s.dev.mgmt.heldHot → ¬ lk ∈ s.dev.mgmt.failed →
      ((∃ g ∈ s.dev.mgmt.gating, g.key = lk) → ∃ t, exec (.mgcmdUngate p) s = .next t ∧ t.env = s.env ∧
        t.dev.mgmt.job = some (2, lk, 0) ∧
        t.dev.mgmt.gating = s.dev.mgmt.gating ++ [{ key := lk, up := true, reply := none }]) ∧
      ((∀ g ∈ s.dev.mgmt.gating, g.key ≠ lk) → ¬ lk ∈ s.dev.mgmt.gated → ∃ t, exec (.mgcmdUngate p) s = .next t ∧
        t.env = s.env ∧ t.dev.mgmt.job = some (0, lk, 0) ∧ jobDone t.dev = true) ∧
      ((∀ g ∈ s.dev.mgmt.gating, g.key ≠ lk) → lk ∈ s.dev.mgmt.gated → ∃ t, exec (.mgcmdUngate p) s = .next t ∧
        t.env = s.env ∧ t.dev.mgmt.job = some (2, lk, 0) ∧ ¬ lk ∈ t.dev.mgmt.gated ∧
        (vfBlock t.dev (vfKey lk)).goal.isSome = true ∧
        (p.layer = 4 → (t.dev.core ((p.tower * 32 + p.column) * 2 + 1)).started = 0)))) ∧
  (∀ (p : Ev.MgOp) (s : State), s.dev.mgmt.busy = false → mgFits p → p.layer = 1 ∨ p.layer = 2 →
    (¬ p.layer ∈ (s.dev.tower p.tower).dieOff → ∃ t, exec (.mgcmdShutdownLayer p) s = .next t ∧ t.env = s.env ∧
      t.dev.agenda = s.dev.agenda ++ [.cacheLayerShutdown { tower := p.tower, layer := p.layer }] ∧
      t.dev.mgmt.job = some (4, p.tower * 64 + p.column * 2 + (p.layer - 1), 0)) ∧
    (p.layer ∈ (s.dev.tower p.tower).dieOff → ∃ t k, exec (.mgcmdShutdownLayer p) s = .next t ∧ t.env = s.env ∧
      t.dev = { s.dev with mgmt := { s.dev.mgmt with cmd := mgWord 4 p, busy := true, job := some (4, k, 2) } })) ∧
  (∀ (p : Ev.MgOp) (s : State) (b : Nat), s.dev.mgmt.busy = false → mgFits p → p.layer = 1 ∨ p.layer = 2 →
    p.column < enabledCols s.dev p.tower → b = p.column * 2 + (p.layer - 1) →
    (¬ p.column ∈ (s.dev.tower p.tower).retiring → ¬ p.column ∈ (s.dev.tower p.tower).gone →
      ¬ b ∈ (s.dev.tower p.tower).lostBanks → ∃ t, exec (.mgcmdRetireBus p) s = .next t ∧ t.env = s.env ∧
      (t.dev.tower p.tower).retiring = (s.dev.tower p.tower).retiring ++ [p.column] ∧
      (t.dev.tower p.tower).evac = (s.dev.tower p.tower).evac ++ [b] ∧
      t.dev.mgmt.job = some (3, p.tower * 64 + b, 0) ∧ jobDone t.dev = false) ∧
    (p.column ∈ (s.dev.tower p.tower).retiring ∨ p.column ∈ (s.dev.tower p.tower).gone ∨
        b ∈ (s.dev.tower p.tower).lostBanks → ∃ t k, exec (.mgcmdRetireBus p) s = .next t ∧ t.env = s.env ∧
      t.dev = { s.dev with mgmt := { s.dev.mgmt with cmd := mgWord 3 p, busy := true, job := some (3, k, 2) } }))

end Sys2Proof.Spec

/-- R138, R425, R429 to R444: power, time, management commands, voltage and frequency, sensors and counters.  Which step of
bring-up fails, and of which the self-tests, is the model's choice (log 40); so is the rounding of times to cycles (logs 4,
5). -/
def Obligations.ManagementEvents : Prop :=
  Spec.MgCommands ∧
  (∀ (s : State) (op key st : Nat), jobDone s.dev = true → s.dev.mgmt.job = some (op, key, st) →
    ∃ t, exec .mgcmdComplete s = .next t ∧ t.env = s.env ∧ t.dev.warps = s.dev.warps ∧
      t.dev.mgmt = { s.dev.mgmt with cmdStatus := st, busy := false, job := none }) ∧
  (∀ s : State, jobDone s.dev = false → exec .mgcmdComplete s = .next s) ∧
  (∀ s : State, s.dev.mgmt.attBusy = false → ∃ t, exec .attestationRequest s = .next t ∧ t.env = s.env ∧
    t.dev = { s.dev with mgmt := { s.dev.mgmt with attBusy := true, attNonce := s.dev.mgmt.nonce } }) ∧
  (∀ s : State, s.dev.mgmt.attBusy = true → ∃ t, exec .attestationComplete s = .next t ∧ t.env = s.env ∧
    t.dev.mgmt.attBusy = false ∧ t.dev.mgmt.signed = true ∧ t.dev.mgmt.report.drop 12 = s.dev.mgmt.attNonce) ∧
  (∀ s : State, s.env.step = 0 → s.env.off = false → s.dev.opt 8 = 0 → s.dev.opt 9 = 0 →
    (∀ k, k < 2 → (s.dev.tower k).gone = []) →
    (¬ s.dev.opt 7 ∈ [1, 2, 4, 5] → ∃ t, exec .powerOn s = .next t ∧ t.env = { s.env with step := 5 } ∧
      t.dev.mgmt.identity = true ∧ t.dev.mgmt.en0 = 32 ∧ t.dev.mgmt.en1 = 32) ∧
    (∀ k, k ∈ [1, 2, 4, 5] → s.dev.opt 7 = k → ∃ t, exec .powerOn s = .next t ∧
      t.env = { s.env with step := k - 1, failStep := k, off := true, fault := true } ∧
      (k = 1 → t.dev = s.dev) ∧ (k = 2 → t.dev.mgmt.identity = s.dev.mgmt.identity))) ∧
  (∀ s : State, s.env.step = 0 → s.env.off = false → s.dev.opt 7 = 0 → s.dev.opt 8 = 0 → s.dev.opt 9 = 0 →
    (s.dev.tower 0).gone.length = 32 ∨ (s.dev.tower 1).gone.length = 32 →
    ∃ t, exec .powerOn s = .next t ∧ t.env = { s.env with step := 2, failStep := 3, off := true, fault := true }) ∧
  (∀ s : State, s.env.step = 5 → s.env.off = false → ∃ t, exec .hostReleasesReset s = .next t ∧ t.dev = s.dev ∧
    t.env.step = 9 ∧ t.env.ready = true ∧ t.env.clk.running = true ∧ t.env.clk.hb0 = s.env.clk.hb0 ∧
    t.env.clk.hb1 = s.env.clk.hb1 ∧ t.env.attached = s.env.attached ∧
    t.env.clk.nextTick = s.dev.now + s.dev.ns 25) ∧
  (∀ s : State, s.env.clk.running = true → ∃ t, exec .heartbeatTick s = .next t ∧ t.dev = s.dev ∧
    t.env = { s.env with clk := t.env.clk } ∧ t.env.clk.hb0 = (s.env.clk.hb0 + 1) % 2 ^ 64 ∧
    t.env.clk.hb1 = (s.env.clk.hb1 + 1) % 2 ^ 64 ∧ t.env.clk.ppm = s.env.clk.ppm ∧
    t.env.clk.lastTick = s.dev.now ∧
    (s.env.clk.ppm = 0 → s.env.clk.part = 0 → t.env.clk.nextTick = s.dev.now + 25 * s.dev.rate / 1000)) ∧
  (∀ (p : Ev.TimeSync) (s : State), p.port = 0 → p.locked = true → -200 ≤ p.ppm → p.ppm ≤ 200 →
    ∃ t, exec (.timeSync p) s = .next t ∧ t.env.locked = true ∧ t.env.clk = { s.env.clk with ppm := p.ppm } ∧
      t.dev = { s.dev with eth := t.dev.eth } ∧ t.dev.eth.grandmaster.testBit 0 = true) ∧
  (∀ s : State, ∃ t, exec .vfControlTick s = .next t ∧ t.env = s.env ∧ t.dev.warps = s.dev.warps ∧
    t.dev.mgmt.vfNext = s.dev.now + s.dev.ns 100000) ∧
  (∀ (p : Ev.Layer) (s : State) (key pt mv mhz : Nat), p.tower < 2 → p.column < 32 → 3 ≤ p.layer → p.layer ≤ 6 →
    key = (p.tower * 32 + p.column) * 4 + (p.layer - 3) → (vfBlock s.dev key).goal = some (pt, mv, mhz) →
    ∃ t, exec (.vfTransitionComplete p) s = .next t ∧ t.env = s.env ∧ t.dev.warps = s.dev.warps ∧ t.dev.mem = s.dev.mem ∧
      vfBlock t.dev key = { vfBlock s.dev key with point := pt, mv := mv, mhz := mhz, goal := none }) ∧
  (∀ (p : Ev.Sensors) (s : State), p.temps = [] → ∃ t, exec (.sensorSample p) s = .next t ∧ t.env = s.env ∧
    t.dev.warps = s.dev.warps ∧ t.dev.mgmt.pwr = p.power % 1024 ∧ t.dev.mgmt.cur = p.current % 1024 ∧
    t.dev.mgmt.temps = s.dev.mgmt.temps) ∧
  (∀ (p : Ev.Sensors) (s : State) (k c : Nat), p.temps = [(k * 7 + 3, c)] → k < 64 →
    (BitVec.ofNat 16 c).toInt < critOf s.dev 3 → ∃ t, exec (.sensorSample p) s = .next t ∧ t.env = s.env ∧
      t.dev.warps = s.dev.warps ∧ tempOf t.dev (k * 8 + 3) = (BitVec.ofNat 16 c).toInt) ∧
  (∀ (p : Ev.Sensors) (s : State) (k code c lk : Nat), p.temps = [(k * 7 + code, c)] → k < 64 → code < 7 →
    lk = k * 8 + code → critOf s.dev code ≤ (BitVec.ofNat 16 c).toInt → warnOf s.dev code ≤ critOf s.dev code →
    ∃ t, exec (.sensorSample p) s = .next t ∧ t.env = s.env ∧ tempOf t.dev lk = (BitVec.ofNat 16 c).toInt ∧
      (code = 1 ∨ code = 2 → ¬ code ∈ (s.dev.tower (k / 32)).dieOff → s.dev.agenda = [] →
        t.dev.agenda = [.cacheLayerShutdown { tower := k / 32, layer := code }]) ∧
      (4 ≤ code → lk ∈ t.dev.mgmt.heldHot ∧
        (¬ lk ∈ s.dev.mgmt.heldHot → ¬ lk ∈ s.dev.mgmt.gated → (∀ g ∈ s.dev.mgmt.gating, g.key ≠ lk) →
          { key := lk, up := false, reply := none } ∈ t.dev.mgmt.gating)) ∧
      (code = 0 ∨ code = 3 → s.dev.mgmt.hot.find? (k / 32) = none →
        t.dev.mgmt.hot.find? (k / 32) = some s.dev.now ∧
        ∀ x ∈ logicLayers s.dev, x / 256 = k / 32 → ¬ x ∈ s.dev.mgmt.gated → (vfBlock s.dev (vfKey x)).goal = none →
          (vfBlock s.dev (vfKey x)).point ≠ 0 →
          ∃ mv mhz, (vfBlock t.dev (vfKey x)).goal = some (0, mv, mhz))) ∧
  (∀ (p : Ev.Sensors) (s : State) (k code c lk : Nat), p.temps = [(k * 7 + code, c)] → k < 64 → 4 ≤ code → code < 7 →
    lk = k * 8 + code → (BitVec.ofNat 16 c).toInt + 40 ≤ warnOf s.dev code → warnOf s.dev code ≤ critOf s.dev code →
    lk ∈ s.dev.mgmt.heldHot → lk ∈ s.dev.mgmt.hotGated → lk ∈ s.dev.mgmt.gated → ¬ lk ∈ s.dev.mgmt.failed →
    (∀ g ∈ s.dev.mgmt.gating, g.key ≠ lk) →
    ∃ t, exec (.sensorSample p) s = .next t ∧ t.env = s.env ∧ ¬ lk ∈ t.dev.mgmt.heldHot ∧ ¬ lk ∈ t.dev.mgmt.gated) ∧
  (∀ (p : Ev.Tower) (s : State), tooHot s.dev p.tower = true →
    ∃ t, exec (.thermalPowerDown p) s = .next t ∧ t.env = { s.env with off := true }) ∧
  (∀ (p : Ev.Tower) (s : State), tooHot s.dev p.tower = false → exec (.thermalPowerDown p) s = .next s) ∧
  (∀ (p : Ev.Sentinel) (s : State) (k : Nat), p.bad = [] → p.skipped = [] → k < 64 →
    ¬ k % 32 ∈ (s.dev.tower (k / 32)).gone →
    ∃ t, exec (.sentinelRun p) s = .next t ∧ t.env = s.env ∧ t.dev = { s.dev with mgmt := t.dev.mgmt } ∧
      t.dev.mgmt.sruns.get k 0 = (s.dev.mgmt.sruns.get k 0 + 1) % 2 ^ 32 ∧ t.dev.mgmt.sskips = s.dev.mgmt.sskips) ∧
  (∀ (p : Ev.Sentinel) (s : State) (k u : Nat), p.bad = [(k, u)] → p.skipped = [] → k < 64 → u < 6 →
    ¬ k % 32 ∈ (s.dev.tower (k / 32)).gone →
    ∃ t, exec (.sentinelRun p) s = .next t ∧ t.env = s.env ∧
      (u = 0 → t.dev.mgmt.sva.get k 0 = (s.dev.mgmt.sva.get k 0 + 1) % 2 ^ 16) ∧
      (u = 1 → t.dev.mgmt.svb.get k 0 = (s.dev.mgmt.svb.get k 0 + 1) % 2 ^ 16) ∧
      (2 ≤ u → t.dev.mgmt.smx.get k 0 = (s.dev.mgmt.smx.get k 0 + 1) % 2 ^ 16) ∧
      (2 ≤ u → 15 ≤ ((s.dev.mgmt.smiss.get (k * 8 + (1 + u)) []).filter
          (fun c => decide (s.dev.now < c + s.dev.ns 1000000000))).length → k * 8 + (1 + u) ∈ t.dev.mgmt.failed)) ∧
  (∀ (p : Ev.GddrError) (s : State), p.kind < 4 → p.uncorrectable = false →
    (p.channel ≠ gddrChannel (p.line * 128) → exec (.gddrTransferError p) s = .next s) ∧
    (p.channel = gddrChannel (p.line * 128) → ∃ t, exec (.gddrTransferError p) s = .next t ∧ t.env = s.env ∧ t.dev.mem = s.dev.mem ∧ t.dev.warps = s.dev.warps ∧
      t.dev.mgmt.gddr.get (p.channel * 8 + p.kind) 0 =
        min 0xFFFFFFFF (s.dev.mgmt.gddr.get (p.channel * 8 + p.kind) 0 + 1)))

/-- R111, R112, R115 to R117 and R4: the loop fabric, the cache dies, and the removal of a column. -/
def Obligations.CacheEvents : Prop :=
  (∀ (p : Ev.Bank) (s : State), ∃ t, exec (.readCountWindow p) s = .next t ∧ t.env = s.env ∧
    t.dev = { s.dev with towers := t.dev.towers } ∧
    ∀ l x, (s.dev.tower (p.bank / 64)).lines.find? l = some x →
      (t.dev.tower (p.bank / 64)).lines.find? l =
        some (if (s.dev.tower (p.bank / 64)).bankOf l = p.bank % 64 then { x with reads := 0 } else x)) ∧
  (∀ (p : Ev.Line) (s : State) (x : LineMeta) (w bank : Nat → Nat),
    (s.dev.tower (p.bank / 64)).lines.find? p.line = some x → (s.dev.tower (p.bank / 64)).bankOf p.line = p.bank % 64 →
    x.ro = true → 256 ≤ x.reads → x.replicas = [] →
    (∀ n, bank n = (p.bank % 64 / 2 + 8 * (n + 1)) % 32 * 2 + p.bank % 2) →
    (∀ n, n < 3 → (s.dev.tower (p.bank / 64)).place (bank n) = some (s.dev.tower (p.bank / 64), w n)) →
    ∃ t, exec (.lineReplication p) s = .next t ∧ t.env = s.env ∧ t.dev = { s.dev with towers := t.dev.towers } ∧
      (t.dev.tower (p.bank / 64)).lines.find? p.line = some { x with
        replicas := [(bank 0, w 0), (bank 1, w 1), (bank 2, w 2)] }) ∧
  (∀ (p : Ev.Station) (s : State), (s.dev.tower (p.bank / 64)).portIdle.get (p.bank % 64) 0 + 4096 ≤ s.dev.now →
    ∃ t, exec (.loopPortPowerDown p) s = .next t ∧ t.env = s.env ∧ t.dev = { s.dev with towers := t.dev.towers } ∧
      p.bank % 64 ∈ (t.dev.tower (p.bank / 64)).portDown) ∧
  (∀ (p : Ev.Station) (s : State) (c : Nat), (s.dev.tower (p.bank / 64)).portWait.find? (p.bank % 64) = some c →
    c + 32 ≤ s.dev.now →
    ∃ t, exec (.loopPortWake p) s = .next t ∧ t.env = s.env ∧ t.dev = { s.dev with towers := t.dev.towers } ∧
      ¬ p.bank % 64 ∈ (t.dev.tower (p.bank / 64)).portDown ∧
      (t.dev.tower (p.bank / 64)).portWait.find? (p.bank % 64) = none) ∧
  (∀ (p : Ev.Die) (s : State), ∃ t, exec (.dirtyBudgetWriteback p) s = .next t ∧ t.env = s.env ∧
    t.dev = { s.dev with towers := t.dev.towers } ∧
    ((t.dev.tower p.tower).dirtyOn (p.layer - 1)).length ≤ dirtyBudget s.dev p.tower (p.layer - 1)) ∧
  (∀ (p : Ev.Die) (s : State), p.tower < 2 → p.layer = 1 ∨ p.layer = 2 → ¬ p.layer ∈ (s.dev.tower p.tower).dieOff →
    s.dev.launches = [] → s.dev.choice = [] →
    ∃ t, exec (.cacheLayerShutdown p) s = .next t ∧ t.env = s.env ∧ t.dev.warps = s.dev.warps ∧
      (t.dev.tower p.tower).dieOff = (s.dev.tower p.tower).dieOff ++ [p.layer] ∧
      (t.dev.tower p.tower).lines = ((s.dev.tower p.tower).lines.filter (fun l =>
        !((s.dev.tower p.tower).bankOf l.1 % 2 == p.layer - 1))).map (fun l =>
          (l.1, { l.2 with replicas := l.2.replicas.filter (fun r => !(r.1 % 2 == p.layer - 1)) })) ∧
      (¬ (3 - p.layer) ∈ (s.dev.tower p.tower).dieOff → (t.dev.tower p.tower).homes =
        (s.dev.tower p.tower).homes.map (fun b => if b % 2 = p.layer - 1 then b / 2 * 2 + (2 - p.layer) else b))) ∧
  (∀ (p : Ev.Bank) (s : State), p.bank % 64 ∈ (s.dev.tower (p.bank / 64)).evac → s.dev.agenda = [] →
    s.dev.launches = [] →
    ∃ t, exec (.busEvacuation p) s = .next t ∧ t.env = s.env ∧ t.dev.warps = s.dev.warps ∧
      ¬ p.bank % 64 ∈ (t.dev.tower (p.bank / 64)).evac ∧
      (0 < (s.dev.tower (p.bank / 64)).spares →
        (t.dev.tower (p.bank / 64)).spares = (s.dev.tower (p.bank / 64)).spares - 1 ∧
        (t.dev.tower (p.bank / 64)).homes = (s.dev.tower (p.bank / 64)).homes) ∧
      ((s.dev.tower (p.bank / 64)).spares = 0 →
        p.bank % 64 ∈ (t.dev.tower (p.bank / 64)).lostBanks)) ∧
  (∀ (p : Ev.Column) (s : State), removalReady s.dev p.tower p.column = true → p.tower < 2 →
    ∃ t, exec (.columnRemoval p) s = .next t ∧ t.env = s.env ∧ t.dev.mem = s.dev.mem ∧ t.dev.warps = s.dev.warps ∧
      ¬ p.column ∈ (t.dev.tower p.tower).retiring ∧
      (¬ p.column ∈ (s.dev.tower p.tower).respare →
        (t.dev.tower p.tower).gone = (s.dev.tower p.tower).gone ++ [p.column] ∧
        t.dev.mgmt.en0 = (if p.tower = 0 then s.dev.mgmt.en0 - 1 else s.dev.mgmt.en0) ∧
        t.dev.mgmt.en1 = (if p.tower = 1 then s.dev.mgmt.en1 - 1 else s.dev.mgmt.en1)))

namespace Sys2Proof.Spec

open Sys2Proof.Machine

/-- An instruction word, as against an event: it has an encoding. -/
def IsWord (i : Instr) : Prop := (encode i).isSome = true

/-- What the environment keeps at every moment: bring-up stands at a step from 0 to 5 or is complete, a failed
step is the one after the last completed and leaves the package off with its fault output asserted (R429, R432); READY says that step 9 was reached,
and from then on the heartbeat runs; the towers' heartbeats agree and are 64 bits wide (R138); the correction is at
most 200 ppm either way (R425); ATTACHED says that protocol 1 was chosen (R416). -/
def EnvOk (e : Env) : Prop :=
  (e.step ≤ 5 ∨ e.step = 9) ∧ (e.failStep ≠ 0 → e.off = true ∧ e.failStep = e.step + 1) ∧ (e.fault = true ↔ e.failStep ≠ 0) ∧
    (e.ready = true ↔ e.step = 9) ∧ (e.clk.running = true ↔ e.ready = true) ∧
    e.clk.hb0 = e.clk.hb1 ∧ e.clk.hb0 < 2 ^ 64 ∧ -200 ≤ e.clk.ppm ∧ e.clk.ppm ≤ 200 ∧
    (e.attached = true ↔ e.proto = 1) ∧ e.proto < 256

/-- The state as a step numbers it before it does anything; a dispatch that the queues no longer allow has lapsed
(R373). -/
def ticked (s : State) : State := { s with dev := lapse { s.dev with tick := s.dev.tick + 1 } }

/-- The words of a group run one after another, each reading the registers as the group found them (R51); the
register steps that a word starts follow it. -/
inductive GroupRuns (c : Issue) : List GWord → State → State → Prop where
  | done (s : State) : GroupRuns c [] s s
  | word (g : GWord) (r : List GWord) (i : Instr) (s t v u : State) :
    decode g.word = .ok i → exec i (s.issuing (c.at_ g)) = .next t →
      drainRegs s.dev.agenda.length 256 t = .next v → GroupRuns c r v u → GroupRuns c (g :: r) s u

/-- What a step has become once the word that issues in `s` has taken effect as `t`: `t` itself, or where the word has
started steps of registers, what those make of it, in their order. -/
def AfterWord (s t : State) (x : Host.Outcome State Fault Refusal) : Prop :=
  x = drainRegs s.dev.agenda.length 256 t ∧
    ((∀ ev ∈ t.dev.agenda.drop s.dev.agenda.length, isRegStep ev = false) → x = .next t)

/-- What a step has become once an event that found `s` has taken effect as `t`: a retirement ends the cycle's arrivals
(R353); any other event is followed by the register steps that it starts, if any, and by nothing else. -/
def AfterEvent (s t : State) (ev : Ev.Event) (x : Host.Outcome State Fault Refusal) : Prop :=
  ((∃ p, ev = .tileRetire p) → x = .next { t with dev := { t.dev with swept := true } }) ∧
    ((∀ p, ev ≠ .tileRetire p) → AfterWord s t x)

end Sys2Proof.Spec

open Sys2Proof Sys2Proof.Machine in
/-- Decode and encode agree over every instruction word and every operand (R45 to R72): the word of a well-formed
instruction decodes to it, but for the two words that are never an instruction (R72); and a word decodes only to
an instruction whose encoding it is and that breaks no static rule. -/
def Obligations.DecodeEncode : Prop :=
  (∀ (i : Instr) (w : Word), encode i = some w → i.check = none → w ≠ 0 → w ≠ 0xFFFFFFFF → decode w = .ok i) ∧
  (∀ (i : Instr) (w : Word), decode w = .ok i → encode i = some w ∧ i.check = none) ∧
  (∀ (i j : Instr) (w : Word), decode w = .ok i → encode j = some w → j = i)

open Sys2Proof Sys2Proof.Machine in
/-- Words written out from the encodings of R45 to R72 decode to the instructions they stand for, and the words
that are none are rejected by name. -/
def Obligations.DecodeWords : Prop :=
  decode 0x09808000#32 = .ok (.vlaneid { c := 0, d := 1 }) ∧
  decode 0x05080201#32 = .ok (.vcmpi { c := 0, p := 2, k := 0, a := 2, i := 1 }) ∧
  decode 0x73849E37#32 = .ok (.sli { c := 0, d := 4, i := 0x9E37 }) ∧
  decode 0x73C479B9#32 = .ok (.slih { c := 0, d := 4, i := 0x79B9 }) ∧
  decode 0#32 = .error .never ∧ decode 0xFFFFFFFF#32 = .error .never ∧
  decode 0x60000000#32 = .error .pfxWord ∧ decode 0xC0000000#32 = .error .chain4 ∧
  (∀ w : Word, pick w = none → fieldN w 28 3 < 4 → w ≠ 0 → w ≠ 0xFFFFFFFF → decode w = .error (.emulate 1))

open Sys2Proof Sys2Proof.Machine in
/-- What the package holds right after its supply rises, where the spec gives a reset value: registers of BAR0 by
their offsets (R87, R97, R302, R372, R382, R390, R391, R393, R416, R418, R421, R426, R432, R435, R438, R441, R442).
Memory is in its canonical form with nothing listed (log 2), and the first thing to happen is `POWER_ON`. -/
def Obligations.ResetValues : Prop :=
  let e := State.reset.env
  let d := State.reset.dev
  Spec.EnvOk e ∧ e.off = false ∧ e.step = 0 ∧ MemoryOk State.reset ∧ d.mem = [] ∧
  d.agenda = [.powerOn] ∧ d.warps = [] ∧ d.groups = [] ∧
  (∀ t : Nat, e.hb t = 0) ∧
  regRead e d 0x08 = some 0x01000101 ∧ regRead e d 0x10 = some 0 ∧
  (∀ q : Nat, q < 64 → ∀ r ∈ [0x00, 0x10, 0x18, 0x20], regRead e d (0x100000 + 0x40 * q + r) = some 0) ∧
  (∀ q : Nat, q < 64 → regRead e d (0x100000 + 0x40 * q + 8) = some 4) ∧
  (∀ h : Nat, h < 4 → ∀ r ∈ [0x00, 0x08, 0x10, 0x18], regRead e d (0x201000 + 0x100 * h + r) = some 0) ∧
  (∀ k : Nat, k < 256 → regRead e d (0x300000 + 0x100 * k) = some 4 ∧
    regRead e d (0x300000 + 0x100 * k + 0x28) = some 1 ∧
    ∀ r ∈ [0x08, 0x10, 0x18, 0x20, 0x30, 0x38, 0x40, 0x48, 0x50, 0x58, 0x60, 0x68],
      regRead e d (0x300000 + 0x100 * k + r) = some 0) ∧
  regRead e d 0x200000 = some 0 ∧
  (∀ t : Nat, t < 2 → ∀ b ∈ [0x1000000, 0x1800000, 0x1800008, 0x1C00000], regRead e d (b + 0x40000 * t) = some 0) ∧
  regRead e d 0x2000000 = some 0 ∧ regRead e d 0x2000008 = some (BitVec.ofNat 64 (500 + 400 * 2 ^ 16 + 680 * 2 ^ 32)) ∧
  regRead e d 0x2000010 = some 0 ∧ regRead e d 0x2000018 = some 0 ∧
  (∀ n : Nat, n < 7 → regRead e d (0x2000020 + 8 * n) = some (BitVec.ofNat 64 (0x02F8 + 0x0348 * 2 ^ 16))) ∧
  (∀ k : Nat, k < 256 →
    regRead e d (0x2010080 + 0x100 * k) = some (BitVec.ofNat 64 (15 * 2 ^ 8)) ∧
    regRead e d (0x2010088 + 0x100 * k) = some (BitVec.ofNat 64 (480 + 3400 * 2 ^ 16)) ∧
    regRead e d (0x2010090 + 0x100 * k) = some 0) ∧
  (∀ k : Nat, k < 64 → ∀ l : Nat, l < 7 → regRead e d (0x2020000 + (k * 8 + l) * 8) = some 0) ∧
  (∀ g : Nat, g < 64 → ∀ c : Nat, c < 5 → regRead e d (0x2040000 + 0x100 * g + 8 * c) = some 0) ∧
  (∀ k : Nat, k < 64 → ∀ r ∈ [0x00, 0x08, 0x10, 0x18], regRead e d (0x2050000 + 0x40 * k + r) = some 0)

open Sys2Proof Sys2Proof.Machine in
/-- The warps and the stream of a starting group (R153, R161, R162, R204, R206): every lane holds a live fibre at the
entry with window base 0, an empty window stack and p1 to p15 zero; every vector, scalar and join register is zero;
`RMODE`, `WCTL` and `WATCHDOG` hold 001, PROGRESS with FAIRE 4, and LIMIT 64, and the other warp registers zero. -/
def Obligations.GroupStart : Prop :=
  (∀ (gid i : Nat) (sh : Shape) (entry : DWord),
    let w := startWarp gid i sh entry
    w.gid = gid ∧ w.idx = i ∧ w.nregs = sh.regs ∧ (w.copy = true ↔ i < sh.copies) ∧
    (∀ l : Nat, l < 32 → (w.fibre l).live = true ∧ (w.fibre l).pc = entry ∧ (w.fibre l).base = 0 ∧
      (w.fibre l).depth = 0 ∧ (w.fibre l).park = .running ∧ ∀ p : Nat, p < 16 → (w.fibre l).pred p = (p == 0)) ∧
    (∀ r l : Nat, w.phys r l = 0) ∧ (∀ n : Nat, w.sr n = 0) ∧ (∀ j : Nat, w.jm j = 0) ∧
    w.rmode = 1 ∧ w.dseed = 0 ∧ w.partn = 0 ∧ w.wctl = 0x41 ∧ w.watchdog = 64 ∧ w.wflags = 0 ∧
    w.tcause = 0 ∧ w.tdet0 = 0 ∧ w.tdet1 = 0 ∧ w.tdet2 = 0 ∧ w.tpc = 0 ∧ w.tskid = 0 ∧
    w.emupc = 0 ∧ w.emumask = 0 ∧ w.emudepth = 0 ∧ w.emuctl = 0 ∧ w.pidx = 0 ∧ w.walkers = [] ∧ w.levels = []) ∧
  (∀ (d : Dev) (gid core : Nat) (g : Group), ((occOf d core).place g.shape).isSome = true →
    let x := (startGroup d gid core g).grp gid
    (∀ k slot : Nat, x.slots[k]? = some slot →
      (startGroup d gid core g).warp core slot = startWarp gid k g.shape g.task.entry) ∧
    x.slots.length = g.shape.warps ∧ x.core = core ∧ x.seq = (d.core core).started ∧ ((startGroup d gid core g).core core).started = (d.core core).started + 1 ∧
    (g.shape.stream = true → ∃ st : Stream, x.stream = some st ∧ st.pc = g.shape.scode ∧ st.cls = g.task.cls ∧
      st.q = [] ∧ st.queue = [] ∧ st.out = [] ∧ st.pins = [] ∧ st.fold = 0 ∧ st.opseq = 0 ∧ st.ended = false)) ∧
  (∀ (e : Env) (d : Dev), d.opW.idx < 32 → (sregRead e d 0x01).getLsbD 5 = d.opW.copy)

open Sys2Proof Sys2Proof.Machine in
/-- Every step keeps what `EnvOk` says, whatever it does: a word, an event or the end of a cycle. -/
def Obligations.EnvInvariant : Prop :=
  ∀ s t : State, Spec.EnvOk s.env → step s = .next t → Spec.EnvOk t.env

open Sys2Proof Sys2Proof.Machine in
/-- No step of a package that is on stops: every instruction has a next state in every state, a word leaves the
heartbeat, bring-up and attachment as they are, and only a package that is off steps no further (R429, R439). -/
def Obligations.EveryStepGoesOn : Prop :=
  (∀ (i : Instr) (s : State), ∃ t : State, exec i s = .next t ∧ (Spec.IsWord i → t.env = s.env)) ∧
  (∀ s : State, s.env.off = false → ∃ t : State, step s = .next t) ∧
  (∀ s : State, s.env.off = true → step s = .fault .packageOff)

open Sys2Proof Sys2Proof.Machine in
/-- A step runs the decoded instruction.  A batch's group of one word: `step` is `exec` of the instruction that the
word decodes to, in the state in which the group has been fetched and counted and its lanes' PC stands at the group
that follows (R46, R52, R157), with the register steps that the word starts.  A group of several words: a `FENCE.SC`
ahead of the others issues alone, and the group will leave it out (R139); otherwise each word in turn, reading the
registers as the group found them (R51), in address order where none of them reads or writes a special register.  A
stream's word the same (R53).  A group that raises has the effect of what it raises alone (R72, R376).  An event takes
effect as its own meaning says, but that a host access to a block of tower 1 is lost with the link (R6, R424; log 76);
`TRETIRE`s take effect in their place (R353); and a cycle in which nothing is left to do ends. -/
def Obligations.StepRunsDecoded : Prop :=
  (∀ (s : State) (b : Bat) (c : Issue) (g : GWord) (i : Instr), s.env.off = false →
    chosen (Spec.ticked s).dev (todo exec (Spec.ticked s)) = .batch b (.go c [g]) →
    (Plan.go c [g]).free = false → decode g.word = .ok i →
      ∃ t, exec i ((readyState (Spec.ticked s) b c [g]).issuing ({ c with snap := none }.at_ g)) = .next t ∧
        Spec.AfterWord (readyState (Spec.ticked s) b c [g]) t (step s)) ∧
  (∀ (s : State) (b : Bat) (c : Issue) (ws : List GWord), s.env.off = false →
    chosen (Spec.ticked s).dev (todo exec (Spec.ticked s)) = .batch b (.go c ws) → (Plan.go c ws).free = true →
      step s = .next { Spec.ticked s with
        dev := passOn (fetchedAll (Spec.ticked s).dev c (parseBatch (Spec.ticked s).dev b).fetched) b c.next }) ∧
  (∀ (s : State) (b : Bat) (c : Issue) (r : Raise), s.env.off = false →
    chosen (Spec.ticked s).dev (todo exec (Spec.ticked s)) = .batch b (.raise c r) → (s.dev.grp c.gid).halt = none →
      step s = .next { Spec.ticked s with
        dev := takeRaise s.env { tookTurn b (Spec.ticked s).dev with cur := c } r }) ∧
  (∀ (s u v : State) (b : Bat) (c : Issue) (g g' : GWord) (r : List GWord), s.env.off = false →
    chosen (Spec.ticked s).dev (todo exec (Spec.ticked s)) = .batch b (.go c (g :: g' :: r)) →
    (∀ x ∈ g :: g' :: r, ∀ f, pick x.word ≠ some (.fenceSc f)) → v = readyState (Spec.ticked s) b c (g :: g' :: r) →
    (Spec.GroupRuns { c with snap := some (v.dev.warp c.core c.slot) } (groupOrder (g :: g' :: r)) v u →
      step s = .next u) ∧
    ((∀ x ∈ g :: g' :: r, ∀ f, pick x.word ≠ some (.srd f) ∧ pick x.word ≠ some (.swr f)) →
      (∀ x ∈ g :: g' :: r, ∀ f, pick x.word ≠ some (.sxch f)) → groupOrder (g :: g' :: r) = g :: g' :: r)) ∧
  (∀ (s v : State) (b : Bat) (c : Issue) (g : GWord) (ws : List GWord) (i : Instr), s.env.off = false →
    chosen (Spec.ticked s).dev (todo exec (Spec.ticked s)) = .batch b (.go c ws) → (Plan.go c ws).free = false →
    fenceOf ((Spec.ticked s).issuing c).dev ws = some g → decode g.word = .ok i →
    v = fenceState (Spec.ticked s) b c g →
      (v.dev.warp b.core b.slot).suppress = (s.dev.warp b.core b.slot).suppress ++
        [{ gpc := b.pc, word := g.wpc, lanes := b.lanes, fence := true }] ∧
      ∃ t, exec i (v.issuing (c.at_ g)) = .next t ∧ Spec.AfterWord v t (step s)) ∧
  (∀ (s : State) (gid : Nat) (c : Issue) (g : GWord) (r : List GWord) (i : Instr), s.env.off = false →
    chosen (Spec.ticked s).dev (todo exec (Spec.ticked s)) = .stream gid (.go c (g :: r)) → decode g.word = .ok i →
      ∃ t, exec i ((readyStream (Spec.ticked s) c).issuing (c.at_ g)) = .next t ∧
        Spec.AfterWord (readyStream (Spec.ticked s) c) t (step s)) ∧
  (∀ (s : State) (ev : Ev.Event), s.env.off = false →
    chosen (Spec.ticked s).dev (todo exec (Spec.ticked s)) = .event ev →
      ∃ t, runEvent ev (Spec.ticked s) = .next t ∧ Spec.AfterEvent (Spec.ticked s) t ev (step s)) ∧
  (∀ (s v : State) (k : Nat) (ev : Ev.Event), s.env.off = false →
    chosen (Spec.ticked s).dev (todo exec (Spec.ticked s)) = .posted k ev →
    v = { Spec.ticked s with dev := { (Spec.ticked s).dev with agenda := s.dev.agenda.eraseIdx k } } →
      (s.dev.uciUp = true ∨ hostFar ev = none → ∃ t, runEvent ev v = .next t ∧ Spec.AfterEvent v t ev (step s)) ∧
      (∀ o, s.dev.uciUp = false → hostFar ev = some o →
        step s = .next { v with dev := hostLost s.env v.dev (0xFFF0000000000 + o) 8 })) ∧
  (∀ (s : State) (gid : Nat), s.env.off = false →
    chosen (Spec.ticked s).dev (todo exec (Spec.ticked s)) = .tret gid →
      step s = .next { Spec.ticked s with dev := { tretApply (Spec.ticked s).dev gid with swept := true } }) ∧
  (∀ s : State, s.env.off = false → chosen (Spec.ticked s).dev (todo exec (Spec.ticked s)) = .cycle →
    step s = .next { Spec.ticked s with dev := endCycle s.env (ageAll exec (Spec.ticked s)) })

open Sys2Proof Sys2Proof.Machine in
/-- What a batch issues comes from memory: with no choice made otherwise, the word at its PC is the four bytes there
under the translation of a fetch (R11, R46); and where that word decodes, is no prefix and ends its chain, the group
is that word alone, and it takes effect when nothing is outstanding that it waits for, no pipe or result it needs is busy (R158, R212), no
`VFLT` word still holds the warp's traps open (R213), and no check turns it away; a word that is never assigned raises
EMULATE there (R50, R72). -/
def Obligations.GroupFromMemory : Prop :=
  (∀ (d : Dev) (w : Who) (va : DWord) (pa : Nat) (pg : Page) (ads : List ADSet), d.choice = [] →
    fetchTarget d w va = .ok (.mem pa pg, ads) → fetchWord d w va = .ok (BitVec.ofNat 32 (d.mem.readN pa 4))) ∧
  (∀ (d : Dev) (b : Bat) (w : Word) (i : Instr), b.sup = [] →
    fetchWord d { gid := (d.warp b.core b.slot).gid, ctx := (d.grp (d.warp b.core b.slot).gid).ctx, core := b.core } b.pc = .ok w →
    decode w = .ok i → w.getLsbD 31 = false →
      parseBatch d b = { words := [{ wpc := b.pc, word := w }], fetched := [b.pc], next := b.pc + 4 }) ∧
  (∀ (s : State) (b : Bat) (w : Word) (i : Instr),
    parseBatch s.dev b = { words := [{ wpc := b.pc, word := w }], fetched := [b.pc], next := b.pc + 4 } →
    decode w = .ok i →
    (s.dev.warp b.core b.slot).fenceSc = none →
    (s.dev.warp b.core b.slot).flagsDue = [] ∨ (s.dev.warp b.core b.slot).rmode.toNat / 2 ^ 16 % 2 ^ 5 = 0 →
    pipeHold s.dev b { wpc := b.pc, word := w } = false → exitHold s.dev b { wpc := b.pc, word := w } = false →
    (isCopyCmd w = true → ¬ (b.core * 8 + 5) ∈ s.dev.turn) →
    waits s.dev (s.dev.warp b.core b.slot).gid b.base (pending s.dev b.core b.slot) { wpc := b.pc, word := w } = false →
    probe exec s { batchIssue s.dev b with next := b.pc + 4 } { wpc := b.pc, word := w } = none →
      planBatch exec s b = .go { batchIssue s.dev b with next := b.pc + 4 } [{ wpc := b.pc, word := w }]) ∧
  (∀ (s : State) (b : Bat) (w : Word),
    parseBatch s.dev b = { words := [{ wpc := b.pc, word := w }], fetched := [b.pc], next := b.pc + 4 } →
    decode w = .error .never → (s.dev.warp b.core b.slot).fenceSc = none → (s.dev.warp b.core b.slot).levels = [] →
    (s.dev.warp b.core b.slot).flagsDue = [] ∨ (s.dev.warp b.core b.slot).rmode.toNat / 2 ^ 16 % 2 ^ 5 = 0 →
      ∃ (c : Issue) (r : Raise) (k d0 d1 d2 : Nat) (x : Word) (p : Nat), planBatch exec s b = .raise c r ∧
        c.wpc = b.pc ∧ c.lanes = b.lanes ∧ r = .cause k .emulate d0 d1 d2 x p)

open Sys2Proof Sys2Proof.Machine in
/-- The checks of every word (R53, R72, R73, R167, R391, R421).  A word that a check turns away has the effect of
what it raises and no other; asked only, it leaves the state as it is but for what it would raise.  An issuer of the
wrong role raises ROLE; a word of a group that `DISMASK` disables, a prefix the word does not accept, and a
system-level word or register at user level raise EMULATE with REASON 2, 6 and 7; the group of `DISMASK` is that of
the word's class, opcode and engine. -/
def Obligations.ChecksOfEveryWord : Prop :=
  (∀ (i : Instr) (s : State) (r : Raise), Spec.IsWord i → TurnedAway s i r →
    exec i s = .next { s with dev := takeRaise s.env s.dev r }) ∧
  (∀ (i : Instr) (s : State), Spec.IsWord i → s.dev.cur.probe = true →
    ∃ r : Option Raise, exec i s = .next { s with dev := { s.dev with cur := { s.dev.cur with raised := r } } } ∧
      (∀ x : Raise, guard s.dev i.props = some x → r = some x)) ∧
  (∀ (i : Instr) (w : Word), encode i = some w →
    i.props.cls = fieldN w 28 3 ∧
    i.props.grp = dismaskGroup (fieldN w 28 3) (if fieldN w 28 3 = 5 then 0 else fieldN w 22 6)
      (if fieldN w 28 3 = 5 then fieldN w 25 3 else 0)) ∧
  (∀ (d : Dev) (p : Props), d.cur.stream = true → p.cls ≠ 4 → guard d p = some (roleRaise d)) ∧
  (∀ (d : Dev) (p : Props), d.cur.stream = false → p.cls = 4 → guard d p = some (roleRaise d)) ∧
  (∀ (d : Dev) (p : Props), d.cur.stream = false → d.curWarp.inHost d.cur.lanes = false → d.curWarp.copy = true →
    p.cls = 1 → guard d p = some (roleRaise d)) ∧
  (∀ (d : Dev) (p : Props), d.cur.stream = false → d.curWarp.inHost d.cur.lanes = false → d.curWarp.copy = false →
    p.cls = 5 → p.eng = 0 → guard d p = some (roleRaise d)) ∧
  (∀ (d : Dev) (p : Props) (b : Nat), roleOk d p = true → p.grp = some b → d.curCtx.dismask.getLsbD b = true →
    guard d p = some (emulateRaise d 2)) ∧
  (∀ (d : Dev) (p : Props), roleOk d p = true → (∀ b : Nat, p.grp = some b → d.curCtx.dismask.getLsbD b = false) →
    pfxOk d p = false → guard d p = some (emulateRaise d 6)) ∧
  (∀ (d : Dev) (p : Props), roleOk d p = true → (∀ b : Nat, p.grp = some b → d.curCtx.dismask.getLsbD b = false) →
    pfxOk d p = true → d.curCtx.sys = false → (p.sys = true ∨ ∃ n : Nat, p.sreg = some n ∧ (n = 0x3A ∨ 0x40 ≤ n ∧ n ≤ 0x48)) →
    guard d p = some (emulateRaise d 7))
end

