-- ==== Sys2Proof/Laws/State.lean ====
section
/-! SUPPORT.  The state after each of its updates, field by field: one lemma for each field that an update
leaves alone, and one for what it writes. -/

namespace Sys2Proof.Machine

/-! `Dev.setWarp` changes `warps` alone. -/

@[simp] theorem Dev.setWarp_mem (d : Dev) (c s : Nat) (w : Warp) : (d.setWarp c s w).mem = d.mem := rfl
@[simp] theorem Dev.setWarp_groups (d : Dev) (c s : Nat) (w : Warp) : (d.setWarp c s w).groups = d.groups := rfl
@[simp] theorem Dev.setWarp_nextGid (d : Dev) (c s : Nat) (w : Warp) : (d.setWarp c s w).nextGid = d.nextGid := rfl
@[simp] theorem Dev.setWarp_cores (d : Dev) (c s : Nat) (w : Warp) : (d.setWarp c s w).cores = d.cores := rfl
@[simp] theorem Dev.setWarp_cols (d : Dev) (c s : Nat) (w : Warp) : (d.setWarp c s w).cols = d.cols := rfl
@[simp] theorem Dev.setWarp_towers (d : Dev) (c s : Nat) (w : Warp) : (d.setWarp c s w).towers = d.towers := rfl
@[simp] theorem Dev.setWarp_launches (d : Dev) (c s : Nat) (w : Warp) : (d.setWarp c s w).launches = d.launches := rfl
@[simp] theorem Dev.setWarp_nextLaunch (d : Dev) (c s : Nat) (w : Warp) : (d.setWarp c s w).nextLaunch = d.nextLaunch := rfl
@[simp] theorem Dev.setWarp_ctxs (d : Dev) (c s : Nat) (w : Warp) : (d.setWarp c s w).ctxs = d.ctxs := rfl
@[simp] theorem Dev.setWarp_saved (d : Dev) (c s : Nat) (w : Warp) : (d.setWarp c s w).saved = d.saved := rfl
@[simp] theorem Dev.setWarp_walking (d : Dev) (c s : Nat) (w : Warp) : (d.setWarp c s w).walking = d.walking := rfl
@[simp] theorem Dev.setWarp_invals (d : Dev) (c s : Nat) (w : Warp) : (d.setWarp c s w).invals = d.invals := rfl
@[simp] theorem Dev.setWarp_queues (d : Dev) (c s : Nat) (w : Warp) : (d.setWarp c s w).queues = d.queues := rfl
@[simp] theorem Dev.setWarp_heads (d : Dev) (c s : Nat) (w : Warp) : (d.setWarp c s w).heads = d.heads := rfl
@[simp] theorem Dev.setWarp_linkLog (d : Dev) (c s : Nat) (w : Warp) : (d.setWarp c s w).linkLog = d.linkLog := rfl
@[simp] theorem Dev.setWarp_eth (d : Dev) (c s : Nat) (w : Warp) : (d.setWarp c s w).eth = d.eth := rfl
@[simp] theorem Dev.setWarp_msix (d : Dev) (c s : Nat) (w : Warp) : (d.setWarp c s w).msix = d.msix := rfl
@[simp] theorem Dev.setWarp_bar2 (d : Dev) (c s : Nat) (w : Warp) : (d.setWarp c s w).bar2 = d.bar2 := rfl
@[simp] theorem Dev.setWarp_bar2Size (d : Dev) (c s : Nat) (w : Warp) : (d.setWarp c s w).bar2Size = d.bar2Size := rfl
@[simp] theorem Dev.setWarp_emerg (d : Dev) (c s : Nat) (w : Warp) : (d.setWarp c s w).emerg = d.emerg := rfl
@[simp] theorem Dev.setWarp_mgmt (d : Dev) (c s : Nat) (w : Warp) : (d.setWarp c s w).mgmt = d.mgmt := rfl
@[simp] theorem Dev.setWarp_seen (d : Dev) (c s : Nat) (w : Warp) : (d.setWarp c s w).seen = d.seen := rfl
@[simp] theorem Dev.setWarp_uciUp (d : Dev) (c s : Nat) (w : Warp) : (d.setWarp c s w).uciUp = d.uciUp := rfl
@[simp] theorem Dev.setWarp_tlb (d : Dev) (c s : Nat) (w : Warp) : (d.setWarp c s w).tlb = d.tlb := rfl
@[simp] theorem Dev.setWarp_now (d : Dev) (c s : Nat) (w : Warp) : (d.setWarp c s w).now = d.now := rfl
@[simp] theorem Dev.setWarp_asleep (d : Dev) (c s : Nat) (w : Warp) : (d.setWarp c s w).asleep = d.asleep := rfl
@[simp] theorem Dev.setWarp_turn (d : Dev) (c s : Nat) (w : Warp) : (d.setWarp c s w).turn = d.turn := rfl
@[simp] theorem Dev.setWarp_swept (d : Dev) (c s : Nat) (w : Warp) : (d.setWarp c s w).swept = d.swept := rfl
@[simp] theorem Dev.setWarp_took (d : Dev) (c s : Nat) (w : Warp) : (d.setWarp c s w).took = d.took := rfl
@[simp] theorem Dev.setWarp_cur (d : Dev) (c s : Nat) (w : Warp) : (d.setWarp c s w).cur = d.cur := rfl
@[simp] theorem Dev.setWarp_agenda (d : Dev) (c s : Nat) (w : Warp) : (d.setWarp c s w).agenda = d.agenda := rfl
@[simp] theorem Dev.setWarp_choice (d : Dev) (c s : Nat) (w : Warp) : (d.setWarp c s w).choice = d.choice := rfl
@[simp] theorem Dev.setWarp_tick (d : Dev) (c s : Nat) (w : Warp) : (d.setWarp c s w).tick = d.tick := rfl
@[simp] theorem Dev.setWarp_free (d : Dev) (c s : Nat) (w : Warp) : (d.setWarp c s w).free = d.free := rfl
@[simp] theorem Dev.setWarp_hostData (d : Dev) (c s : Nat) (w : Warp) : (d.setWarp c s w).hostData = d.hostData := rfl
@[simp] theorem Dev.setWarp_hostUr (d : Dev) (c s : Nat) (w : Warp) : (d.setWarp c s w).hostUr = d.hostUr := rfl

/-! `Dev.modWarp` changes `warps` alone. -/

@[simp] theorem Dev.modWarp_mem (d : Dev) (c s : Nat) (f : Warp → Warp) : (d.modWarp c s f).mem = d.mem := rfl
@[simp] theorem Dev.modWarp_groups (d : Dev) (c s : Nat) (f : Warp → Warp) : (d.modWarp c s f).groups = d.groups := rfl
@[simp] theorem Dev.modWarp_nextGid (d : Dev) (c s : Nat) (f : Warp → Warp) : (d.modWarp c s f).nextGid = d.nextGid := rfl
@[simp] theorem Dev.modWarp_cores (d : Dev) (c s : Nat) (f : Warp → Warp) : (d.modWarp c s f).cores = d.cores := rfl
@[simp] theorem Dev.modWarp_cols (d : Dev) (c s : Nat) (f : Warp → Warp) : (d.modWarp c s f).cols = d.cols := rfl
@[simp] theorem Dev.modWarp_towers (d : Dev) (c s : Nat) (f : Warp → Warp) : (d.modWarp c s f).towers = d.towers := rfl
@[simp] theorem Dev.modWarp_launches (d : Dev) (c s : Nat) (f : Warp → Warp) : (d.modWarp c s f).launches = d.launches := rfl
@[simp] theorem Dev.modWarp_nextLaunch (d : Dev) (c s : Nat) (f : Warp → Warp) : (d.modWarp c s f).nextLaunch = d.nextLaunch := rfl
@[simp] theorem Dev.modWarp_ctxs (d : Dev) (c s : Nat) (f : Warp → Warp) : (d.modWarp c s f).ctxs = d.ctxs := rfl
@[simp] theorem Dev.modWarp_saved (d : Dev) (c s : Nat) (f : Warp → Warp) : (d.modWarp c s f).saved = d.saved := rfl
@[simp] theorem Dev.modWarp_walking (d : Dev) (c s : Nat) (f : Warp → Warp) : (d.modWarp c s f).walking = d.walking := rfl
@[simp] theorem Dev.modWarp_invals (d : Dev) (c s : Nat) (f : Warp → Warp) : (d.modWarp c s f).invals = d.invals := rfl
@[simp] theorem Dev.modWarp_queues (d : Dev) (c s : Nat) (f : Warp → Warp) : (d.modWarp c s f).queues = d.queues := rfl
@[simp] theorem Dev.modWarp_heads (d : Dev) (c s : Nat) (f : Warp → Warp) : (d.modWarp c s f).heads = d.heads := rfl
@[simp] theorem Dev.modWarp_linkLog (d : Dev) (c s : Nat) (f : Warp → Warp) : (d.modWarp c s f).linkLog = d.linkLog := rfl
@[simp] theorem Dev.modWarp_eth (d : Dev) (c s : Nat) (f : Warp → Warp) : (d.modWarp c s f).eth = d.eth := rfl
@[simp] theorem Dev.modWarp_msix (d : Dev) (c s : Nat) (f : Warp → Warp) : (d.modWarp c s f).msix = d.msix := rfl
@[simp] theorem Dev.modWarp_bar2 (d : Dev) (c s : Nat) (f : Warp → Warp) : (d.modWarp c s f).bar2 = d.bar2 := rfl
@[simp] theorem Dev.modWarp_bar2Size (d : Dev) (c s : Nat) (f : Warp → Warp) : (d.modWarp c s f).bar2Size = d.bar2Size := rfl
@[simp] theorem Dev.modWarp_emerg (d : Dev) (c s : Nat) (f : Warp → Warp) : (d.modWarp c s f).emerg = d.emerg := rfl
@[simp] theorem Dev.modWarp_mgmt (d : Dev) (c s : Nat) (f : Warp → Warp) : (d.modWarp c s f).mgmt = d.mgmt := rfl
@[simp] theorem Dev.modWarp_seen (d : Dev) (c s : Nat) (f : Warp → Warp) : (d.modWarp c s f).seen = d.seen := rfl
@[simp] theorem Dev.modWarp_uciUp (d : Dev) (c s : Nat) (f : Warp → Warp) : (d.modWarp c s f).uciUp = d.uciUp := rfl
@[simp] theorem Dev.modWarp_tlb (d : Dev) (c s : Nat) (f : Warp → Warp) : (d.modWarp c s f).tlb = d.tlb := rfl
@[simp] theorem Dev.modWarp_now (d : Dev) (c s : Nat) (f : Warp → Warp) : (d.modWarp c s f).now = d.now := rfl
@[simp] theorem Dev.modWarp_asleep (d : Dev) (c s : Nat) (f : Warp → Warp) : (d.modWarp c s f).asleep = d.asleep := rfl
@[simp] theorem Dev.modWarp_turn (d : Dev) (c s : Nat) (f : Warp → Warp) : (d.modWarp c s f).turn = d.turn := rfl
@[simp] theorem Dev.modWarp_swept (d : Dev) (c s : Nat) (f : Warp → Warp) : (d.modWarp c s f).swept = d.swept := rfl
@[simp] theorem Dev.modWarp_took (d : Dev) (c s : Nat) (f : Warp → Warp) : (d.modWarp c s f).took = d.took := rfl
@[simp] theorem Dev.modWarp_cur (d : Dev) (c s : Nat) (f : Warp → Warp) : (d.modWarp c s f).cur = d.cur := rfl
@[simp] theorem Dev.modWarp_agenda (d : Dev) (c s : Nat) (f : Warp → Warp) : (d.modWarp c s f).agenda = d.agenda := rfl
@[simp] theorem Dev.modWarp_choice (d : Dev) (c s : Nat) (f : Warp → Warp) : (d.modWarp c s f).choice = d.choice := rfl
@[simp] theorem Dev.modWarp_tick (d : Dev) (c s : Nat) (f : Warp → Warp) : (d.modWarp c s f).tick = d.tick := rfl
@[simp] theorem Dev.modWarp_free (d : Dev) (c s : Nat) (f : Warp → Warp) : (d.modWarp c s f).free = d.free := rfl
@[simp] theorem Dev.modWarp_hostData (d : Dev) (c s : Nat) (f : Warp → Warp) : (d.modWarp c s f).hostData = d.hostData := rfl
@[simp] theorem Dev.modWarp_hostUr (d : Dev) (c s : Nat) (f : Warp → Warp) : (d.modWarp c s f).hostUr = d.hostUr := rfl

/-! `Dev.setGrp` changes `groups` alone. -/

@[simp] theorem Dev.setGrp_mem (d : Dev) (k : Nat) (g : Group) : (d.setGrp k g).mem = d.mem := rfl
@[simp] theorem Dev.setGrp_warps (d : Dev) (k : Nat) (g : Group) : (d.setGrp k g).warps = d.warps := rfl
@[simp] theorem Dev.setGrp_nextGid (d : Dev) (k : Nat) (g : Group) : (d.setGrp k g).nextGid = d.nextGid := rfl
@[simp] theorem Dev.setGrp_cores (d : Dev) (k : Nat) (g : Group) : (d.setGrp k g).cores = d.cores := rfl
@[simp] theorem Dev.setGrp_cols (d : Dev) (k : Nat) (g : Group) : (d.setGrp k g).cols = d.cols := rfl
@[simp] theorem Dev.setGrp_towers (d : Dev) (k : Nat) (g : Group) : (d.setGrp k g).towers = d.towers := rfl
@[simp] theorem Dev.setGrp_launches (d : Dev) (k : Nat) (g : Group) : (d.setGrp k g).launches = d.launches := rfl
@[simp] theorem Dev.setGrp_nextLaunch (d : Dev) (k : Nat) (g : Group) : (d.setGrp k g).nextLaunch = d.nextLaunch := rfl
@[simp] theorem Dev.setGrp_ctxs (d : Dev) (k : Nat) (g : Group) : (d.setGrp k g).ctxs = d.ctxs := rfl
@[simp] theorem Dev.setGrp_saved (d : Dev) (k : Nat) (g : Group) : (d.setGrp k g).saved = d.saved := rfl
@[simp] theorem Dev.setGrp_walking (d : Dev) (k : Nat) (g : Group) : (d.setGrp k g).walking = d.walking := rfl
@[simp] theorem Dev.setGrp_invals (d : Dev) (k : Nat) (g : Group) : (d.setGrp k g).invals = d.invals := rfl
@[simp] theorem Dev.setGrp_queues (d : Dev) (k : Nat) (g : Group) : (d.setGrp k g).queues = d.queues := rfl
@[simp] theorem Dev.setGrp_heads (d : Dev) (k : Nat) (g : Group) : (d.setGrp k g).heads = d.heads := rfl
@[simp] theorem Dev.setGrp_linkLog (d : Dev) (k : Nat) (g : Group) : (d.setGrp k g).linkLog = d.linkLog := rfl
@[simp] theorem Dev.setGrp_eth (d : Dev) (k : Nat) (g : Group) : (d.setGrp k g).eth = d.eth := rfl
@[simp] theorem Dev.setGrp_msix (d : Dev) (k : Nat) (g : Group) : (d.setGrp k g).msix = d.msix := rfl
@[simp] theorem Dev.setGrp_bar2 (d : Dev) (k : Nat) (g : Group) : (d.setGrp k g).bar2 = d.bar2 := rfl
@[simp] theorem Dev.setGrp_bar2Size (d : Dev) (k : Nat) (g : Group) : (d.setGrp k g).bar2Size = d.bar2Size := rfl
@[simp] theorem Dev.setGrp_emerg (d : Dev) (k : Nat) (g : Group) : (d.setGrp k g).emerg = d.emerg := rfl
@[simp] theorem Dev.setGrp_mgmt (d : Dev) (k : Nat) (g : Group) : (d.setGrp k g).mgmt = d.mgmt := rfl
@[simp] theorem Dev.setGrp_seen (d : Dev) (k : Nat) (g : Group) : (d.setGrp k g).seen = d.seen := rfl
@[simp] theorem Dev.setGrp_uciUp (d : Dev) (k : Nat) (g : Group) : (d.setGrp k g).uciUp = d.uciUp := rfl
@[simp] theorem Dev.setGrp_tlb (d : Dev) (k : Nat) (g : Group) : (d.setGrp k g).tlb = d.tlb := rfl
@[simp] theorem Dev.setGrp_now (d : Dev) (k : Nat) (g : Group) : (d.setGrp k g).now = d.now := rfl
@[simp] theorem Dev.setGrp_asleep (d : Dev) (k : Nat) (g : Group) : (d.setGrp k g).asleep = d.asleep := rfl
@[simp] theorem Dev.setGrp_turn (d : Dev) (k : Nat) (g : Group) : (d.setGrp k g).turn = d.turn := rfl
@[simp] theorem Dev.setGrp_swept (d : Dev) (k : Nat) (g : Group) : (d.setGrp k g).swept = d.swept := rfl
@[simp] theorem Dev.setGrp_took (d : Dev) (k : Nat) (g : Group) : (d.setGrp k g).took = d.took := rfl
@[simp] theorem Dev.setGrp_cur (d : Dev) (k : Nat) (g : Group) : (d.setGrp k g).cur = d.cur := rfl
@[simp] theorem Dev.setGrp_agenda (d : Dev) (k : Nat) (g : Group) : (d.setGrp k g).agenda = d.agenda := rfl
@[simp] theorem Dev.setGrp_choice (d : Dev) (k : Nat) (g : Group) : (d.setGrp k g).choice = d.choice := rfl
@[simp] theorem Dev.setGrp_tick (d : Dev) (k : Nat) (g : Group) : (d.setGrp k g).tick = d.tick := rfl
@[simp] theorem Dev.setGrp_free (d : Dev) (k : Nat) (g : Group) : (d.setGrp k g).free = d.free := rfl
@[simp] theorem Dev.setGrp_hostData (d : Dev) (k : Nat) (g : Group) : (d.setGrp k g).hostData = d.hostData := rfl
@[simp] theorem Dev.setGrp_hostUr (d : Dev) (k : Nat) (g : Group) : (d.setGrp k g).hostUr = d.hostUr := rfl

/-! `Dev.modGrp` changes `groups` alone. -/

@[simp] theorem Dev.modGrp_mem (d : Dev) (k : Nat) (f : Group → Group) : (d.modGrp k f).mem = d.mem := rfl
@[simp] theorem Dev.modGrp_warps (d : Dev) (k : Nat) (f : Group → Group) : (d.modGrp k f).warps = d.warps := rfl
@[simp] theorem Dev.modGrp_nextGid (d : Dev) (k : Nat) (f : Group → Group) : (d.modGrp k f).nextGid = d.nextGid := rfl
@[simp] theorem Dev.modGrp_cores (d : Dev) (k : Nat) (f : Group → Group) : (d.modGrp k f).cores = d.cores := rfl
@[simp] theorem Dev.modGrp_cols (d : Dev) (k : Nat) (f : Group → Group) : (d.modGrp k f).cols = d.cols := rfl
@[simp] theorem Dev.modGrp_towers (d : Dev) (k : Nat) (f : Group → Group) : (d.modGrp k f).towers = d.towers := rfl
@[simp] theorem Dev.modGrp_launches (d : Dev) (k : Nat) (f : Group → Group) : (d.modGrp k f).launches = d.launches := rfl
@[simp] theorem Dev.modGrp_nextLaunch (d : Dev) (k : Nat) (f : Group → Group) : (d.modGrp k f).nextLaunch = d.nextLaunch := rfl
@[simp] theorem Dev.modGrp_ctxs (d : Dev) (k : Nat) (f : Group → Group) : (d.modGrp k f).ctxs = d.ctxs := rfl
@[simp] theorem Dev.modGrp_saved (d : Dev) (k : Nat) (f : Group → Group) : (d.modGrp k f).saved = d.saved := rfl
@[simp] theorem Dev.modGrp_walking (d : Dev) (k : Nat) (f : Group → Group) : (d.modGrp k f).walking = d.walking := rfl
@[simp] theorem Dev.modGrp_invals (d : Dev) (k : Nat) (f : Group → Group) : (d.modGrp k f).invals = d.invals := rfl
@[simp] theorem Dev.modGrp_queues (d : Dev) (k : Nat) (f : Group → Group) : (d.modGrp k f).queues = d.queues := rfl
@[simp] theorem Dev.modGrp_heads (d : Dev) (k : Nat) (f : Group → Group) : (d.modGrp k f).heads = d.heads := rfl
@[simp] theorem Dev.modGrp_linkLog (d : Dev) (k : Nat) (f : Group → Group) : (d.modGrp k f).linkLog = d.linkLog := rfl
@[simp] theorem Dev.modGrp_eth (d : Dev) (k : Nat) (f : Group → Group) : (d.modGrp k f).eth = d.eth := rfl
@[simp] theorem Dev.modGrp_msix (d : Dev) (k : Nat) (f : Group → Group) : (d.modGrp k f).msix = d.msix := rfl
@[simp] theorem Dev.modGrp_bar2 (d : Dev) (k : Nat) (f : Group → Group) : (d.modGrp k f).bar2 = d.bar2 := rfl
@[simp] theorem Dev.modGrp_bar2Size (d : Dev) (k : Nat) (f : Group → Group) : (d.modGrp k f).bar2Size = d.bar2Size := rfl
@[simp] theorem Dev.modGrp_emerg (d : Dev) (k : Nat) (f : Group → Group) : (d.modGrp k f).emerg = d.emerg := rfl
@[simp] theorem Dev.modGrp_mgmt (d : Dev) (k : Nat) (f : Group → Group) : (d.modGrp k f).mgmt = d.mgmt := rfl
@[simp] theorem Dev.modGrp_seen (d : Dev) (k : Nat) (f : Group → Group) : (d.modGrp k f).seen = d.seen := rfl
@[simp] theorem Dev.modGrp_uciUp (d : Dev) (k : Nat) (f : Group → Group) : (d.modGrp k f).uciUp = d.uciUp := rfl
@[simp] theorem Dev.modGrp_tlb (d : Dev) (k : Nat) (f : Group → Group) : (d.modGrp k f).tlb = d.tlb := rfl
@[simp] theorem Dev.modGrp_now (d : Dev) (k : Nat) (f : Group → Group) : (d.modGrp k f).now = d.now := rfl
@[simp] theorem Dev.modGrp_asleep (d : Dev) (k : Nat) (f : Group → Group) : (d.modGrp k f).asleep = d.asleep := rfl
@[simp] theorem Dev.modGrp_turn (d : Dev) (k : Nat) (f : Group → Group) : (d.modGrp k f).turn = d.turn := rfl
@[simp] theorem Dev.modGrp_swept (d : Dev) (k : Nat) (f : Group → Group) : (d.modGrp k f).swept = d.swept := rfl
@[simp] theorem Dev.modGrp_took (d : Dev) (k : Nat) (f : Group → Group) : (d.modGrp k f).took = d.took := rfl
@[simp] theorem Dev.modGrp_cur (d : Dev) (k : Nat) (f : Group → Group) : (d.modGrp k f).cur = d.cur := rfl
@[simp] theorem Dev.modGrp_agenda (d : Dev) (k : Nat) (f : Group → Group) : (d.modGrp k f).agenda = d.agenda := rfl
@[simp] theorem Dev.modGrp_choice (d : Dev) (k : Nat) (f : Group → Group) : (d.modGrp k f).choice = d.choice := rfl
@[simp] theorem Dev.modGrp_tick (d : Dev) (k : Nat) (f : Group → Group) : (d.modGrp k f).tick = d.tick := rfl
@[simp] theorem Dev.modGrp_free (d : Dev) (k : Nat) (f : Group → Group) : (d.modGrp k f).free = d.free := rfl
@[simp] theorem Dev.modGrp_hostData (d : Dev) (k : Nat) (f : Group → Group) : (d.modGrp k f).hostData = d.hostData := rfl
@[simp] theorem Dev.modGrp_hostUr (d : Dev) (k : Nat) (f : Group → Group) : (d.modGrp k f).hostUr = d.hostUr := rfl

/-! `Dev.modStream` changes `groups` alone. -/

@[simp] theorem Dev.modStream_mem (d : Dev) (k : Nat) (f : Stream → Stream) : (d.modStream k f).mem = d.mem := rfl
@[simp] theorem Dev.modStream_warps (d : Dev) (k : Nat) (f : Stream → Stream) : (d.modStream k f).warps = d.warps := rfl
@[simp] theorem Dev.modStream_nextGid (d : Dev) (k : Nat) (f : Stream → Stream) : (d.modStream k f).nextGid = d.nextGid := rfl
@[simp] theorem Dev.modStream_cores (d : Dev) (k : Nat) (f : Stream → Stream) : (d.modStream k f).cores = d.cores := rfl
@[simp] theorem Dev.modStream_cols (d : Dev) (k : Nat) (f : Stream → Stream) : (d.modStream k f).cols = d.cols := rfl
@[simp] theorem Dev.modStream_towers (d : Dev) (k : Nat) (f : Stream → Stream) : (d.modStream k f).towers = d.towers := rfl
@[simp] theorem Dev.modStream_launches (d : Dev) (k : Nat) (f : Stream → Stream) : (d.modStream k f).launches = d.launches := rfl
@[simp] theorem Dev.modStream_nextLaunch (d : Dev) (k : Nat) (f : Stream → Stream) : (d.modStream k f).nextLaunch = d.nextLaunch := rfl
@[simp] theorem Dev.modStream_ctxs (d : Dev) (k : Nat) (f : Stream → Stream) : (d.modStream k f).ctxs = d.ctxs := rfl
@[simp] theorem Dev.modStream_saved (d : Dev) (k : Nat) (f : Stream → Stream) : (d.modStream k f).saved = d.saved := rfl
@[simp] theorem Dev.modStream_walking (d : Dev) (k : Nat) (f : Stream → Stream) : (d.modStream k f).walking = d.walking := rfl
@[simp] theorem Dev.modStream_invals (d : Dev) (k : Nat) (f : Stream → Stream) : (d.modStream k f).invals = d.invals := rfl
@[simp] theorem Dev.modStream_queues (d : Dev) (k : Nat) (f : Stream → Stream) : (d.modStream k f).queues = d.queues := rfl
@[simp] theorem Dev.modStream_heads (d : Dev) (k : Nat) (f : Stream → Stream) : (d.modStream k f).heads = d.heads := rfl
@[simp] theorem Dev.modStream_linkLog (d : Dev) (k : Nat) (f : Stream → Stream) : (d.modStream k f).linkLog = d.linkLog := rfl
@[simp] theorem Dev.modStream_eth (d : Dev) (k : Nat) (f : Stream → Stream) : (d.modStream k f).eth = d.eth := rfl
@[simp] theorem Dev.modStream_msix (d : Dev) (k : Nat) (f : Stream → Stream) : (d.modStream k f).msix = d.msix := rfl
@[simp] theorem Dev.modStream_bar2 (d : Dev) (k : Nat) (f : Stream → Stream) : (d.modStream k f).bar2 = d.bar2 := rfl
@[simp] theorem Dev.modStream_bar2Size (d : Dev) (k : Nat) (f : Stream → Stream) : (d.modStream k f).bar2Size = d.bar2Size := rfl
@[simp] theorem Dev.modStream_emerg (d : Dev) (k : Nat) (f : Stream → Stream) : (d.modStream k f).emerg = d.emerg := rfl
@[simp] theorem Dev.modStream_mgmt (d : Dev) (k : Nat) (f : Stream → Stream) : (d.modStream k f).mgmt = d.mgmt := rfl
@[simp] theorem Dev.modStream_seen (d : Dev) (k : Nat) (f : Stream → Stream) : (d.modStream k f).seen = d.seen := rfl
@[simp] theorem Dev.modStream_uciUp (d : Dev) (k : Nat) (f : Stream → Stream) : (d.modStream k f).uciUp = d.uciUp := rfl
@[simp] theorem Dev.modStream_tlb (d : Dev) (k : Nat) (f : Stream → Stream) : (d.modStream k f).tlb = d.tlb := rfl
@[simp] theorem Dev.modStream_now (d : Dev) (k : Nat) (f : Stream → Stream) : (d.modStream k f).now = d.now := rfl
@[simp] theorem Dev.modStream_asleep (d : Dev) (k : Nat) (f : Stream → Stream) : (d.modStream k f).asleep = d.asleep := rfl
@[simp] theorem Dev.modStream_turn (d : Dev) (k : Nat) (f : Stream → Stream) : (d.modStream k f).turn = d.turn := rfl
@[simp] theorem Dev.modStream_swept (d : Dev) (k : Nat) (f : Stream → Stream) : (d.modStream k f).swept = d.swept := rfl
@[simp] theorem Dev.modStream_took (d : Dev) (k : Nat) (f : Stream → Stream) : (d.modStream k f).took = d.took := rfl
@[simp] theorem Dev.modStream_cur (d : Dev) (k : Nat) (f : Stream → Stream) : (d.modStream k f).cur = d.cur := rfl
@[simp] theorem Dev.modStream_agenda (d : Dev) (k : Nat) (f : Stream → Stream) : (d.modStream k f).agenda = d.agenda := rfl
@[simp] theorem Dev.modStream_choice (d : Dev) (k : Nat) (f : Stream → Stream) : (d.modStream k f).choice = d.choice := rfl
@[simp] theorem Dev.modStream_tick (d : Dev) (k : Nat) (f : Stream → Stream) : (d.modStream k f).tick = d.tick := rfl
@[simp] theorem Dev.modStream_free (d : Dev) (k : Nat) (f : Stream → Stream) : (d.modStream k f).free = d.free := rfl
@[simp] theorem Dev.modStream_hostData (d : Dev) (k : Nat) (f : Stream → Stream) : (d.modStream k f).hostData = d.hostData := rfl
@[simp] theorem Dev.modStream_hostUr (d : Dev) (k : Nat) (f : Stream → Stream) : (d.modStream k f).hostUr = d.hostUr := rfl

/-! `Dev.modCore` changes `cores` alone. -/

@[simp] theorem Dev.modCore_mem (d : Dev) (k : Nat) (f : Core → Core) : (d.modCore k f).mem = d.mem := rfl
@[simp] theorem Dev.modCore_warps (d : Dev) (k : Nat) (f : Core → Core) : (d.modCore k f).warps = d.warps := rfl
@[simp] theorem Dev.modCore_groups (d : Dev) (k : Nat) (f : Core → Core) : (d.modCore k f).groups = d.groups := rfl
@[simp] theorem Dev.modCore_nextGid (d : Dev) (k : Nat) (f : Core → Core) : (d.modCore k f).nextGid = d.nextGid := rfl
@[simp] theorem Dev.modCore_cols (d : Dev) (k : Nat) (f : Core → Core) : (d.modCore k f).cols = d.cols := rfl
@[simp] theorem Dev.modCore_towers (d : Dev) (k : Nat) (f : Core → Core) : (d.modCore k f).towers = d.towers := rfl
@[simp] theorem Dev.modCore_launches (d : Dev) (k : Nat) (f : Core → Core) : (d.modCore k f).launches = d.launches := rfl
@[simp] theorem Dev.modCore_nextLaunch (d : Dev) (k : Nat) (f : Core → Core) : (d.modCore k f).nextLaunch = d.nextLaunch := rfl
@[simp] theorem Dev.modCore_ctxs (d : Dev) (k : Nat) (f : Core → Core) : (d.modCore k f).ctxs = d.ctxs := rfl
@[simp] theorem Dev.modCore_saved (d : Dev) (k : Nat) (f : Core → Core) : (d.modCore k f).saved = d.saved := rfl
@[simp] theorem Dev.modCore_walking (d : Dev) (k : Nat) (f : Core → Core) : (d.modCore k f).walking = d.walking := rfl
@[simp] theorem Dev.modCore_invals (d : Dev) (k : Nat) (f : Core → Core) : (d.modCore k f).invals = d.invals := rfl
@[simp] theorem Dev.modCore_queues (d : Dev) (k : Nat) (f : Core → Core) : (d.modCore k f).queues = d.queues := rfl
@[simp] theorem Dev.modCore_heads (d : Dev) (k : Nat) (f : Core → Core) : (d.modCore k f).heads = d.heads := rfl
@[simp] theorem Dev.modCore_linkLog (d : Dev) (k : Nat) (f : Core → Core) : (d.modCore k f).linkLog = d.linkLog := rfl
@[simp] theorem Dev.modCore_eth (d : Dev) (k : Nat) (f : Core → Core) : (d.modCore k f).eth = d.eth := rfl
@[simp] theorem Dev.modCore_msix (d : Dev) (k : Nat) (f : Core → Core) : (d.modCore k f).msix = d.msix := rfl
@[simp] theorem Dev.modCore_bar2 (d : Dev) (k : Nat) (f : Core → Core) : (d.modCore k f).bar2 = d.bar2 := rfl
@[simp] theorem Dev.modCore_bar2Size (d : Dev) (k : Nat) (f : Core → Core) : (d.modCore k f).bar2Size = d.bar2Size := rfl
@[simp] theorem Dev.modCore_emerg (d : Dev) (k : Nat) (f : Core → Core) : (d.modCore k f).emerg = d.emerg := rfl
@[simp] theorem Dev.modCore_mgmt (d : Dev) (k : Nat) (f : Core → Core) : (d.modCore k f).mgmt = d.mgmt := rfl
@[simp] theorem Dev.modCore_seen (d : Dev) (k : Nat) (f : Core → Core) : (d.modCore k f).seen = d.seen := rfl
@[simp] theorem Dev.modCore_uciUp (d : Dev) (k : Nat) (f : Core → Core) : (d.modCore k f).uciUp = d.uciUp := rfl
@[simp] theorem Dev.modCore_tlb (d : Dev) (k : Nat) (f : Core → Core) : (d.modCore k f).tlb = d.tlb := rfl
@[simp] theorem Dev.modCore_now (d : Dev) (k : Nat) (f : Core → Core) : (d.modCore k f).now = d.now := rfl
@[simp] theorem Dev.modCore_asleep (d : Dev) (k : Nat) (f : Core → Core) : (d.modCore k f).asleep = d.asleep := rfl
@[simp] theorem Dev.modCore_turn (d : Dev) (k : Nat) (f : Core → Core) : (d.modCore k f).turn = d.turn := rfl
@[simp] theorem Dev.modCore_swept (d : Dev) (k : Nat) (f : Core → Core) : (d.modCore k f).swept = d.swept := rfl
@[simp] theorem Dev.modCore_took (d : Dev) (k : Nat) (f : Core → Core) : (d.modCore k f).took = d.took := rfl
@[simp] theorem Dev.modCore_cur (d : Dev) (k : Nat) (f : Core → Core) : (d.modCore k f).cur = d.cur := rfl
@[simp] theorem Dev.modCore_agenda (d : Dev) (k : Nat) (f : Core → Core) : (d.modCore k f).agenda = d.agenda := rfl
@[simp] theorem Dev.modCore_choice (d : Dev) (k : Nat) (f : Core → Core) : (d.modCore k f).choice = d.choice := rfl
@[simp] theorem Dev.modCore_tick (d : Dev) (k : Nat) (f : Core → Core) : (d.modCore k f).tick = d.tick := rfl
@[simp] theorem Dev.modCore_free (d : Dev) (k : Nat) (f : Core → Core) : (d.modCore k f).free = d.free := rfl
@[simp] theorem Dev.modCore_hostData (d : Dev) (k : Nat) (f : Core → Core) : (d.modCore k f).hostData = d.hostData := rfl
@[simp] theorem Dev.modCore_hostUr (d : Dev) (k : Nat) (f : Core → Core) : (d.modCore k f).hostUr = d.hostUr := rfl

/-! `Dev.modCol` changes `cols` alone. -/

@[simp] theorem Dev.modCol_mem (d : Dev) (k : Nat) (f : Column → Column) : (d.modCol k f).mem = d.mem := rfl
@[simp] theorem Dev.modCol_warps (d : Dev) (k : Nat) (f : Column → Column) : (d.modCol k f).warps = d.warps := rfl
@[simp] theorem Dev.modCol_groups (d : Dev) (k : Nat) (f : Column → Column) : (d.modCol k f).groups = d.groups := rfl
@[simp] theorem Dev.modCol_nextGid (d : Dev) (k : Nat) (f : Column → Column) : (d.modCol k f).nextGid = d.nextGid := rfl
@[simp] theorem Dev.modCol_cores (d : Dev) (k : Nat) (f : Column → Column) : (d.modCol k f).cores = d.cores := rfl
@[simp] theorem Dev.modCol_towers (d : Dev) (k : Nat) (f : Column → Column) : (d.modCol k f).towers = d.towers := rfl
@[simp] theorem Dev.modCol_launches (d : Dev) (k : Nat) (f : Column → Column) : (d.modCol k f).launches = d.launches := rfl
@[simp] theorem Dev.modCol_nextLaunch (d : Dev) (k : Nat) (f : Column → Column) : (d.modCol k f).nextLaunch = d.nextLaunch := rfl
@[simp] theorem Dev.modCol_ctxs (d : Dev) (k : Nat) (f : Column → Column) : (d.modCol k f).ctxs = d.ctxs := rfl
@[simp] theorem Dev.modCol_saved (d : Dev) (k : Nat) (f : Column → Column) : (d.modCol k f).saved = d.saved := rfl
@[simp] theorem Dev.modCol_walking (d : Dev) (k : Nat) (f : Column → Column) : (d.modCol k f).walking = d.walking := rfl
@[simp] theorem Dev.modCol_invals (d : Dev) (k : Nat) (f : Column → Column) : (d.modCol k f).invals = d.invals := rfl
@[simp] theorem Dev.modCol_queues (d : Dev) (k : Nat) (f : Column → Column) : (d.modCol k f).queues = d.queues := rfl
@[simp] theorem Dev.modCol_heads (d : Dev) (k : Nat) (f : Column → Column) : (d.modCol k f).heads = d.heads := rfl
@[simp] theorem Dev.modCol_linkLog (d : Dev) (k : Nat) (f : Column → Column) : (d.modCol k f).linkLog = d.linkLog := rfl
@[simp] theorem Dev.modCol_eth (d : Dev) (k : Nat) (f : Column → Column) : (d.modCol k f).eth = d.eth := rfl
@[simp] theorem Dev.modCol_msix (d : Dev) (k : Nat) (f : Column → Column) : (d.modCol k f).msix = d.msix := rfl
@[simp] theorem Dev.modCol_bar2 (d : Dev) (k : Nat) (f : Column → Column) : (d.modCol k f).bar2 = d.bar2 := rfl
@[simp] theorem Dev.modCol_bar2Size (d : Dev) (k : Nat) (f : Column → Column) : (d.modCol k f).bar2Size = d.bar2Size := rfl
@[simp] theorem Dev.modCol_emerg (d : Dev) (k : Nat) (f : Column → Column) : (d.modCol k f).emerg = d.emerg := rfl
@[simp] theorem Dev.modCol_mgmt (d : Dev) (k : Nat) (f : Column → Column) : (d.modCol k f).mgmt = d.mgmt := rfl
@[simp] theorem Dev.modCol_seen (d : Dev) (k : Nat) (f : Column → Column) : (d.modCol k f).seen = d.seen := rfl
@[simp] theorem Dev.modCol_uciUp (d : Dev) (k : Nat) (f : Column → Column) : (d.modCol k f).uciUp = d.uciUp := rfl
@[simp] theorem Dev.modCol_tlb (d : Dev) (k : Nat) (f : Column → Column) : (d.modCol k f).tlb = d.tlb := rfl
@[simp] theorem Dev.modCol_now (d : Dev) (k : Nat) (f : Column → Column) : (d.modCol k f).now = d.now := rfl
@[simp] theorem Dev.modCol_asleep (d : Dev) (k : Nat) (f : Column → Column) : (d.modCol k f).asleep = d.asleep := rfl
@[simp] theorem Dev.modCol_turn (d : Dev) (k : Nat) (f : Column → Column) : (d.modCol k f).turn = d.turn := rfl
@[simp] theorem Dev.modCol_swept (d : Dev) (k : Nat) (f : Column → Column) : (d.modCol k f).swept = d.swept := rfl
@[simp] theorem Dev.modCol_took (d : Dev) (k : Nat) (f : Column → Column) : (d.modCol k f).took = d.took := rfl
@[simp] theorem Dev.modCol_cur (d : Dev) (k : Nat) (f : Column → Column) : (d.modCol k f).cur = d.cur := rfl
@[simp] theorem Dev.modCol_agenda (d : Dev) (k : Nat) (f : Column → Column) : (d.modCol k f).agenda = d.agenda := rfl
@[simp] theorem Dev.modCol_choice (d : Dev) (k : Nat) (f : Column → Column) : (d.modCol k f).choice = d.choice := rfl
@[simp] theorem Dev.modCol_tick (d : Dev) (k : Nat) (f : Column → Column) : (d.modCol k f).tick = d.tick := rfl
@[simp] theorem Dev.modCol_free (d : Dev) (k : Nat) (f : Column → Column) : (d.modCol k f).free = d.free := rfl
@[simp] theorem Dev.modCol_hostData (d : Dev) (k : Nat) (f : Column → Column) : (d.modCol k f).hostData = d.hostData := rfl
@[simp] theorem Dev.modCol_hostUr (d : Dev) (k : Nat) (f : Column → Column) : (d.modCol k f).hostUr = d.hostUr := rfl

/-! `Dev.modTower` changes `towers` alone. -/

@[simp] theorem Dev.modTower_mem (d : Dev) (k : Nat) (f : Tower → Tower) : (d.modTower k f).mem = d.mem := rfl
@[simp] theorem Dev.modTower_warps (d : Dev) (k : Nat) (f : Tower → Tower) : (d.modTower k f).warps = d.warps := rfl
@[simp] theorem Dev.modTower_groups (d : Dev) (k : Nat) (f : Tower → Tower) : (d.modTower k f).groups = d.groups := rfl
@[simp] theorem Dev.modTower_nextGid (d : Dev) (k : Nat) (f : Tower → Tower) : (d.modTower k f).nextGid = d.nextGid := rfl
@[simp] theorem Dev.modTower_cores (d : Dev) (k : Nat) (f : Tower → Tower) : (d.modTower k f).cores = d.cores := rfl
@[simp] theorem Dev.modTower_cols (d : Dev) (k : Nat) (f : Tower → Tower) : (d.modTower k f).cols = d.cols := rfl
@[simp] theorem Dev.modTower_launches (d : Dev) (k : Nat) (f : Tower → Tower) : (d.modTower k f).launches = d.launches := rfl
@[simp] theorem Dev.modTower_nextLaunch (d : Dev) (k : Nat) (f : Tower → Tower) : (d.modTower k f).nextLaunch = d.nextLaunch := rfl
@[simp] theorem Dev.modTower_ctxs (d : Dev) (k : Nat) (f : Tower → Tower) : (d.modTower k f).ctxs = d.ctxs := rfl
@[simp] theorem Dev.modTower_saved (d : Dev) (k : Nat) (f : Tower → Tower) : (d.modTower k f).saved = d.saved := rfl
@[simp] theorem Dev.modTower_walking (d : Dev) (k : Nat) (f : Tower → Tower) : (d.modTower k f).walking = d.walking := rfl
@[simp] theorem Dev.modTower_invals (d : Dev) (k : Nat) (f : Tower → Tower) : (d.modTower k f).invals = d.invals := rfl
@[simp] theorem Dev.modTower_queues (d : Dev) (k : Nat) (f : Tower → Tower) : (d.modTower k f).queues = d.queues := rfl
@[simp] theorem Dev.modTower_heads (d : Dev) (k : Nat) (f : Tower → Tower) : (d.modTower k f).heads = d.heads := rfl
@[simp] theorem Dev.modTower_linkLog (d : Dev) (k : Nat) (f : Tower → Tower) : (d.modTower k f).linkLog = d.linkLog := rfl
@[simp] theorem Dev.modTower_eth (d : Dev) (k : Nat) (f : Tower → Tower) : (d.modTower k f).eth = d.eth := rfl
@[simp] theorem Dev.modTower_msix (d : Dev) (k : Nat) (f : Tower → Tower) : (d.modTower k f).msix = d.msix := rfl
@[simp] theorem Dev.modTower_bar2 (d : Dev) (k : Nat) (f : Tower → Tower) : (d.modTower k f).bar2 = d.bar2 := rfl
@[simp] theorem Dev.modTower_bar2Size (d : Dev) (k : Nat) (f : Tower → Tower) : (d.modTower k f).bar2Size = d.bar2Size := rfl
@[simp] theorem Dev.modTower_emerg (d : Dev) (k : Nat) (f : Tower → Tower) : (d.modTower k f).emerg = d.emerg := rfl
@[simp] theorem Dev.modTower_mgmt (d : Dev) (k : Nat) (f : Tower → Tower) : (d.modTower k f).mgmt = d.mgmt := rfl
@[simp] theorem Dev.modTower_seen (d : Dev) (k : Nat) (f : Tower → Tower) : (d.modTower k f).seen = d.seen := rfl
@[simp] theorem Dev.modTower_uciUp (d : Dev) (k : Nat) (f : Tower → Tower) : (d.modTower k f).uciUp = d.uciUp := rfl
@[simp] theorem Dev.modTower_tlb (d : Dev) (k : Nat) (f : Tower → Tower) : (d.modTower k f).tlb = d.tlb := rfl
@[simp] theorem Dev.modTower_now (d : Dev) (k : Nat) (f : Tower → Tower) : (d.modTower k f).now = d.now := rfl
@[simp] theorem Dev.modTower_asleep (d : Dev) (k : Nat) (f : Tower → Tower) : (d.modTower k f).asleep = d.asleep := rfl
@[simp] theorem Dev.modTower_turn (d : Dev) (k : Nat) (f : Tower → Tower) : (d.modTower k f).turn = d.turn := rfl
@[simp] theorem Dev.modTower_swept (d : Dev) (k : Nat) (f : Tower → Tower) : (d.modTower k f).swept = d.swept := rfl
@[simp] theorem Dev.modTower_took (d : Dev) (k : Nat) (f : Tower → Tower) : (d.modTower k f).took = d.took := rfl
@[simp] theorem Dev.modTower_cur (d : Dev) (k : Nat) (f : Tower → Tower) : (d.modTower k f).cur = d.cur := rfl
@[simp] theorem Dev.modTower_agenda (d : Dev) (k : Nat) (f : Tower → Tower) : (d.modTower k f).agenda = d.agenda := rfl
@[simp] theorem Dev.modTower_choice (d : Dev) (k : Nat) (f : Tower → Tower) : (d.modTower k f).choice = d.choice := rfl
@[simp] theorem Dev.modTower_tick (d : Dev) (k : Nat) (f : Tower → Tower) : (d.modTower k f).tick = d.tick := rfl
@[simp] theorem Dev.modTower_free (d : Dev) (k : Nat) (f : Tower → Tower) : (d.modTower k f).free = d.free := rfl
@[simp] theorem Dev.modTower_hostData (d : Dev) (k : Nat) (f : Tower → Tower) : (d.modTower k f).hostData = d.hostData := rfl
@[simp] theorem Dev.modTower_hostUr (d : Dev) (k : Nat) (f : Tower → Tower) : (d.modTower k f).hostUr = d.hostUr := rfl

/-! `Dev.modCtx` changes `ctxs` alone. -/

@[simp] theorem Dev.modCtx_mem (d : Dev) (k : Nat) (f : Ctx → Ctx) : (d.modCtx k f).mem = d.mem := rfl
@[simp] theorem Dev.modCtx_warps (d : Dev) (k : Nat) (f : Ctx → Ctx) : (d.modCtx k f).warps = d.warps := rfl
@[simp] theorem Dev.modCtx_groups (d : Dev) (k : Nat) (f : Ctx → Ctx) : (d.modCtx k f).groups = d.groups := rfl
@[simp] theorem Dev.modCtx_nextGid (d : Dev) (k : Nat) (f : Ctx → Ctx) : (d.modCtx k f).nextGid = d.nextGid := rfl
@[simp] theorem Dev.modCtx_cores (d : Dev) (k : Nat) (f : Ctx → Ctx) : (d.modCtx k f).cores = d.cores := rfl
@[simp] theorem Dev.modCtx_cols (d : Dev) (k : Nat) (f : Ctx → Ctx) : (d.modCtx k f).cols = d.cols := rfl
@[simp] theorem Dev.modCtx_towers (d : Dev) (k : Nat) (f : Ctx → Ctx) : (d.modCtx k f).towers = d.towers := rfl
@[simp] theorem Dev.modCtx_launches (d : Dev) (k : Nat) (f : Ctx → Ctx) : (d.modCtx k f).launches = d.launches := rfl
@[simp] theorem Dev.modCtx_nextLaunch (d : Dev) (k : Nat) (f : Ctx → Ctx) : (d.modCtx k f).nextLaunch = d.nextLaunch := rfl
@[simp] theorem Dev.modCtx_saved (d : Dev) (k : Nat) (f : Ctx → Ctx) : (d.modCtx k f).saved = d.saved := rfl
@[simp] theorem Dev.modCtx_walking (d : Dev) (k : Nat) (f : Ctx → Ctx) : (d.modCtx k f).walking = d.walking := rfl
@[simp] theorem Dev.modCtx_invals (d : Dev) (k : Nat) (f : Ctx → Ctx) : (d.modCtx k f).invals = d.invals := rfl
@[simp] theorem Dev.modCtx_queues (d : Dev) (k : Nat) (f : Ctx → Ctx) : (d.modCtx k f).queues = d.queues := rfl
@[simp] theorem Dev.modCtx_heads (d : Dev) (k : Nat) (f : Ctx → Ctx) : (d.modCtx k f).heads = d.heads := rfl
@[simp] theorem Dev.modCtx_linkLog (d : Dev) (k : Nat) (f : Ctx → Ctx) : (d.modCtx k f).linkLog = d.linkLog := rfl
@[simp] theorem Dev.modCtx_eth (d : Dev) (k : Nat) (f : Ctx → Ctx) : (d.modCtx k f).eth = d.eth := rfl
@[simp] theorem Dev.modCtx_msix (d : Dev) (k : Nat) (f : Ctx → Ctx) : (d.modCtx k f).msix = d.msix := rfl
@[simp] theorem Dev.modCtx_bar2 (d : Dev) (k : Nat) (f : Ctx → Ctx) : (d.modCtx k f).bar2 = d.bar2 := rfl
@[simp] theorem Dev.modCtx_bar2Size (d : Dev) (k : Nat) (f : Ctx → Ctx) : (d.modCtx k f).bar2Size = d.bar2Size := rfl
@[simp] theorem Dev.modCtx_emerg (d : Dev) (k : Nat) (f : Ctx → Ctx) : (d.modCtx k f).emerg = d.emerg := rfl
@[simp] theorem Dev.modCtx_mgmt (d : Dev) (k : Nat) (f : Ctx → Ctx) : (d.modCtx k f).mgmt = d.mgmt := rfl
@[simp] theorem Dev.modCtx_seen (d : Dev) (k : Nat) (f : Ctx → Ctx) : (d.modCtx k f).seen = d.seen := rfl
@[simp] theorem Dev.modCtx_uciUp (d : Dev) (k : Nat) (f : Ctx → Ctx) : (d.modCtx k f).uciUp = d.uciUp := rfl
@[simp] theorem Dev.modCtx_tlb (d : Dev) (k : Nat) (f : Ctx → Ctx) : (d.modCtx k f).tlb = d.tlb := rfl
@[simp] theorem Dev.modCtx_now (d : Dev) (k : Nat) (f : Ctx → Ctx) : (d.modCtx k f).now = d.now := rfl
@[simp] theorem Dev.modCtx_asleep (d : Dev) (k : Nat) (f : Ctx → Ctx) : (d.modCtx k f).asleep = d.asleep := rfl
@[simp] theorem Dev.modCtx_turn (d : Dev) (k : Nat) (f : Ctx → Ctx) : (d.modCtx k f).turn = d.turn := rfl
@[simp] theorem Dev.modCtx_swept (d : Dev) (k : Nat) (f : Ctx → Ctx) : (d.modCtx k f).swept = d.swept := rfl
@[simp] theorem Dev.modCtx_took (d : Dev) (k : Nat) (f : Ctx → Ctx) : (d.modCtx k f).took = d.took := rfl
@[simp] theorem Dev.modCtx_cur (d : Dev) (k : Nat) (f : Ctx → Ctx) : (d.modCtx k f).cur = d.cur := rfl
@[simp] theorem Dev.modCtx_agenda (d : Dev) (k : Nat) (f : Ctx → Ctx) : (d.modCtx k f).agenda = d.agenda := rfl
@[simp] theorem Dev.modCtx_choice (d : Dev) (k : Nat) (f : Ctx → Ctx) : (d.modCtx k f).choice = d.choice := rfl
@[simp] theorem Dev.modCtx_tick (d : Dev) (k : Nat) (f : Ctx → Ctx) : (d.modCtx k f).tick = d.tick := rfl
@[simp] theorem Dev.modCtx_free (d : Dev) (k : Nat) (f : Ctx → Ctx) : (d.modCtx k f).free = d.free := rfl
@[simp] theorem Dev.modCtx_hostData (d : Dev) (k : Nat) (f : Ctx → Ctx) : (d.modCtx k f).hostData = d.hostData := rfl
@[simp] theorem Dev.modCtx_hostUr (d : Dev) (k : Nat) (f : Ctx → Ctx) : (d.modCtx k f).hostUr = d.hostUr := rfl

/-! `Dev.modQueue` changes `queues` alone. -/

@[simp] theorem Dev.modQueue_mem (d : Dev) (k : Nat) (f : Queue → Queue) : (d.modQueue k f).mem = d.mem := rfl
@[simp] theorem Dev.modQueue_warps (d : Dev) (k : Nat) (f : Queue → Queue) : (d.modQueue k f).warps = d.warps := rfl
@[simp] theorem Dev.modQueue_groups (d : Dev) (k : Nat) (f : Queue → Queue) : (d.modQueue k f).groups = d.groups := rfl
@[simp] theorem Dev.modQueue_nextGid (d : Dev) (k : Nat) (f : Queue → Queue) : (d.modQueue k f).nextGid = d.nextGid := rfl
@[simp] theorem Dev.modQueue_cores (d : Dev) (k : Nat) (f : Queue → Queue) : (d.modQueue k f).cores = d.cores := rfl
@[simp] theorem Dev.modQueue_cols (d : Dev) (k : Nat) (f : Queue → Queue) : (d.modQueue k f).cols = d.cols := rfl
@[simp] theorem Dev.modQueue_towers (d : Dev) (k : Nat) (f : Queue → Queue) : (d.modQueue k f).towers = d.towers := rfl
@[simp] theorem Dev.modQueue_launches (d : Dev) (k : Nat) (f : Queue → Queue) : (d.modQueue k f).launches = d.launches := rfl
@[simp] theorem Dev.modQueue_nextLaunch (d : Dev) (k : Nat) (f : Queue → Queue) : (d.modQueue k f).nextLaunch = d.nextLaunch := rfl
@[simp] theorem Dev.modQueue_ctxs (d : Dev) (k : Nat) (f : Queue → Queue) : (d.modQueue k f).ctxs = d.ctxs := rfl
@[simp] theorem Dev.modQueue_saved (d : Dev) (k : Nat) (f : Queue → Queue) : (d.modQueue k f).saved = d.saved := rfl
@[simp] theorem Dev.modQueue_walking (d : Dev) (k : Nat) (f : Queue → Queue) : (d.modQueue k f).walking = d.walking := rfl
@[simp] theorem Dev.modQueue_invals (d : Dev) (k : Nat) (f : Queue → Queue) : (d.modQueue k f).invals = d.invals := rfl
@[simp] theorem Dev.modQueue_heads (d : Dev) (k : Nat) (f : Queue → Queue) : (d.modQueue k f).heads = d.heads := rfl
@[simp] theorem Dev.modQueue_linkLog (d : Dev) (k : Nat) (f : Queue → Queue) : (d.modQueue k f).linkLog = d.linkLog := rfl
@[simp] theorem Dev.modQueue_eth (d : Dev) (k : Nat) (f : Queue → Queue) : (d.modQueue k f).eth = d.eth := rfl
@[simp] theorem Dev.modQueue_msix (d : Dev) (k : Nat) (f : Queue → Queue) : (d.modQueue k f).msix = d.msix := rfl
@[simp] theorem Dev.modQueue_bar2 (d : Dev) (k : Nat) (f : Queue → Queue) : (d.modQueue k f).bar2 = d.bar2 := rfl
@[simp] theorem Dev.modQueue_bar2Size (d : Dev) (k : Nat) (f : Queue → Queue) : (d.modQueue k f).bar2Size = d.bar2Size := rfl
@[simp] theorem Dev.modQueue_emerg (d : Dev) (k : Nat) (f : Queue → Queue) : (d.modQueue k f).emerg = d.emerg := rfl
@[simp] theorem Dev.modQueue_mgmt (d : Dev) (k : Nat) (f : Queue → Queue) : (d.modQueue k f).mgmt = d.mgmt := rfl
@[simp] theorem Dev.modQueue_seen (d : Dev) (k : Nat) (f : Queue → Queue) : (d.modQueue k f).seen = d.seen := rfl
@[simp] theorem Dev.modQueue_uciUp (d : Dev) (k : Nat) (f : Queue → Queue) : (d.modQueue k f).uciUp = d.uciUp := rfl
@[simp] theorem Dev.modQueue_tlb (d : Dev) (k : Nat) (f : Queue → Queue) : (d.modQueue k f).tlb = d.tlb := rfl
@[simp] theorem Dev.modQueue_now (d : Dev) (k : Nat) (f : Queue → Queue) : (d.modQueue k f).now = d.now := rfl
@[simp] theorem Dev.modQueue_asleep (d : Dev) (k : Nat) (f : Queue → Queue) : (d.modQueue k f).asleep = d.asleep := rfl
@[simp] theorem Dev.modQueue_turn (d : Dev) (k : Nat) (f : Queue → Queue) : (d.modQueue k f).turn = d.turn := rfl
@[simp] theorem Dev.modQueue_swept (d : Dev) (k : Nat) (f : Queue → Queue) : (d.modQueue k f).swept = d.swept := rfl
@[simp] theorem Dev.modQueue_took (d : Dev) (k : Nat) (f : Queue → Queue) : (d.modQueue k f).took = d.took := rfl
@[simp] theorem Dev.modQueue_cur (d : Dev) (k : Nat) (f : Queue → Queue) : (d.modQueue k f).cur = d.cur := rfl
@[simp] theorem Dev.modQueue_agenda (d : Dev) (k : Nat) (f : Queue → Queue) : (d.modQueue k f).agenda = d.agenda := rfl
@[simp] theorem Dev.modQueue_choice (d : Dev) (k : Nat) (f : Queue → Queue) : (d.modQueue k f).choice = d.choice := rfl
@[simp] theorem Dev.modQueue_tick (d : Dev) (k : Nat) (f : Queue → Queue) : (d.modQueue k f).tick = d.tick := rfl
@[simp] theorem Dev.modQueue_free (d : Dev) (k : Nat) (f : Queue → Queue) : (d.modQueue k f).free = d.free := rfl
@[simp] theorem Dev.modQueue_hostData (d : Dev) (k : Nat) (f : Queue → Queue) : (d.modQueue k f).hostData = d.hostData := rfl
@[simp] theorem Dev.modQueue_hostUr (d : Dev) (k : Nat) (f : Queue → Queue) : (d.modQueue k f).hostUr = d.hostUr := rfl

/-! `Dev.modHead` changes `heads` alone. -/

@[simp] theorem Dev.modHead_mem (d : Dev) (k : Nat) (f : Head → Head) : (d.modHead k f).mem = d.mem := rfl
@[simp] theorem Dev.modHead_warps (d : Dev) (k : Nat) (f : Head → Head) : (d.modHead k f).warps = d.warps := rfl
@[simp] theorem Dev.modHead_groups (d : Dev) (k : Nat) (f : Head → Head) : (d.modHead k f).groups = d.groups := rfl
@[simp] theorem Dev.modHead_nextGid (d : Dev) (k : Nat) (f : Head → Head) : (d.modHead k f).nextGid = d.nextGid := rfl
@[simp] theorem Dev.modHead_cores (d : Dev) (k : Nat) (f : Head → Head) : (d.modHead k f).cores = d.cores := rfl
@[simp] theorem Dev.modHead_cols (d : Dev) (k : Nat) (f : Head → Head) : (d.modHead k f).cols = d.cols := rfl
@[simp] theorem Dev.modHead_towers (d : Dev) (k : Nat) (f : Head → Head) : (d.modHead k f).towers = d.towers := rfl
@[simp] theorem Dev.modHead_launches (d : Dev) (k : Nat) (f : Head → Head) : (d.modHead k f).launches = d.launches := rfl
@[simp] theorem Dev.modHead_nextLaunch (d : Dev) (k : Nat) (f : Head → Head) : (d.modHead k f).nextLaunch = d.nextLaunch := rfl
@[simp] theorem Dev.modHead_ctxs (d : Dev) (k : Nat) (f : Head → Head) : (d.modHead k f).ctxs = d.ctxs := rfl
@[simp] theorem Dev.modHead_saved (d : Dev) (k : Nat) (f : Head → Head) : (d.modHead k f).saved = d.saved := rfl
@[simp] theorem Dev.modHead_walking (d : Dev) (k : Nat) (f : Head → Head) : (d.modHead k f).walking = d.walking := rfl
@[simp] theorem Dev.modHead_invals (d : Dev) (k : Nat) (f : Head → Head) : (d.modHead k f).invals = d.invals := rfl
@[simp] theorem Dev.modHead_queues (d : Dev) (k : Nat) (f : Head → Head) : (d.modHead k f).queues = d.queues := rfl
@[simp] theorem Dev.modHead_linkLog (d : Dev) (k : Nat) (f : Head → Head) : (d.modHead k f).linkLog = d.linkLog := rfl
@[simp] theorem Dev.modHead_eth (d : Dev) (k : Nat) (f : Head → Head) : (d.modHead k f).eth = d.eth := rfl
@[simp] theorem Dev.modHead_msix (d : Dev) (k : Nat) (f : Head → Head) : (d.modHead k f).msix = d.msix := rfl
@[simp] theorem Dev.modHead_bar2 (d : Dev) (k : Nat) (f : Head → Head) : (d.modHead k f).bar2 = d.bar2 := rfl
@[simp] theorem Dev.modHead_bar2Size (d : Dev) (k : Nat) (f : Head → Head) : (d.modHead k f).bar2Size = d.bar2Size := rfl
@[simp] theorem Dev.modHead_emerg (d : Dev) (k : Nat) (f : Head → Head) : (d.modHead k f).emerg = d.emerg := rfl
@[simp] theorem Dev.modHead_mgmt (d : Dev) (k : Nat) (f : Head → Head) : (d.modHead k f).mgmt = d.mgmt := rfl
@[simp] theorem Dev.modHead_seen (d : Dev) (k : Nat) (f : Head → Head) : (d.modHead k f).seen = d.seen := rfl
@[simp] theorem Dev.modHead_uciUp (d : Dev) (k : Nat) (f : Head → Head) : (d.modHead k f).uciUp = d.uciUp := rfl
@[simp] theorem Dev.modHead_tlb (d : Dev) (k : Nat) (f : Head → Head) : (d.modHead k f).tlb = d.tlb := rfl
@[simp] theorem Dev.modHead_now (d : Dev) (k : Nat) (f : Head → Head) : (d.modHead k f).now = d.now := rfl
@[simp] theorem Dev.modHead_asleep (d : Dev) (k : Nat) (f : Head → Head) : (d.modHead k f).asleep = d.asleep := rfl
@[simp] theorem Dev.modHead_turn (d : Dev) (k : Nat) (f : Head → Head) : (d.modHead k f).turn = d.turn := rfl
@[simp] theorem Dev.modHead_swept (d : Dev) (k : Nat) (f : Head → Head) : (d.modHead k f).swept = d.swept := rfl
@[simp] theorem Dev.modHead_took (d : Dev) (k : Nat) (f : Head → Head) : (d.modHead k f).took = d.took := rfl
@[simp] theorem Dev.modHead_cur (d : Dev) (k : Nat) (f : Head → Head) : (d.modHead k f).cur = d.cur := rfl
@[simp] theorem Dev.modHead_agenda (d : Dev) (k : Nat) (f : Head → Head) : (d.modHead k f).agenda = d.agenda := rfl
@[simp] theorem Dev.modHead_choice (d : Dev) (k : Nat) (f : Head → Head) : (d.modHead k f).choice = d.choice := rfl
@[simp] theorem Dev.modHead_tick (d : Dev) (k : Nat) (f : Head → Head) : (d.modHead k f).tick = d.tick := rfl
@[simp] theorem Dev.modHead_free (d : Dev) (k : Nat) (f : Head → Head) : (d.modHead k f).free = d.free := rfl
@[simp] theorem Dev.modHead_hostData (d : Dev) (k : Nat) (f : Head → Head) : (d.modHead k f).hostData = d.hostData := rfl
@[simp] theorem Dev.modHead_hostUr (d : Dev) (k : Nat) (f : Head → Head) : (d.modHead k f).hostUr = d.hostUr := rfl

/-! `Dev.modLaunch` changes `launches` alone. -/

@[simp] theorem Dev.modLaunch_mem (d : Dev) (k : Nat) (f : Launch → Launch) : (d.modLaunch k f).mem = d.mem := rfl
@[simp] theorem Dev.modLaunch_warps (d : Dev) (k : Nat) (f : Launch → Launch) : (d.modLaunch k f).warps = d.warps := rfl
@[simp] theorem Dev.modLaunch_groups (d : Dev) (k : Nat) (f : Launch → Launch) : (d.modLaunch k f).groups = d.groups := rfl
@[simp] theorem Dev.modLaunch_nextGid (d : Dev) (k : Nat) (f : Launch → Launch) : (d.modLaunch k f).nextGid = d.nextGid := rfl
@[simp] theorem Dev.modLaunch_cores (d : Dev) (k : Nat) (f : Launch → Launch) : (d.modLaunch k f).cores = d.cores := rfl
@[simp] theorem Dev.modLaunch_cols (d : Dev) (k : Nat) (f : Launch → Launch) : (d.modLaunch k f).cols = d.cols := rfl
@[simp] theorem Dev.modLaunch_towers (d : Dev) (k : Nat) (f : Launch → Launch) : (d.modLaunch k f).towers = d.towers := rfl
@[simp] theorem Dev.modLaunch_nextLaunch (d : Dev) (k : Nat) (f : Launch → Launch) : (d.modLaunch k f).nextLaunch = d.nextLaunch := rfl
@[simp] theorem Dev.modLaunch_ctxs (d : Dev) (k : Nat) (f : Launch → Launch) : (d.modLaunch k f).ctxs = d.ctxs := rfl
@[simp] theorem Dev.modLaunch_saved (d : Dev) (k : Nat) (f : Launch → Launch) : (d.modLaunch k f).saved = d.saved := rfl
@[simp] theorem Dev.modLaunch_walking (d : Dev) (k : Nat) (f : Launch → Launch) : (d.modLaunch k f).walking = d.walking := rfl
@[simp] theorem Dev.modLaunch_invals (d : Dev) (k : Nat) (f : Launch → Launch) : (d.modLaunch k f).invals = d.invals := rfl
@[simp] theorem Dev.modLaunch_queues (d : Dev) (k : Nat) (f : Launch → Launch) : (d.modLaunch k f).queues = d.queues := rfl
@[simp] theorem Dev.modLaunch_heads (d : Dev) (k : Nat) (f : Launch → Launch) : (d.modLaunch k f).heads = d.heads := rfl
@[simp] theorem Dev.modLaunch_linkLog (d : Dev) (k : Nat) (f : Launch → Launch) : (d.modLaunch k f).linkLog = d.linkLog := rfl
@[simp] theorem Dev.modLaunch_eth (d : Dev) (k : Nat) (f : Launch → Launch) : (d.modLaunch k f).eth = d.eth := rfl
@[simp] theorem Dev.modLaunch_msix (d : Dev) (k : Nat) (f : Launch → Launch) : (d.modLaunch k f).msix = d.msix := rfl
@[simp] theorem Dev.modLaunch_bar2 (d : Dev) (k : Nat) (f : Launch → Launch) : (d.modLaunch k f).bar2 = d.bar2 := rfl
@[simp] theorem Dev.modLaunch_bar2Size (d : Dev) (k : Nat) (f : Launch → Launch) : (d.modLaunch k f).bar2Size = d.bar2Size := rfl
@[simp] theorem Dev.modLaunch_emerg (d : Dev) (k : Nat) (f : Launch → Launch) : (d.modLaunch k f).emerg = d.emerg := rfl
@[simp] theorem Dev.modLaunch_mgmt (d : Dev) (k : Nat) (f : Launch → Launch) : (d.modLaunch k f).mgmt = d.mgmt := rfl
@[simp] theorem Dev.modLaunch_seen (d : Dev) (k : Nat) (f : Launch → Launch) : (d.modLaunch k f).seen = d.seen := rfl
@[simp] theorem Dev.modLaunch_uciUp (d : Dev) (k : Nat) (f : Launch → Launch) : (d.modLaunch k f).uciUp = d.uciUp := rfl
@[simp] theorem Dev.modLaunch_tlb (d : Dev) (k : Nat) (f : Launch → Launch) : (d.modLaunch k f).tlb = d.tlb := rfl
@[simp] theorem Dev.modLaunch_now (d : Dev) (k : Nat) (f : Launch → Launch) : (d.modLaunch k f).now = d.now := rfl
@[simp] theorem Dev.modLaunch_asleep (d : Dev) (k : Nat) (f : Launch → Launch) : (d.modLaunch k f).asleep = d.asleep := rfl
@[simp] theorem Dev.modLaunch_turn (d : Dev) (k : Nat) (f : Launch → Launch) : (d.modLaunch k f).turn = d.turn := rfl
@[simp] theorem Dev.modLaunch_swept (d : Dev) (k : Nat) (f : Launch → Launch) : (d.modLaunch k f).swept = d.swept := rfl
@[simp] theorem Dev.modLaunch_took (d : Dev) (k : Nat) (f : Launch → Launch) : (d.modLaunch k f).took = d.took := rfl
@[simp] theorem Dev.modLaunch_cur (d : Dev) (k : Nat) (f : Launch → Launch) : (d.modLaunch k f).cur = d.cur := rfl
@[simp] theorem Dev.modLaunch_agenda (d : Dev) (k : Nat) (f : Launch → Launch) : (d.modLaunch k f).agenda = d.agenda := rfl
@[simp] theorem Dev.modLaunch_choice (d : Dev) (k : Nat) (f : Launch → Launch) : (d.modLaunch k f).choice = d.choice := rfl
@[simp] theorem Dev.modLaunch_tick (d : Dev) (k : Nat) (f : Launch → Launch) : (d.modLaunch k f).tick = d.tick := rfl
@[simp] theorem Dev.modLaunch_free (d : Dev) (k : Nat) (f : Launch → Launch) : (d.modLaunch k f).free = d.free := rfl
@[simp] theorem Dev.modLaunch_hostData (d : Dev) (k : Nat) (f : Launch → Launch) : (d.modLaunch k f).hostData = d.hostData := rfl
@[simp] theorem Dev.modLaunch_hostUr (d : Dev) (k : Nat) (f : Launch → Launch) : (d.modLaunch k f).hostUr = d.hostUr := rfl

/-! `Dev.modMgmt` changes `mgmt` alone. -/

@[simp] theorem Dev.modMgmt_mem (d : Dev) (f : Mgmt → Mgmt) : (d.modMgmt f).mem = d.mem := rfl
@[simp] theorem Dev.modMgmt_warps (d : Dev) (f : Mgmt → Mgmt) : (d.modMgmt f).warps = d.warps := rfl
@[simp] theorem Dev.modMgmt_groups (d : Dev) (f : Mgmt → Mgmt) : (d.modMgmt f).groups = d.groups := rfl
@[simp] theorem Dev.modMgmt_nextGid (d : Dev) (f : Mgmt → Mgmt) : (d.modMgmt f).nextGid = d.nextGid := rfl
@[simp] theorem Dev.modMgmt_cores (d : Dev) (f : Mgmt → Mgmt) : (d.modMgmt f).cores = d.cores := rfl
@[simp] theorem Dev.modMgmt_cols (d : Dev) (f : Mgmt → Mgmt) : (d.modMgmt f).cols = d.cols := rfl
@[simp] theorem Dev.modMgmt_towers (d : Dev) (f : Mgmt → Mgmt) : (d.modMgmt f).towers = d.towers := rfl
@[simp] theorem Dev.modMgmt_launches (d : Dev) (f : Mgmt → Mgmt) : (d.modMgmt f).launches = d.launches := rfl
@[simp] theorem Dev.modMgmt_nextLaunch (d : Dev) (f : Mgmt → Mgmt) : (d.modMgmt f).nextLaunch = d.nextLaunch := rfl
@[simp] theorem Dev.modMgmt_ctxs (d : Dev) (f : Mgmt → Mgmt) : (d.modMgmt f).ctxs = d.ctxs := rfl
@[simp] theorem Dev.modMgmt_saved (d : Dev) (f : Mgmt → Mgmt) : (d.modMgmt f).saved = d.saved := rfl
@[simp] theorem Dev.modMgmt_walking (d : Dev) (f : Mgmt → Mgmt) : (d.modMgmt f).walking = d.walking := rfl
@[simp] theorem Dev.modMgmt_invals (d : Dev) (f : Mgmt → Mgmt) : (d.modMgmt f).invals = d.invals := rfl
@[simp] theorem Dev.modMgmt_queues (d : Dev) (f : Mgmt → Mgmt) : (d.modMgmt f).queues = d.queues := rfl
@[simp] theorem Dev.modMgmt_heads (d : Dev) (f : Mgmt → Mgmt) : (d.modMgmt f).heads = d.heads := rfl
@[simp] theorem Dev.modMgmt_linkLog (d : Dev) (f : Mgmt → Mgmt) : (d.modMgmt f).linkLog = d.linkLog := rfl
@[simp] theorem Dev.modMgmt_eth (d : Dev) (f : Mgmt → Mgmt) : (d.modMgmt f).eth = d.eth := rfl
@[simp] theorem Dev.modMgmt_msix (d : Dev) (f : Mgmt → Mgmt) : (d.modMgmt f).msix = d.msix := rfl
@[simp] theorem Dev.modMgmt_bar2 (d : Dev) (f : Mgmt → Mgmt) : (d.modMgmt f).bar2 = d.bar2 := rfl
@[simp] theorem Dev.modMgmt_bar2Size (d : Dev) (f : Mgmt → Mgmt) : (d.modMgmt f).bar2Size = d.bar2Size := rfl
@[simp] theorem Dev.modMgmt_emerg (d : Dev) (f : Mgmt → Mgmt) : (d.modMgmt f).emerg = d.emerg := rfl
@[simp] theorem Dev.modMgmt_seen (d : Dev) (f : Mgmt → Mgmt) : (d.modMgmt f).seen = d.seen := rfl
@[simp] theorem Dev.modMgmt_uciUp (d : Dev) (f : Mgmt → Mgmt) : (d.modMgmt f).uciUp = d.uciUp := rfl
@[simp] theorem Dev.modMgmt_tlb (d : Dev) (f : Mgmt → Mgmt) : (d.modMgmt f).tlb = d.tlb := rfl
@[simp] theorem Dev.modMgmt_now (d : Dev) (f : Mgmt → Mgmt) : (d.modMgmt f).now = d.now := rfl
@[simp] theorem Dev.modMgmt_asleep (d : Dev) (f : Mgmt → Mgmt) : (d.modMgmt f).asleep = d.asleep := rfl
@[simp] theorem Dev.modMgmt_turn (d : Dev) (f : Mgmt → Mgmt) : (d.modMgmt f).turn = d.turn := rfl
@[simp] theorem Dev.modMgmt_swept (d : Dev) (f : Mgmt → Mgmt) : (d.modMgmt f).swept = d.swept := rfl
@[simp] theorem Dev.modMgmt_took (d : Dev) (f : Mgmt → Mgmt) : (d.modMgmt f).took = d.took := rfl
@[simp] theorem Dev.modMgmt_cur (d : Dev) (f : Mgmt → Mgmt) : (d.modMgmt f).cur = d.cur := rfl
@[simp] theorem Dev.modMgmt_agenda (d : Dev) (f : Mgmt → Mgmt) : (d.modMgmt f).agenda = d.agenda := rfl
@[simp] theorem Dev.modMgmt_choice (d : Dev) (f : Mgmt → Mgmt) : (d.modMgmt f).choice = d.choice := rfl
@[simp] theorem Dev.modMgmt_tick (d : Dev) (f : Mgmt → Mgmt) : (d.modMgmt f).tick = d.tick := rfl
@[simp] theorem Dev.modMgmt_free (d : Dev) (f : Mgmt → Mgmt) : (d.modMgmt f).free = d.free := rfl
@[simp] theorem Dev.modMgmt_hostData (d : Dev) (f : Mgmt → Mgmt) : (d.modMgmt f).hostData = d.hostData := rfl
@[simp] theorem Dev.modMgmt_hostUr (d : Dev) (f : Mgmt → Mgmt) : (d.modMgmt f).hostUr = d.hostUr := rfl

/-! `Dev.modCur` changes `warps` alone. -/

@[simp] theorem Dev.modCur_mem (d : Dev) (f : Warp → Warp) : (d.modCur f).mem = d.mem := rfl
@[simp] theorem Dev.modCur_groups (d : Dev) (f : Warp → Warp) : (d.modCur f).groups = d.groups := rfl
@[simp] theorem Dev.modCur_nextGid (d : Dev) (f : Warp → Warp) : (d.modCur f).nextGid = d.nextGid := rfl
@[simp] theorem Dev.modCur_cores (d : Dev) (f : Warp → Warp) : (d.modCur f).cores = d.cores := rfl
@[simp] theorem Dev.modCur_cols (d : Dev) (f : Warp → Warp) : (d.modCur f).cols = d.cols := rfl
@[simp] theorem Dev.modCur_towers (d : Dev) (f : Warp → Warp) : (d.modCur f).towers = d.towers := rfl
@[simp] theorem Dev.modCur_launches (d : Dev) (f : Warp → Warp) : (d.modCur f).launches = d.launches := rfl
@[simp] theorem Dev.modCur_nextLaunch (d : Dev) (f : Warp → Warp) : (d.modCur f).nextLaunch = d.nextLaunch := rfl
@[simp] theorem Dev.modCur_ctxs (d : Dev) (f : Warp → Warp) : (d.modCur f).ctxs = d.ctxs := rfl
@[simp] theorem Dev.modCur_saved (d : Dev) (f : Warp → Warp) : (d.modCur f).saved = d.saved := rfl
@[simp] theorem Dev.modCur_walking (d : Dev) (f : Warp → Warp) : (d.modCur f).walking = d.walking := rfl
@[simp] theorem Dev.modCur_invals (d : Dev) (f : Warp → Warp) : (d.modCur f).invals = d.invals := rfl
@[simp] theorem Dev.modCur_queues (d : Dev) (f : Warp → Warp) : (d.modCur f).queues = d.queues := rfl
@[simp] theorem Dev.modCur_heads (d : Dev) (f : Warp → Warp) : (d.modCur f).heads = d.heads := rfl
@[simp] theorem Dev.modCur_linkLog (d : Dev) (f : Warp → Warp) : (d.modCur f).linkLog = d.linkLog := rfl
@[simp] theorem Dev.modCur_eth (d : Dev) (f : Warp → Warp) : (d.modCur f).eth = d.eth := rfl
@[simp] theorem Dev.modCur_msix (d : Dev) (f : Warp → Warp) : (d.modCur f).msix = d.msix := rfl
@[simp] theorem Dev.modCur_bar2 (d : Dev) (f : Warp → Warp) : (d.modCur f).bar2 = d.bar2 := rfl
@[simp] theorem Dev.modCur_bar2Size (d : Dev) (f : Warp → Warp) : (d.modCur f).bar2Size = d.bar2Size := rfl
@[simp] theorem Dev.modCur_emerg (d : Dev) (f : Warp → Warp) : (d.modCur f).emerg = d.emerg := rfl
@[simp] theorem Dev.modCur_mgmt (d : Dev) (f : Warp → Warp) : (d.modCur f).mgmt = d.mgmt := rfl
@[simp] theorem Dev.modCur_seen (d : Dev) (f : Warp → Warp) : (d.modCur f).seen = d.seen := rfl
@[simp] theorem Dev.modCur_uciUp (d : Dev) (f : Warp → Warp) : (d.modCur f).uciUp = d.uciUp := rfl
@[simp] theorem Dev.modCur_tlb (d : Dev) (f : Warp → Warp) : (d.modCur f).tlb = d.tlb := rfl
@[simp] theorem Dev.modCur_now (d : Dev) (f : Warp → Warp) : (d.modCur f).now = d.now := rfl
@[simp] theorem Dev.modCur_asleep (d : Dev) (f : Warp → Warp) : (d.modCur f).asleep = d.asleep := rfl
@[simp] theorem Dev.modCur_turn (d : Dev) (f : Warp → Warp) : (d.modCur f).turn = d.turn := rfl
@[simp] theorem Dev.modCur_swept (d : Dev) (f : Warp → Warp) : (d.modCur f).swept = d.swept := rfl
@[simp] theorem Dev.modCur_took (d : Dev) (f : Warp → Warp) : (d.modCur f).took = d.took := rfl
@[simp] theorem Dev.modCur_cur (d : Dev) (f : Warp → Warp) : (d.modCur f).cur = d.cur := rfl
@[simp] theorem Dev.modCur_agenda (d : Dev) (f : Warp → Warp) : (d.modCur f).agenda = d.agenda := rfl
@[simp] theorem Dev.modCur_choice (d : Dev) (f : Warp → Warp) : (d.modCur f).choice = d.choice := rfl
@[simp] theorem Dev.modCur_tick (d : Dev) (f : Warp → Warp) : (d.modCur f).tick = d.tick := rfl
@[simp] theorem Dev.modCur_free (d : Dev) (f : Warp → Warp) : (d.modCur f).free = d.free := rfl
@[simp] theorem Dev.modCur_hostData (d : Dev) (f : Warp → Warp) : (d.modCur f).hostData = d.hostData := rfl
@[simp] theorem Dev.modCur_hostUr (d : Dev) (f : Warp → Warp) : (d.modCur f).hostUr = d.hostUr := rfl

/-! `Dev.post` changes `agenda` alone. -/

@[simp] theorem Dev.post_mem (d : Dev) (i : Ev.Event) : (d.post i).mem = d.mem := rfl
@[simp] theorem Dev.post_warps (d : Dev) (i : Ev.Event) : (d.post i).warps = d.warps := rfl
@[simp] theorem Dev.post_groups (d : Dev) (i : Ev.Event) : (d.post i).groups = d.groups := rfl
@[simp] theorem Dev.post_nextGid (d : Dev) (i : Ev.Event) : (d.post i).nextGid = d.nextGid := rfl
@[simp] theorem Dev.post_cores (d : Dev) (i : Ev.Event) : (d.post i).cores = d.cores := rfl
@[simp] theorem Dev.post_cols (d : Dev) (i : Ev.Event) : (d.post i).cols = d.cols := rfl
@[simp] theorem Dev.post_towers (d : Dev) (i : Ev.Event) : (d.post i).towers = d.towers := rfl
@[simp] theorem Dev.post_launches (d : Dev) (i : Ev.Event) : (d.post i).launches = d.launches := rfl
@[simp] theorem Dev.post_nextLaunch (d : Dev) (i : Ev.Event) : (d.post i).nextLaunch = d.nextLaunch := rfl
@[simp] theorem Dev.post_ctxs (d : Dev) (i : Ev.Event) : (d.post i).ctxs = d.ctxs := rfl
@[simp] theorem Dev.post_saved (d : Dev) (i : Ev.Event) : (d.post i).saved = d.saved := rfl
@[simp] theorem Dev.post_walking (d : Dev) (i : Ev.Event) : (d.post i).walking = d.walking := rfl
@[simp] theorem Dev.post_invals (d : Dev) (i : Ev.Event) : (d.post i).invals = d.invals := rfl
@[simp] theorem Dev.post_queues (d : Dev) (i : Ev.Event) : (d.post i).queues = d.queues := rfl
@[simp] theorem Dev.post_heads (d : Dev) (i : Ev.Event) : (d.post i).heads = d.heads := rfl
@[simp] theorem Dev.post_linkLog (d : Dev) (i : Ev.Event) : (d.post i).linkLog = d.linkLog := rfl
@[simp] theorem Dev.post_eth (d : Dev) (i : Ev.Event) : (d.post i).eth = d.eth := rfl
@[simp] theorem Dev.post_msix (d : Dev) (i : Ev.Event) : (d.post i).msix = d.msix := rfl
@[simp] theorem Dev.post_bar2 (d : Dev) (i : Ev.Event) : (d.post i).bar2 = d.bar2 := rfl
@[simp] theorem Dev.post_bar2Size (d : Dev) (i : Ev.Event) : (d.post i).bar2Size = d.bar2Size := rfl
@[simp] theorem Dev.post_emerg (d : Dev) (i : Ev.Event) : (d.post i).emerg = d.emerg := rfl
@[simp] theorem Dev.post_mgmt (d : Dev) (i : Ev.Event) : (d.post i).mgmt = d.mgmt := rfl
@[simp] theorem Dev.post_seen (d : Dev) (i : Ev.Event) : (d.post i).seen = d.seen := rfl
@[simp] theorem Dev.post_uciUp (d : Dev) (i : Ev.Event) : (d.post i).uciUp = d.uciUp := rfl
@[simp] theorem Dev.post_tlb (d : Dev) (i : Ev.Event) : (d.post i).tlb = d.tlb := rfl
@[simp] theorem Dev.post_now (d : Dev) (i : Ev.Event) : (d.post i).now = d.now := rfl
@[simp] theorem Dev.post_asleep (d : Dev) (i : Ev.Event) : (d.post i).asleep = d.asleep := rfl
@[simp] theorem Dev.post_turn (d : Dev) (i : Ev.Event) : (d.post i).turn = d.turn := rfl
@[simp] theorem Dev.post_swept (d : Dev) (i : Ev.Event) : (d.post i).swept = d.swept := rfl
@[simp] theorem Dev.post_took (d : Dev) (i : Ev.Event) : (d.post i).took = d.took := rfl
@[simp] theorem Dev.post_cur (d : Dev) (i : Ev.Event) : (d.post i).cur = d.cur := rfl
@[simp] theorem Dev.post_choice (d : Dev) (i : Ev.Event) : (d.post i).choice = d.choice := rfl
@[simp] theorem Dev.post_tick (d : Dev) (i : Ev.Event) : (d.post i).tick = d.tick := rfl
@[simp] theorem Dev.post_free (d : Dev) (i : Ev.Event) : (d.post i).free = d.free := rfl
@[simp] theorem Dev.post_hostData (d : Dev) (i : Ev.Event) : (d.post i).hostData = d.hostData := rfl
@[simp] theorem Dev.post_hostUr (d : Dev) (i : Ev.Event) : (d.post i).hostUr = d.hostUr := rfl

/-! `Dev.putSr` changes `warps` alone. -/

@[simp] theorem Dev.putSr_mem (d : Dev) (n : Nat) (x : DWord) : (d.putSr n x).mem = d.mem := rfl
@[simp] theorem Dev.putSr_groups (d : Dev) (n : Nat) (x : DWord) : (d.putSr n x).groups = d.groups := rfl
@[simp] theorem Dev.putSr_nextGid (d : Dev) (n : Nat) (x : DWord) : (d.putSr n x).nextGid = d.nextGid := rfl
@[simp] theorem Dev.putSr_cores (d : Dev) (n : Nat) (x : DWord) : (d.putSr n x).cores = d.cores := rfl
@[simp] theorem Dev.putSr_cols (d : Dev) (n : Nat) (x : DWord) : (d.putSr n x).cols = d.cols := rfl
@[simp] theorem Dev.putSr_towers (d : Dev) (n : Nat) (x : DWord) : (d.putSr n x).towers = d.towers := rfl
@[simp] theorem Dev.putSr_launches (d : Dev) (n : Nat) (x : DWord) : (d.putSr n x).launches = d.launches := rfl
@[simp] theorem Dev.putSr_nextLaunch (d : Dev) (n : Nat) (x : DWord) : (d.putSr n x).nextLaunch = d.nextLaunch := rfl
@[simp] theorem Dev.putSr_ctxs (d : Dev) (n : Nat) (x : DWord) : (d.putSr n x).ctxs = d.ctxs := rfl
@[simp] theorem Dev.putSr_saved (d : Dev) (n : Nat) (x : DWord) : (d.putSr n x).saved = d.saved := rfl
@[simp] theorem Dev.putSr_walking (d : Dev) (n : Nat) (x : DWord) : (d.putSr n x).walking = d.walking := rfl
@[simp] theorem Dev.putSr_invals (d : Dev) (n : Nat) (x : DWord) : (d.putSr n x).invals = d.invals := rfl
@[simp] theorem Dev.putSr_queues (d : Dev) (n : Nat) (x : DWord) : (d.putSr n x).queues = d.queues := rfl
@[simp] theorem Dev.putSr_heads (d : Dev) (n : Nat) (x : DWord) : (d.putSr n x).heads = d.heads := rfl
@[simp] theorem Dev.putSr_linkLog (d : Dev) (n : Nat) (x : DWord) : (d.putSr n x).linkLog = d.linkLog := rfl
@[simp] theorem Dev.putSr_eth (d : Dev) (n : Nat) (x : DWord) : (d.putSr n x).eth = d.eth := rfl
@[simp] theorem Dev.putSr_msix (d : Dev) (n : Nat) (x : DWord) : (d.putSr n x).msix = d.msix := rfl
@[simp] theorem Dev.putSr_bar2 (d : Dev) (n : Nat) (x : DWord) : (d.putSr n x).bar2 = d.bar2 := rfl
@[simp] theorem Dev.putSr_bar2Size (d : Dev) (n : Nat) (x : DWord) : (d.putSr n x).bar2Size = d.bar2Size := rfl
@[simp] theorem Dev.putSr_emerg (d : Dev) (n : Nat) (x : DWord) : (d.putSr n x).emerg = d.emerg := rfl
@[simp] theorem Dev.putSr_mgmt (d : Dev) (n : Nat) (x : DWord) : (d.putSr n x).mgmt = d.mgmt := rfl
@[simp] theorem Dev.putSr_seen (d : Dev) (n : Nat) (x : DWord) : (d.putSr n x).seen = d.seen := rfl
@[simp] theorem Dev.putSr_uciUp (d : Dev) (n : Nat) (x : DWord) : (d.putSr n x).uciUp = d.uciUp := rfl
@[simp] theorem Dev.putSr_tlb (d : Dev) (n : Nat) (x : DWord) : (d.putSr n x).tlb = d.tlb := rfl
@[simp] theorem Dev.putSr_now (d : Dev) (n : Nat) (x : DWord) : (d.putSr n x).now = d.now := rfl
@[simp] theorem Dev.putSr_asleep (d : Dev) (n : Nat) (x : DWord) : (d.putSr n x).asleep = d.asleep := rfl
@[simp] theorem Dev.putSr_turn (d : Dev) (n : Nat) (x : DWord) : (d.putSr n x).turn = d.turn := rfl
@[simp] theorem Dev.putSr_swept (d : Dev) (n : Nat) (x : DWord) : (d.putSr n x).swept = d.swept := rfl
@[simp] theorem Dev.putSr_took (d : Dev) (n : Nat) (x : DWord) : (d.putSr n x).took = d.took := rfl
@[simp] theorem Dev.putSr_cur (d : Dev) (n : Nat) (x : DWord) : (d.putSr n x).cur = d.cur := rfl
@[simp] theorem Dev.putSr_agenda (d : Dev) (n : Nat) (x : DWord) : (d.putSr n x).agenda = d.agenda := rfl
@[simp] theorem Dev.putSr_choice (d : Dev) (n : Nat) (x : DWord) : (d.putSr n x).choice = d.choice := rfl
@[simp] theorem Dev.putSr_tick (d : Dev) (n : Nat) (x : DWord) : (d.putSr n x).tick = d.tick := rfl
@[simp] theorem Dev.putSr_free (d : Dev) (n : Nat) (x : DWord) : (d.putSr n x).free = d.free := rfl
@[simp] theorem Dev.putSr_hostData (d : Dev) (n : Nat) (x : DWord) : (d.putSr n x).hostData = d.hostData := rfl
@[simp] theorem Dev.putSr_hostUr (d : Dev) (n : Nat) (x : DWord) : (d.putSr n x).hostUr = d.hostUr := rfl

/-! `Dev.putLanes` changes `warps` alone. -/

@[simp] theorem Dev.putLanes_mem (d : Dev) (m : Word) (k n : Nat) (v : Nat → Nat → Word) : (d.putLanes m k n v).mem = d.mem := rfl
@[simp] theorem Dev.putLanes_groups (d : Dev) (m : Word) (k n : Nat) (v : Nat → Nat → Word) : (d.putLanes m k n v).groups = d.groups := rfl
@[simp] theorem Dev.putLanes_nextGid (d : Dev) (m : Word) (k n : Nat) (v : Nat → Nat → Word) : (d.putLanes m k n v).nextGid = d.nextGid := rfl
@[simp] theorem Dev.putLanes_cores (d : Dev) (m : Word) (k n : Nat) (v : Nat → Nat → Word) : (d.putLanes m k n v).cores = d.cores := rfl
@[simp] theorem Dev.putLanes_cols (d : Dev) (m : Word) (k n : Nat) (v : Nat → Nat → Word) : (d.putLanes m k n v).cols = d.cols := rfl
@[simp] theorem Dev.putLanes_towers (d : Dev) (m : Word) (k n : Nat) (v : Nat → Nat → Word) : (d.putLanes m k n v).towers = d.towers := rfl
@[simp] theorem Dev.putLanes_launches (d : Dev) (m : Word) (k n : Nat) (v : Nat → Nat → Word) : (d.putLanes m k n v).launches = d.launches := rfl
@[simp] theorem Dev.putLanes_nextLaunch (d : Dev) (m : Word) (k n : Nat) (v : Nat → Nat → Word) : (d.putLanes m k n v).nextLaunch = d.nextLaunch := rfl
@[simp] theorem Dev.putLanes_ctxs (d : Dev) (m : Word) (k n : Nat) (v : Nat → Nat → Word) : (d.putLanes m k n v).ctxs = d.ctxs := rfl
@[simp] theorem Dev.putLanes_saved (d : Dev) (m : Word) (k n : Nat) (v : Nat → Nat → Word) : (d.putLanes m k n v).saved = d.saved := rfl
@[simp] theorem Dev.putLanes_walking (d : Dev) (m : Word) (k n : Nat) (v : Nat → Nat → Word) : (d.putLanes m k n v).walking = d.walking := rfl
@[simp] theorem Dev.putLanes_invals (d : Dev) (m : Word) (k n : Nat) (v : Nat → Nat → Word) : (d.putLanes m k n v).invals = d.invals := rfl
@[simp] theorem Dev.putLanes_queues (d : Dev) (m : Word) (k n : Nat) (v : Nat → Nat → Word) : (d.putLanes m k n v).queues = d.queues := rfl
@[simp] theorem Dev.putLanes_heads (d : Dev) (m : Word) (k n : Nat) (v : Nat → Nat → Word) : (d.putLanes m k n v).heads = d.heads := rfl
@[simp] theorem Dev.putLanes_linkLog (d : Dev) (m : Word) (k n : Nat) (v : Nat → Nat → Word) : (d.putLanes m k n v).linkLog = d.linkLog := rfl
@[simp] theorem Dev.putLanes_eth (d : Dev) (m : Word) (k n : Nat) (v : Nat → Nat → Word) : (d.putLanes m k n v).eth = d.eth := rfl
@[simp] theorem Dev.putLanes_msix (d : Dev) (m : Word) (k n : Nat) (v : Nat → Nat → Word) : (d.putLanes m k n v).msix = d.msix := rfl
@[simp] theorem Dev.putLanes_bar2 (d : Dev) (m : Word) (k n : Nat) (v : Nat → Nat → Word) : (d.putLanes m k n v).bar2 = d.bar2 := rfl
@[simp] theorem Dev.putLanes_bar2Size (d : Dev) (m : Word) (k n : Nat) (v : Nat → Nat → Word) : (d.putLanes m k n v).bar2Size = d.bar2Size := rfl
@[simp] theorem Dev.putLanes_emerg (d : Dev) (m : Word) (k n : Nat) (v : Nat → Nat → Word) : (d.putLanes m k n v).emerg = d.emerg := rfl
@[simp] theorem Dev.putLanes_mgmt (d : Dev) (m : Word) (k n : Nat) (v : Nat → Nat → Word) : (d.putLanes m k n v).mgmt = d.mgmt := rfl
@[simp] theorem Dev.putLanes_seen (d : Dev) (m : Word) (k n : Nat) (v : Nat → Nat → Word) : (d.putLanes m k n v).seen = d.seen := rfl
@[simp] theorem Dev.putLanes_uciUp (d : Dev) (m : Word) (k n : Nat) (v : Nat → Nat → Word) : (d.putLanes m k n v).uciUp = d.uciUp := rfl
@[simp] theorem Dev.putLanes_tlb (d : Dev) (m : Word) (k n : Nat) (v : Nat → Nat → Word) : (d.putLanes m k n v).tlb = d.tlb := rfl
@[simp] theorem Dev.putLanes_now (d : Dev) (m : Word) (k n : Nat) (v : Nat → Nat → Word) : (d.putLanes m k n v).now = d.now := rfl
@[simp] theorem Dev.putLanes_asleep (d : Dev) (m : Word) (k n : Nat) (v : Nat → Nat → Word) : (d.putLanes m k n v).asleep = d.asleep := rfl
@[simp] theorem Dev.putLanes_turn (d : Dev) (m : Word) (k n : Nat) (v : Nat → Nat → Word) : (d.putLanes m k n v).turn = d.turn := rfl
@[simp] theorem Dev.putLanes_swept (d : Dev) (m : Word) (k n : Nat) (v : Nat → Nat → Word) : (d.putLanes m k n v).swept = d.swept := rfl
@[simp] theorem Dev.putLanes_took (d : Dev) (m : Word) (k n : Nat) (v : Nat → Nat → Word) : (d.putLanes m k n v).took = d.took := rfl
@[simp] theorem Dev.putLanes_cur (d : Dev) (m : Word) (k n : Nat) (v : Nat → Nat → Word) : (d.putLanes m k n v).cur = d.cur := rfl
@[simp] theorem Dev.putLanes_agenda (d : Dev) (m : Word) (k n : Nat) (v : Nat → Nat → Word) : (d.putLanes m k n v).agenda = d.agenda := rfl
@[simp] theorem Dev.putLanes_choice (d : Dev) (m : Word) (k n : Nat) (v : Nat → Nat → Word) : (d.putLanes m k n v).choice = d.choice := rfl
@[simp] theorem Dev.putLanes_tick (d : Dev) (m : Word) (k n : Nat) (v : Nat → Nat → Word) : (d.putLanes m k n v).tick = d.tick := rfl
@[simp] theorem Dev.putLanes_free (d : Dev) (m : Word) (k n : Nat) (v : Nat → Nat → Word) : (d.putLanes m k n v).free = d.free := rfl
@[simp] theorem Dev.putLanes_hostData (d : Dev) (m : Word) (k n : Nat) (v : Nat → Nat → Word) : (d.putLanes m k n v).hostData = d.hostData := rfl
@[simp] theorem Dev.putLanes_hostUr (d : Dev) (m : Word) (k n : Nat) (v : Nat → Nat → Word) : (d.putLanes m k n v).hostUr = d.hostUr := rfl

/-! `Dev.putPred` changes `warps` alone. -/

@[simp] theorem Dev.putPred_mem (d : Dev) (m : Word) (p : Nat) (v : Nat → Bool) : (d.putPred m p v).mem = d.mem := rfl
@[simp] theorem Dev.putPred_groups (d : Dev) (m : Word) (p : Nat) (v : Nat → Bool) : (d.putPred m p v).groups = d.groups := rfl
@[simp] theorem Dev.putPred_nextGid (d : Dev) (m : Word) (p : Nat) (v : Nat → Bool) : (d.putPred m p v).nextGid = d.nextGid := rfl
@[simp] theorem Dev.putPred_cores (d : Dev) (m : Word) (p : Nat) (v : Nat → Bool) : (d.putPred m p v).cores = d.cores := rfl
@[simp] theorem Dev.putPred_cols (d : Dev) (m : Word) (p : Nat) (v : Nat → Bool) : (d.putPred m p v).cols = d.cols := rfl
@[simp] theorem Dev.putPred_towers (d : Dev) (m : Word) (p : Nat) (v : Nat → Bool) : (d.putPred m p v).towers = d.towers := rfl
@[simp] theorem Dev.putPred_launches (d : Dev) (m : Word) (p : Nat) (v : Nat → Bool) : (d.putPred m p v).launches = d.launches := rfl
@[simp] theorem Dev.putPred_nextLaunch (d : Dev) (m : Word) (p : Nat) (v : Nat → Bool) : (d.putPred m p v).nextLaunch = d.nextLaunch := rfl
@[simp] theorem Dev.putPred_ctxs (d : Dev) (m : Word) (p : Nat) (v : Nat → Bool) : (d.putPred m p v).ctxs = d.ctxs := rfl
@[simp] theorem Dev.putPred_saved (d : Dev) (m : Word) (p : Nat) (v : Nat → Bool) : (d.putPred m p v).saved = d.saved := rfl
@[simp] theorem Dev.putPred_walking (d : Dev) (m : Word) (p : Nat) (v : Nat → Bool) : (d.putPred m p v).walking = d.walking := rfl
@[simp] theorem Dev.putPred_invals (d : Dev) (m : Word) (p : Nat) (v : Nat → Bool) : (d.putPred m p v).invals = d.invals := rfl
@[simp] theorem Dev.putPred_queues (d : Dev) (m : Word) (p : Nat) (v : Nat → Bool) : (d.putPred m p v).queues = d.queues := rfl
@[simp] theorem Dev.putPred_heads (d : Dev) (m : Word) (p : Nat) (v : Nat → Bool) : (d.putPred m p v).heads = d.heads := rfl
@[simp] theorem Dev.putPred_linkLog (d : Dev) (m : Word) (p : Nat) (v : Nat → Bool) : (d.putPred m p v).linkLog = d.linkLog := rfl
@[simp] theorem Dev.putPred_eth (d : Dev) (m : Word) (p : Nat) (v : Nat → Bool) : (d.putPred m p v).eth = d.eth := rfl
@[simp] theorem Dev.putPred_msix (d : Dev) (m : Word) (p : Nat) (v : Nat → Bool) : (d.putPred m p v).msix = d.msix := rfl
@[simp] theorem Dev.putPred_bar2 (d : Dev) (m : Word) (p : Nat) (v : Nat → Bool) : (d.putPred m p v).bar2 = d.bar2 := rfl
@[simp] theorem Dev.putPred_bar2Size (d : Dev) (m : Word) (p : Nat) (v : Nat → Bool) : (d.putPred m p v).bar2Size = d.bar2Size := rfl
@[simp] theorem Dev.putPred_emerg (d : Dev) (m : Word) (p : Nat) (v : Nat → Bool) : (d.putPred m p v).emerg = d.emerg := rfl
@[simp] theorem Dev.putPred_mgmt (d : Dev) (m : Word) (p : Nat) (v : Nat → Bool) : (d.putPred m p v).mgmt = d.mgmt := rfl
@[simp] theorem Dev.putPred_seen (d : Dev) (m : Word) (p : Nat) (v : Nat → Bool) : (d.putPred m p v).seen = d.seen := rfl
@[simp] theorem Dev.putPred_uciUp (d : Dev) (m : Word) (p : Nat) (v : Nat → Bool) : (d.putPred m p v).uciUp = d.uciUp := rfl
@[simp] theorem Dev.putPred_tlb (d : Dev) (m : Word) (p : Nat) (v : Nat → Bool) : (d.putPred m p v).tlb = d.tlb := rfl
@[simp] theorem Dev.putPred_now (d : Dev) (m : Word) (p : Nat) (v : Nat → Bool) : (d.putPred m p v).now = d.now := rfl
@[simp] theorem Dev.putPred_asleep (d : Dev) (m : Word) (p : Nat) (v : Nat → Bool) : (d.putPred m p v).asleep = d.asleep := rfl
@[simp] theorem Dev.putPred_turn (d : Dev) (m : Word) (p : Nat) (v : Nat → Bool) : (d.putPred m p v).turn = d.turn := rfl
@[simp] theorem Dev.putPred_swept (d : Dev) (m : Word) (p : Nat) (v : Nat → Bool) : (d.putPred m p v).swept = d.swept := rfl
@[simp] theorem Dev.putPred_took (d : Dev) (m : Word) (p : Nat) (v : Nat → Bool) : (d.putPred m p v).took = d.took := rfl
@[simp] theorem Dev.putPred_cur (d : Dev) (m : Word) (p : Nat) (v : Nat → Bool) : (d.putPred m p v).cur = d.cur := rfl
@[simp] theorem Dev.putPred_agenda (d : Dev) (m : Word) (p : Nat) (v : Nat → Bool) : (d.putPred m p v).agenda = d.agenda := rfl
@[simp] theorem Dev.putPred_choice (d : Dev) (m : Word) (p : Nat) (v : Nat → Bool) : (d.putPred m p v).choice = d.choice := rfl
@[simp] theorem Dev.putPred_tick (d : Dev) (m : Word) (p : Nat) (v : Nat → Bool) : (d.putPred m p v).tick = d.tick := rfl
@[simp] theorem Dev.putPred_free (d : Dev) (m : Word) (p : Nat) (v : Nat → Bool) : (d.putPred m p v).free = d.free := rfl
@[simp] theorem Dev.putPred_hostData (d : Dev) (m : Word) (p : Nat) (v : Nat → Bool) : (d.putPred m p v).hostData = d.hostData := rfl
@[simp] theorem Dev.putPred_hostUr (d : Dev) (m : Word) (p : Nat) (v : Nat → Bool) : (d.putPred m p v).hostUr = d.hostUr := rfl

/-! `Dev.putPc` changes `warps` alone. -/

@[simp] theorem Dev.putPc_mem (d : Dev) (m : Word) (t : Nat → DWord) : (d.putPc m t).mem = d.mem := rfl
@[simp] theorem Dev.putPc_groups (d : Dev) (m : Word) (t : Nat → DWord) : (d.putPc m t).groups = d.groups := rfl
@[simp] theorem Dev.putPc_nextGid (d : Dev) (m : Word) (t : Nat → DWord) : (d.putPc m t).nextGid = d.nextGid := rfl
@[simp] theorem Dev.putPc_cores (d : Dev) (m : Word) (t : Nat → DWord) : (d.putPc m t).cores = d.cores := rfl
@[simp] theorem Dev.putPc_cols (d : Dev) (m : Word) (t : Nat → DWord) : (d.putPc m t).cols = d.cols := rfl
@[simp] theorem Dev.putPc_towers (d : Dev) (m : Word) (t : Nat → DWord) : (d.putPc m t).towers = d.towers := rfl
@[simp] theorem Dev.putPc_launches (d : Dev) (m : Word) (t : Nat → DWord) : (d.putPc m t).launches = d.launches := rfl
@[simp] theorem Dev.putPc_nextLaunch (d : Dev) (m : Word) (t : Nat → DWord) : (d.putPc m t).nextLaunch = d.nextLaunch := rfl
@[simp] theorem Dev.putPc_ctxs (d : Dev) (m : Word) (t : Nat → DWord) : (d.putPc m t).ctxs = d.ctxs := rfl
@[simp] theorem Dev.putPc_saved (d : Dev) (m : Word) (t : Nat → DWord) : (d.putPc m t).saved = d.saved := rfl
@[simp] theorem Dev.putPc_walking (d : Dev) (m : Word) (t : Nat → DWord) : (d.putPc m t).walking = d.walking := rfl
@[simp] theorem Dev.putPc_invals (d : Dev) (m : Word) (t : Nat → DWord) : (d.putPc m t).invals = d.invals := rfl
@[simp] theorem Dev.putPc_queues (d : Dev) (m : Word) (t : Nat → DWord) : (d.putPc m t).queues = d.queues := rfl
@[simp] theorem Dev.putPc_heads (d : Dev) (m : Word) (t : Nat → DWord) : (d.putPc m t).heads = d.heads := rfl
@[simp] theorem Dev.putPc_linkLog (d : Dev) (m : Word) (t : Nat → DWord) : (d.putPc m t).linkLog = d.linkLog := rfl
@[simp] theorem Dev.putPc_eth (d : Dev) (m : Word) (t : Nat → DWord) : (d.putPc m t).eth = d.eth := rfl
@[simp] theorem Dev.putPc_msix (d : Dev) (m : Word) (t : Nat → DWord) : (d.putPc m t).msix = d.msix := rfl
@[simp] theorem Dev.putPc_bar2 (d : Dev) (m : Word) (t : Nat → DWord) : (d.putPc m t).bar2 = d.bar2 := rfl
@[simp] theorem Dev.putPc_bar2Size (d : Dev) (m : Word) (t : Nat → DWord) : (d.putPc m t).bar2Size = d.bar2Size := rfl
@[simp] theorem Dev.putPc_emerg (d : Dev) (m : Word) (t : Nat → DWord) : (d.putPc m t).emerg = d.emerg := rfl
@[simp] theorem Dev.putPc_mgmt (d : Dev) (m : Word) (t : Nat → DWord) : (d.putPc m t).mgmt = d.mgmt := rfl
@[simp] theorem Dev.putPc_seen (d : Dev) (m : Word) (t : Nat → DWord) : (d.putPc m t).seen = d.seen := rfl
@[simp] theorem Dev.putPc_uciUp (d : Dev) (m : Word) (t : Nat → DWord) : (d.putPc m t).uciUp = d.uciUp := rfl
@[simp] theorem Dev.putPc_tlb (d : Dev) (m : Word) (t : Nat → DWord) : (d.putPc m t).tlb = d.tlb := rfl
@[simp] theorem Dev.putPc_now (d : Dev) (m : Word) (t : Nat → DWord) : (d.putPc m t).now = d.now := rfl
@[simp] theorem Dev.putPc_asleep (d : Dev) (m : Word) (t : Nat → DWord) : (d.putPc m t).asleep = d.asleep := rfl
@[simp] theorem Dev.putPc_turn (d : Dev) (m : Word) (t : Nat → DWord) : (d.putPc m t).turn = d.turn := rfl
@[simp] theorem Dev.putPc_swept (d : Dev) (m : Word) (t : Nat → DWord) : (d.putPc m t).swept = d.swept := rfl
@[simp] theorem Dev.putPc_took (d : Dev) (m : Word) (t : Nat → DWord) : (d.putPc m t).took = d.took := rfl
@[simp] theorem Dev.putPc_cur (d : Dev) (m : Word) (t : Nat → DWord) : (d.putPc m t).cur = d.cur := rfl
@[simp] theorem Dev.putPc_agenda (d : Dev) (m : Word) (t : Nat → DWord) : (d.putPc m t).agenda = d.agenda := rfl
@[simp] theorem Dev.putPc_choice (d : Dev) (m : Word) (t : Nat → DWord) : (d.putPc m t).choice = d.choice := rfl
@[simp] theorem Dev.putPc_tick (d : Dev) (m : Word) (t : Nat → DWord) : (d.putPc m t).tick = d.tick := rfl
@[simp] theorem Dev.putPc_free (d : Dev) (m : Word) (t : Nat → DWord) : (d.putPc m t).free = d.free := rfl
@[simp] theorem Dev.putPc_hostData (d : Dev) (m : Word) (t : Nat → DWord) : (d.putPc m t).hostData = d.hostData := rfl
@[simp] theorem Dev.putPc_hostUr (d : Dev) (m : Word) (t : Nat → DWord) : (d.putPc m t).hostUr = d.hostUr := rfl

/-! `Dev.putVec` changes `warps` alone. -/

@[simp] theorem Dev.putVec_mem (d : Dev) (k n : Nat) (v : Nat → Nat → Word) : (d.putVec k n v).mem = d.mem := by
  unfold Dev.putVec; dsimp only; split <;> rfl
@[simp] theorem Dev.putVec_groups (d : Dev) (k n : Nat) (v : Nat → Nat → Word) : (d.putVec k n v).groups = d.groups := by
  unfold Dev.putVec; dsimp only; split <;> rfl
@[simp] theorem Dev.putVec_nextGid (d : Dev) (k n : Nat) (v : Nat → Nat → Word) : (d.putVec k n v).nextGid = d.nextGid := by
  unfold Dev.putVec; dsimp only; split <;> rfl
@[simp] theorem Dev.putVec_cores (d : Dev) (k n : Nat) (v : Nat → Nat → Word) : (d.putVec k n v).cores = d.cores := by
  unfold Dev.putVec; dsimp only; split <;> rfl
@[simp] theorem Dev.putVec_cols (d : Dev) (k n : Nat) (v : Nat → Nat → Word) : (d.putVec k n v).cols = d.cols := by
  unfold Dev.putVec; dsimp only; split <;> rfl
@[simp] theorem Dev.putVec_towers (d : Dev) (k n : Nat) (v : Nat → Nat → Word) : (d.putVec k n v).towers = d.towers := by
  unfold Dev.putVec; dsimp only; split <;> rfl
@[simp] theorem Dev.putVec_launches (d : Dev) (k n : Nat) (v : Nat → Nat → Word) : (d.putVec k n v).launches = d.launches := by
  unfold Dev.putVec; dsimp only; split <;> rfl
@[simp] theorem Dev.putVec_nextLaunch (d : Dev) (k n : Nat) (v : Nat → Nat → Word) : (d.putVec k n v).nextLaunch = d.nextLaunch := by
  unfold Dev.putVec; dsimp only; split <;> rfl
@[simp] theorem Dev.putVec_ctxs (d : Dev) (k n : Nat) (v : Nat → Nat → Word) : (d.putVec k n v).ctxs = d.ctxs := by
  unfold Dev.putVec; dsimp only; split <;> rfl
@[simp] theorem Dev.putVec_saved (d : Dev) (k n : Nat) (v : Nat → Nat → Word) : (d.putVec k n v).saved = d.saved := by
  unfold Dev.putVec; dsimp only; split <;> rfl
@[simp] theorem Dev.putVec_walking (d : Dev) (k n : Nat) (v : Nat → Nat → Word) : (d.putVec k n v).walking = d.walking := by
  unfold Dev.putVec; dsimp only; split <;> rfl
@[simp] theorem Dev.putVec_invals (d : Dev) (k n : Nat) (v : Nat → Nat → Word) : (d.putVec k n v).invals = d.invals := by
  unfold Dev.putVec; dsimp only; split <;> rfl
@[simp] theorem Dev.putVec_queues (d : Dev) (k n : Nat) (v : Nat → Nat → Word) : (d.putVec k n v).queues = d.queues := by
  unfold Dev.putVec; dsimp only; split <;> rfl
@[simp] theorem Dev.putVec_heads (d : Dev) (k n : Nat) (v : Nat → Nat → Word) : (d.putVec k n v).heads = d.heads := by
  unfold Dev.putVec; dsimp only; split <;> rfl
@[simp] theorem Dev.putVec_linkLog (d : Dev) (k n : Nat) (v : Nat → Nat → Word) : (d.putVec k n v).linkLog = d.linkLog := by
  unfold Dev.putVec; dsimp only; split <;> rfl
@[simp] theorem Dev.putVec_eth (d : Dev) (k n : Nat) (v : Nat → Nat → Word) : (d.putVec k n v).eth = d.eth := by
  unfold Dev.putVec; dsimp only; split <;> rfl
@[simp] theorem Dev.putVec_msix (d : Dev) (k n : Nat) (v : Nat → Nat → Word) : (d.putVec k n v).msix = d.msix := by
  unfold Dev.putVec; dsimp only; split <;> rfl
@[simp] theorem Dev.putVec_bar2 (d : Dev) (k n : Nat) (v : Nat → Nat → Word) : (d.putVec k n v).bar2 = d.bar2 := by
  unfold Dev.putVec; dsimp only; split <;> rfl
@[simp] theorem Dev.putVec_bar2Size (d : Dev) (k n : Nat) (v : Nat → Nat → Word) : (d.putVec k n v).bar2Size = d.bar2Size := by
  unfold Dev.putVec; dsimp only; split <;> rfl
@[simp] theorem Dev.putVec_emerg (d : Dev) (k n : Nat) (v : Nat → Nat → Word) : (d.putVec k n v).emerg = d.emerg := by
  unfold Dev.putVec; dsimp only; split <;> rfl
@[simp] theorem Dev.putVec_mgmt (d : Dev) (k n : Nat) (v : Nat → Nat → Word) : (d.putVec k n v).mgmt = d.mgmt := by
  unfold Dev.putVec; dsimp only; split <;> rfl
@[simp] theorem Dev.putVec_seen (d : Dev) (k n : Nat) (v : Nat → Nat → Word) : (d.putVec k n v).seen = d.seen := by
  unfold Dev.putVec; dsimp only; split <;> rfl
@[simp] theorem Dev.putVec_uciUp (d : Dev) (k n : Nat) (v : Nat → Nat → Word) : (d.putVec k n v).uciUp = d.uciUp := by
  unfold Dev.putVec; dsimp only; split <;> rfl
@[simp] theorem Dev.putVec_tlb (d : Dev) (k n : Nat) (v : Nat → Nat → Word) : (d.putVec k n v).tlb = d.tlb := by
  unfold Dev.putVec; dsimp only; split <;> rfl
@[simp] theorem Dev.putVec_now (d : Dev) (k n : Nat) (v : Nat → Nat → Word) : (d.putVec k n v).now = d.now := by
  unfold Dev.putVec; dsimp only; split <;> rfl
@[simp] theorem Dev.putVec_asleep (d : Dev) (k n : Nat) (v : Nat → Nat → Word) : (d.putVec k n v).asleep = d.asleep := by
  unfold Dev.putVec; dsimp only; split <;> rfl
@[simp] theorem Dev.putVec_turn (d : Dev) (k n : Nat) (v : Nat → Nat → Word) : (d.putVec k n v).turn = d.turn := by
  unfold Dev.putVec; dsimp only; split <;> rfl
@[simp] theorem Dev.putVec_swept (d : Dev) (k n : Nat) (v : Nat → Nat → Word) : (d.putVec k n v).swept = d.swept := by
  unfold Dev.putVec; dsimp only; split <;> rfl
@[simp] theorem Dev.putVec_took (d : Dev) (k n : Nat) (v : Nat → Nat → Word) : (d.putVec k n v).took = d.took := by
  unfold Dev.putVec; dsimp only; split <;> rfl
@[simp] theorem Dev.putVec_cur (d : Dev) (k n : Nat) (v : Nat → Nat → Word) : (d.putVec k n v).cur = d.cur := by
  unfold Dev.putVec; dsimp only; split <;> rfl
@[simp] theorem Dev.putVec_agenda (d : Dev) (k n : Nat) (v : Nat → Nat → Word) : (d.putVec k n v).agenda = d.agenda := by
  unfold Dev.putVec; dsimp only; split <;> rfl
@[simp] theorem Dev.putVec_choice (d : Dev) (k n : Nat) (v : Nat → Nat → Word) : (d.putVec k n v).choice = d.choice := by
  unfold Dev.putVec; dsimp only; split <;> rfl
@[simp] theorem Dev.putVec_tick (d : Dev) (k n : Nat) (v : Nat → Nat → Word) : (d.putVec k n v).tick = d.tick := by
  unfold Dev.putVec; dsimp only; split <;> rfl
@[simp] theorem Dev.putVec_free (d : Dev) (k n : Nat) (v : Nat → Nat → Word) : (d.putVec k n v).free = d.free := by
  unfold Dev.putVec; dsimp only; split <;> rfl
@[simp] theorem Dev.putVec_hostData (d : Dev) (k n : Nat) (v : Nat → Nat → Word) : (d.putVec k n v).hostData = d.hostData := by
  unfold Dev.putVec; dsimp only; split <;> rfl
@[simp] theorem Dev.putVec_hostUr (d : Dev) (k n : Nat) (v : Nat → Nat → Word) : (d.putVec k n v).hostUr = d.hostUr := by
  unfold Dev.putVec; dsimp only; split <;> rfl

/-! Registers of a warp. -/

@[simp] theorem Warp.setPhys_gid (w : Warp) (r l : Nat) (x : Word) : (w.setPhys r l x).gid = w.gid := rfl
@[simp] theorem Warp.setPhys_idx (w : Warp) (r l : Nat) (x : Word) : (w.setPhys r l x).idx = w.idx := rfl
@[simp] theorem Warp.setPhys_copy (w : Warp) (r l : Nat) (x : Word) : (w.setPhys r l x).copy = w.copy := rfl
@[simp] theorem Warp.setPhys_nregs (w : Warp) (r l : Nat) (x : Word) : (w.setPhys r l x).nregs = w.nregs := rfl
@[simp] theorem Warp.setPhys_s (w : Warp) (r l : Nat) (x : Word) : (w.setPhys r l x).s = w.s := rfl
@[simp] theorem Warp.setPhys_j (w : Warp) (r l : Nat) (x : Word) : (w.setPhys r l x).j = w.j := rfl
@[simp] theorem Warp.setPhys_fib (w : Warp) (r l : Nat) (x : Word) : (w.setPhys r l x).fib = w.fib := rfl
@[simp] theorem Warp.setPhys_walkers (w : Warp) (r l : Nat) (x : Word) : (w.setPhys r l x).walkers = w.walkers := rfl
@[simp] theorem Warp.setPhys_wflags (w : Warp) (r l : Nat) (x : Word) : (w.setPhys r l x).wflags = w.wflags := rfl
@[simp] theorem Warp.setPhys_rmode (w : Warp) (r l : Nat) (x : Word) : (w.setPhys r l x).rmode = w.rmode := rfl
@[simp] theorem Warp.setPhys_dseed (w : Warp) (r l : Nat) (x : Word) : (w.setPhys r l x).dseed = w.dseed := rfl
@[simp] theorem Warp.setPhys_partn (w : Warp) (r l : Nat) (x : Word) : (w.setPhys r l x).partn = w.partn := rfl
@[simp] theorem Warp.setPhys_wctl (w : Warp) (r l : Nat) (x : Word) : (w.setPhys r l x).wctl = w.wctl := rfl
@[simp] theorem Warp.setPhys_watchdog (w : Warp) (r l : Nat) (x : Word) : (w.setPhys r l x).watchdog = w.watchdog := rfl
@[simp] theorem Warp.setPhys_tcause (w : Warp) (r l : Nat) (x : Word) : (w.setPhys r l x).tcause = w.tcause := rfl
@[simp] theorem Warp.setPhys_tdet0 (w : Warp) (r l : Nat) (x : Word) : (w.setPhys r l x).tdet0 = w.tdet0 := rfl
@[simp] theorem Warp.setPhys_tdet1 (w : Warp) (r l : Nat) (x : Word) : (w.setPhys r l x).tdet1 = w.tdet1 := rfl
@[simp] theorem Warp.setPhys_tdet2 (w : Warp) (r l : Nat) (x : Word) : (w.setPhys r l x).tdet2 = w.tdet2 := rfl
@[simp] theorem Warp.setPhys_tpc (w : Warp) (r l : Nat) (x : Word) : (w.setPhys r l x).tpc = w.tpc := rfl
@[simp] theorem Warp.setPhys_tskid (w : Warp) (r l : Nat) (x : Word) : (w.setPhys r l x).tskid = w.tskid := rfl
@[simp] theorem Warp.setPhys_ow (w : Warp) (r l : Nat) (x : Word) : (w.setPhys r l x).ow = w.ow := rfl
@[simp] theorem Warp.setPhys_emupc (w : Warp) (r l : Nat) (x : Word) : (w.setPhys r l x).emupc = w.emupc := rfl
@[simp] theorem Warp.setPhys_emumask (w : Warp) (r l : Nat) (x : Word) : (w.setPhys r l x).emumask = w.emumask := rfl
@[simp] theorem Warp.setPhys_emudepth (w : Warp) (r l : Nat) (x : Word) : (w.setPhys r l x).emudepth = w.emudepth := rfl
@[simp] theorem Warp.setPhys_emuctl (w : Warp) (r l : Nat) (x : Word) : (w.setPhys r l x).emuctl = w.emuctl := rfl
@[simp] theorem Warp.setPhys_pidx (w : Warp) (r l : Nat) (x : Word) : (w.setPhys r l x).pidx = w.pidx := rfl
@[simp] theorem Warp.setPhys_levels (w : Warp) (r l : Nat) (x : Word) : (w.setPhys r l x).levels = w.levels := rfl
@[simp] theorem Warp.setPhys_suppress (w : Warp) (r l : Nat) (x : Word) : (w.setPhys r l x).suppress = w.suppress := rfl
@[simp] theorem Warp.setPhys_flagsDue (w : Warp) (r l : Nat) (x : Word) : (w.setPhys r l x).flagsDue = w.flagsDue := rfl
@[simp] theorem Warp.setPhys_readyAt (w : Warp) (r l : Nat) (x : Word) : (w.setPhys r l x).readyAt = w.readyAt := rfl
@[simp] theorem Warp.setPhys_fifoQ (w : Warp) (r l : Nat) (x : Word) : (w.setPhys r l x).fifoQ = w.fifoQ := rfl
@[simp] theorem Warp.setPhys_fifoSeq (w : Warp) (r l : Nat) (x : Word) : (w.setPhys r l x).fifoSeq = w.fifoSeq := rfl
@[simp] theorem Warp.setPhys_fenceSc (w : Warp) (r l : Nat) (x : Word) : (w.setPhys r l x).fenceSc = w.fenceSc := rfl
@[simp] theorem Warp.setPhys_lastPc (w : Warp) (r l : Nat) (x : Word) : (w.setPhys r l x).lastPc = w.lastPc := rfl
@[simp] theorem Warp.setPhys_skidGroups (w : Warp) (r l : Nat) (x : Word) : (w.setPhys r l x).skidGroups = w.skidGroups := rfl
@[simp] theorem Warp.setPhys_skidLast (w : Warp) (r l : Nat) (x : Word) : (w.setPhys r l x).skidLast = w.skidLast := rfl
@[simp] theorem Warp.setPhys_skidStop (w : Warp) (r l : Nat) (x : Word) : (w.setPhys r l x).skidStop = w.skidStop := rfl
@[simp] theorem Warp.setPhys_stopped (w : Warp) (r l : Nat) (x : Word) : (w.setPhys r l x).stopped = w.stopped := rfl

@[simp] theorem Warp.setSr_gid (w : Warp) (n : Nat) (x : DWord) : (w.setSr n x).gid = w.gid := by
  unfold Warp.setSr; split <;> rfl
@[simp] theorem Warp.setSr_idx (w : Warp) (n : Nat) (x : DWord) : (w.setSr n x).idx = w.idx := by
  unfold Warp.setSr; split <;> rfl
@[simp] theorem Warp.setSr_copy (w : Warp) (n : Nat) (x : DWord) : (w.setSr n x).copy = w.copy := by
  unfold Warp.setSr; split <;> rfl
@[simp] theorem Warp.setSr_nregs (w : Warp) (n : Nat) (x : DWord) : (w.setSr n x).nregs = w.nregs := by
  unfold Warp.setSr; split <;> rfl
@[simp] theorem Warp.setSr_v (w : Warp) (n : Nat) (x : DWord) : (w.setSr n x).v = w.v := by
  unfold Warp.setSr; split <;> rfl
@[simp] theorem Warp.setSr_j (w : Warp) (n : Nat) (x : DWord) : (w.setSr n x).j = w.j := by
  unfold Warp.setSr; split <;> rfl
@[simp] theorem Warp.setSr_fib (w : Warp) (n : Nat) (x : DWord) : (w.setSr n x).fib = w.fib := by
  unfold Warp.setSr; split <;> rfl
@[simp] theorem Warp.setSr_walkers (w : Warp) (n : Nat) (x : DWord) : (w.setSr n x).walkers = w.walkers := by
  unfold Warp.setSr; split <;> rfl
@[simp] theorem Warp.setSr_wflags (w : Warp) (n : Nat) (x : DWord) : (w.setSr n x).wflags = w.wflags := by
  unfold Warp.setSr; split <;> rfl
@[simp] theorem Warp.setSr_rmode (w : Warp) (n : Nat) (x : DWord) : (w.setSr n x).rmode = w.rmode := by
  unfold Warp.setSr; split <;> rfl
@[simp] theorem Warp.setSr_dseed (w : Warp) (n : Nat) (x : DWord) : (w.setSr n x).dseed = w.dseed := by
  unfold Warp.setSr; split <;> rfl
@[simp] theorem Warp.setSr_partn (w : Warp) (n : Nat) (x : DWord) : (w.setSr n x).partn = w.partn := by
  unfold Warp.setSr; split <;> rfl
@[simp] theorem Warp.setSr_wctl (w : Warp) (n : Nat) (x : DWord) : (w.setSr n x).wctl = w.wctl := by
  unfold Warp.setSr; split <;> rfl
@[simp] theorem Warp.setSr_watchdog (w : Warp) (n : Nat) (x : DWord) : (w.setSr n x).watchdog = w.watchdog := by
  unfold Warp.setSr; split <;> rfl
@[simp] theorem Warp.setSr_tcause (w : Warp) (n : Nat) (x : DWord) : (w.setSr n x).tcause = w.tcause := by
  unfold Warp.setSr; split <;> rfl
@[simp] theorem Warp.setSr_tdet0 (w : Warp) (n : Nat) (x : DWord) : (w.setSr n x).tdet0 = w.tdet0 := by
  unfold Warp.setSr; split <;> rfl
@[simp] theorem Warp.setSr_tdet1 (w : Warp) (n : Nat) (x : DWord) : (w.setSr n x).tdet1 = w.tdet1 := by
  unfold Warp.setSr; split <;> rfl
@[simp] theorem Warp.setSr_tdet2 (w : Warp) (n : Nat) (x : DWord) : (w.setSr n x).tdet2 = w.tdet2 := by
  unfold Warp.setSr; split <;> rfl
@[simp] theorem Warp.setSr_tpc (w : Warp) (n : Nat) (x : DWord) : (w.setSr n x).tpc = w.tpc := by
  unfold Warp.setSr; split <;> rfl
@[simp] theorem Warp.setSr_tskid (w : Warp) (n : Nat) (x : DWord) : (w.setSr n x).tskid = w.tskid := by
  unfold Warp.setSr; split <;> rfl
@[simp] theorem Warp.setSr_ow (w : Warp) (n : Nat) (x : DWord) : (w.setSr n x).ow = w.ow := by
  unfold Warp.setSr; split <;> rfl
@[simp] theorem Warp.setSr_emupc (w : Warp) (n : Nat) (x : DWord) : (w.setSr n x).emupc = w.emupc := by
  unfold Warp.setSr; split <;> rfl
@[simp] theorem Warp.setSr_emumask (w : Warp) (n : Nat) (x : DWord) : (w.setSr n x).emumask = w.emumask := by
  unfold Warp.setSr; split <;> rfl
@[simp] theorem Warp.setSr_emudepth (w : Warp) (n : Nat) (x : DWord) : (w.setSr n x).emudepth = w.emudepth := by
  unfold Warp.setSr; split <;> rfl
@[simp] theorem Warp.setSr_emuctl (w : Warp) (n : Nat) (x : DWord) : (w.setSr n x).emuctl = w.emuctl := by
  unfold Warp.setSr; split <;> rfl
@[simp] theorem Warp.setSr_pidx (w : Warp) (n : Nat) (x : DWord) : (w.setSr n x).pidx = w.pidx := by
  unfold Warp.setSr; split <;> rfl
@[simp] theorem Warp.setSr_levels (w : Warp) (n : Nat) (x : DWord) : (w.setSr n x).levels = w.levels := by
  unfold Warp.setSr; split <;> rfl
@[simp] theorem Warp.setSr_suppress (w : Warp) (n : Nat) (x : DWord) : (w.setSr n x).suppress = w.suppress := by
  unfold Warp.setSr; split <;> rfl
@[simp] theorem Warp.setSr_flagsDue (w : Warp) (n : Nat) (x : DWord) : (w.setSr n x).flagsDue = w.flagsDue := by
  unfold Warp.setSr; split <;> rfl
@[simp] theorem Warp.setSr_readyAt (w : Warp) (n : Nat) (x : DWord) : (w.setSr n x).readyAt = w.readyAt := by
  unfold Warp.setSr; split <;> rfl
@[simp] theorem Warp.setSr_fifoQ (w : Warp) (n : Nat) (x : DWord) : (w.setSr n x).fifoQ = w.fifoQ := by
  unfold Warp.setSr; split <;> rfl
@[simp] theorem Warp.setSr_fifoSeq (w : Warp) (n : Nat) (x : DWord) : (w.setSr n x).fifoSeq = w.fifoSeq := by
  unfold Warp.setSr; split <;> rfl
@[simp] theorem Warp.setSr_fenceSc (w : Warp) (n : Nat) (x : DWord) : (w.setSr n x).fenceSc = w.fenceSc := by
  unfold Warp.setSr; split <;> rfl
@[simp] theorem Warp.setSr_lastPc (w : Warp) (n : Nat) (x : DWord) : (w.setSr n x).lastPc = w.lastPc := by
  unfold Warp.setSr; split <;> rfl
@[simp] theorem Warp.setSr_skidGroups (w : Warp) (n : Nat) (x : DWord) : (w.setSr n x).skidGroups = w.skidGroups := by
  unfold Warp.setSr; split <;> rfl
@[simp] theorem Warp.setSr_skidLast (w : Warp) (n : Nat) (x : DWord) : (w.setSr n x).skidLast = w.skidLast := by
  unfold Warp.setSr; split <;> rfl
@[simp] theorem Warp.setSr_skidStop (w : Warp) (n : Nat) (x : DWord) : (w.setSr n x).skidStop = w.skidStop := by
  unfold Warp.setSr; split <;> rfl
@[simp] theorem Warp.setSr_stopped (w : Warp) (n : Nat) (x : DWord) : (w.setSr n x).stopped = w.stopped := by
  unfold Warp.setSr; split <;> rfl

@[simp] theorem Warp.setFibre_gid (w : Warp) (l : Nat) (f : Fibre) : (w.setFibre l f).gid = w.gid := rfl
@[simp] theorem Warp.setFibre_idx (w : Warp) (l : Nat) (f : Fibre) : (w.setFibre l f).idx = w.idx := rfl
@[simp] theorem Warp.setFibre_copy (w : Warp) (l : Nat) (f : Fibre) : (w.setFibre l f).copy = w.copy := rfl
@[simp] theorem Warp.setFibre_nregs (w : Warp) (l : Nat) (f : Fibre) : (w.setFibre l f).nregs = w.nregs := rfl
@[simp] theorem Warp.setFibre_v (w : Warp) (l : Nat) (f : Fibre) : (w.setFibre l f).v = w.v := rfl
@[simp] theorem Warp.setFibre_s (w : Warp) (l : Nat) (f : Fibre) : (w.setFibre l f).s = w.s := rfl
@[simp] theorem Warp.setFibre_j (w : Warp) (l : Nat) (f : Fibre) : (w.setFibre l f).j = w.j := rfl
@[simp] theorem Warp.setFibre_walkers (w : Warp) (l : Nat) (f : Fibre) : (w.setFibre l f).walkers = w.walkers := rfl
@[simp] theorem Warp.setFibre_wflags (w : Warp) (l : Nat) (f : Fibre) : (w.setFibre l f).wflags = w.wflags := rfl
@[simp] theorem Warp.setFibre_rmode (w : Warp) (l : Nat) (f : Fibre) : (w.setFibre l f).rmode = w.rmode := rfl
@[simp] theorem Warp.setFibre_dseed (w : Warp) (l : Nat) (f : Fibre) : (w.setFibre l f).dseed = w.dseed := rfl
@[simp] theorem Warp.setFibre_partn (w : Warp) (l : Nat) (f : Fibre) : (w.setFibre l f).partn = w.partn := rfl
@[simp] theorem Warp.setFibre_wctl (w : Warp) (l : Nat) (f : Fibre) : (w.setFibre l f).wctl = w.wctl := rfl
@[simp] theorem Warp.setFibre_watchdog (w : Warp) (l : Nat) (f : Fibre) : (w.setFibre l f).watchdog = w.watchdog := rfl
@[simp] theorem Warp.setFibre_tcause (w : Warp) (l : Nat) (f : Fibre) : (w.setFibre l f).tcause = w.tcause := rfl
@[simp] theorem Warp.setFibre_tdet0 (w : Warp) (l : Nat) (f : Fibre) : (w.setFibre l f).tdet0 = w.tdet0 := rfl
@[simp] theorem Warp.setFibre_tdet1 (w : Warp) (l : Nat) (f : Fibre) : (w.setFibre l f).tdet1 = w.tdet1 := rfl
@[simp] theorem Warp.setFibre_tdet2 (w : Warp) (l : Nat) (f : Fibre) : (w.setFibre l f).tdet2 = w.tdet2 := rfl
@[simp] theorem Warp.setFibre_tpc (w : Warp) (l : Nat) (f : Fibre) : (w.setFibre l f).tpc = w.tpc := rfl
@[simp] theorem Warp.setFibre_tskid (w : Warp) (l : Nat) (f : Fibre) : (w.setFibre l f).tskid = w.tskid := rfl
@[simp] theorem Warp.setFibre_ow (w : Warp) (l : Nat) (f : Fibre) : (w.setFibre l f).ow = w.ow := rfl
@[simp] theorem Warp.setFibre_emupc (w : Warp) (l : Nat) (f : Fibre) : (w.setFibre l f).emupc = w.emupc := rfl
@[simp] theorem Warp.setFibre_emumask (w : Warp) (l : Nat) (f : Fibre) : (w.setFibre l f).emumask = w.emumask := rfl
@[simp] theorem Warp.setFibre_emudepth (w : Warp) (l : Nat) (f : Fibre) : (w.setFibre l f).emudepth = w.emudepth := rfl
@[simp] theorem Warp.setFibre_emuctl (w : Warp) (l : Nat) (f : Fibre) : (w.setFibre l f).emuctl = w.emuctl := rfl
@[simp] theorem Warp.setFibre_pidx (w : Warp) (l : Nat) (f : Fibre) : (w.setFibre l f).pidx = w.pidx := rfl
@[simp] theorem Warp.setFibre_levels (w : Warp) (l : Nat) (f : Fibre) : (w.setFibre l f).levels = w.levels := rfl
@[simp] theorem Warp.setFibre_suppress (w : Warp) (l : Nat) (f : Fibre) : (w.setFibre l f).suppress = w.suppress := rfl
@[simp] theorem Warp.setFibre_flagsDue (w : Warp) (l : Nat) (f : Fibre) : (w.setFibre l f).flagsDue = w.flagsDue := rfl
@[simp] theorem Warp.setFibre_readyAt (w : Warp) (l : Nat) (f : Fibre) : (w.setFibre l f).readyAt = w.readyAt := rfl
@[simp] theorem Warp.setFibre_fifoQ (w : Warp) (l : Nat) (f : Fibre) : (w.setFibre l f).fifoQ = w.fifoQ := rfl
@[simp] theorem Warp.setFibre_fifoSeq (w : Warp) (l : Nat) (f : Fibre) : (w.setFibre l f).fifoSeq = w.fifoSeq := rfl
@[simp] theorem Warp.setFibre_fenceSc (w : Warp) (l : Nat) (f : Fibre) : (w.setFibre l f).fenceSc = w.fenceSc := rfl
@[simp] theorem Warp.setFibre_lastPc (w : Warp) (l : Nat) (f : Fibre) : (w.setFibre l f).lastPc = w.lastPc := rfl
@[simp] theorem Warp.setFibre_skidGroups (w : Warp) (l : Nat) (f : Fibre) : (w.setFibre l f).skidGroups = w.skidGroups := rfl
@[simp] theorem Warp.setFibre_skidLast (w : Warp) (l : Nat) (f : Fibre) : (w.setFibre l f).skidLast = w.skidLast := rfl
@[simp] theorem Warp.setFibre_skidStop (w : Warp) (l : Nat) (f : Fibre) : (w.setFibre l f).skidStop = w.skidStop := rfl
@[simp] theorem Warp.setFibre_stopped (w : Warp) (l : Nat) (f : Fibre) : (w.setFibre l f).stopped = w.stopped := rfl

@[simp] theorem Warp.modFibre_gid (w : Warp) (l : Nat) (f : Fibre → Fibre) : (w.modFibre l f).gid = w.gid := rfl
@[simp] theorem Warp.modFibre_idx (w : Warp) (l : Nat) (f : Fibre → Fibre) : (w.modFibre l f).idx = w.idx := rfl
@[simp] theorem Warp.modFibre_copy (w : Warp) (l : Nat) (f : Fibre → Fibre) : (w.modFibre l f).copy = w.copy := rfl
@[simp] theorem Warp.modFibre_nregs (w : Warp) (l : Nat) (f : Fibre → Fibre) : (w.modFibre l f).nregs = w.nregs := rfl
@[simp] theorem Warp.modFibre_v (w : Warp) (l : Nat) (f : Fibre → Fibre) : (w.modFibre l f).v = w.v := rfl
@[simp] theorem Warp.modFibre_s (w : Warp) (l : Nat) (f : Fibre → Fibre) : (w.modFibre l f).s = w.s := rfl
@[simp] theorem Warp.modFibre_j (w : Warp) (l : Nat) (f : Fibre → Fibre) : (w.modFibre l f).j = w.j := rfl
@[simp] theorem Warp.modFibre_walkers (w : Warp) (l : Nat) (f : Fibre → Fibre) : (w.modFibre l f).walkers = w.walkers := rfl
@[simp] theorem Warp.modFibre_wflags (w : Warp) (l : Nat) (f : Fibre → Fibre) : (w.modFibre l f).wflags = w.wflags := rfl
@[simp] theorem Warp.modFibre_rmode (w : Warp) (l : Nat) (f : Fibre → Fibre) : (w.modFibre l f).rmode = w.rmode := rfl
@[simp] theorem Warp.modFibre_dseed (w : Warp) (l : Nat) (f : Fibre → Fibre) : (w.modFibre l f).dseed = w.dseed := rfl
@[simp] theorem Warp.modFibre_partn (w : Warp) (l : Nat) (f : Fibre → Fibre) : (w.modFibre l f).partn = w.partn := rfl
@[simp] theorem Warp.modFibre_wctl (w : Warp) (l : Nat) (f : Fibre → Fibre) : (w.modFibre l f).wctl = w.wctl := rfl
@[simp] theorem Warp.modFibre_watchdog (w : Warp) (l : Nat) (f : Fibre → Fibre) : (w.modFibre l f).watchdog = w.watchdog := rfl
@[simp] theorem Warp.modFibre_tcause (w : Warp) (l : Nat) (f : Fibre → Fibre) : (w.modFibre l f).tcause = w.tcause := rfl
@[simp] theorem Warp.modFibre_tdet0 (w : Warp) (l : Nat) (f : Fibre → Fibre) : (w.modFibre l f).tdet0 = w.tdet0 := rfl
@[simp] theorem Warp.modFibre_tdet1 (w : Warp) (l : Nat) (f : Fibre → Fibre) : (w.modFibre l f).tdet1 = w.tdet1 := rfl
@[simp] theorem Warp.modFibre_tdet2 (w : Warp) (l : Nat) (f : Fibre → Fibre) : (w.modFibre l f).tdet2 = w.tdet2 := rfl
@[simp] theorem Warp.modFibre_tpc (w : Warp) (l : Nat) (f : Fibre → Fibre) : (w.modFibre l f).tpc = w.tpc := rfl
@[simp] theorem Warp.modFibre_tskid (w : Warp) (l : Nat) (f : Fibre → Fibre) : (w.modFibre l f).tskid = w.tskid := rfl
@[simp] theorem Warp.modFibre_ow (w : Warp) (l : Nat) (f : Fibre → Fibre) : (w.modFibre l f).ow = w.ow := rfl
@[simp] theorem Warp.modFibre_emupc (w : Warp) (l : Nat) (f : Fibre → Fibre) : (w.modFibre l f).emupc = w.emupc := rfl
@[simp] theorem Warp.modFibre_emumask (w : Warp) (l : Nat) (f : Fibre → Fibre) : (w.modFibre l f).emumask = w.emumask := rfl
@[simp] theorem Warp.modFibre_emudepth (w : Warp) (l : Nat) (f : Fibre → Fibre) : (w.modFibre l f).emudepth = w.emudepth := rfl
@[simp] theorem Warp.modFibre_emuctl (w : Warp) (l : Nat) (f : Fibre → Fibre) : (w.modFibre l f).emuctl = w.emuctl := rfl
@[simp] theorem Warp.modFibre_pidx (w : Warp) (l : Nat) (f : Fibre → Fibre) : (w.modFibre l f).pidx = w.pidx := rfl
@[simp] theorem Warp.modFibre_levels (w : Warp) (l : Nat) (f : Fibre → Fibre) : (w.modFibre l f).levels = w.levels := rfl
@[simp] theorem Warp.modFibre_suppress (w : Warp) (l : Nat) (f : Fibre → Fibre) : (w.modFibre l f).suppress = w.suppress := rfl
@[simp] theorem Warp.modFibre_flagsDue (w : Warp) (l : Nat) (f : Fibre → Fibre) : (w.modFibre l f).flagsDue = w.flagsDue := rfl
@[simp] theorem Warp.modFibre_readyAt (w : Warp) (l : Nat) (f : Fibre → Fibre) : (w.modFibre l f).readyAt = w.readyAt := rfl
@[simp] theorem Warp.modFibre_fifoQ (w : Warp) (l : Nat) (f : Fibre → Fibre) : (w.modFibre l f).fifoQ = w.fifoQ := rfl
@[simp] theorem Warp.modFibre_fifoSeq (w : Warp) (l : Nat) (f : Fibre → Fibre) : (w.modFibre l f).fifoSeq = w.fifoSeq := rfl
@[simp] theorem Warp.modFibre_fenceSc (w : Warp) (l : Nat) (f : Fibre → Fibre) : (w.modFibre l f).fenceSc = w.fenceSc := rfl
@[simp] theorem Warp.modFibre_lastPc (w : Warp) (l : Nat) (f : Fibre → Fibre) : (w.modFibre l f).lastPc = w.lastPc := rfl
@[simp] theorem Warp.modFibre_skidGroups (w : Warp) (l : Nat) (f : Fibre → Fibre) : (w.modFibre l f).skidGroups = w.skidGroups := rfl
@[simp] theorem Warp.modFibre_skidLast (w : Warp) (l : Nat) (f : Fibre → Fibre) : (w.modFibre l f).skidLast = w.skidLast := rfl
@[simp] theorem Warp.modFibre_skidStop (w : Warp) (l : Nat) (f : Fibre → Fibre) : (w.modFibre l f).skidStop = w.skidStop := rfl
@[simp] theorem Warp.modFibre_stopped (w : Warp) (l : Nat) (f : Fibre → Fibre) : (w.modFibre l f).stopped = w.stopped := rfl

@[simp] theorem Warp.setJm_gid (w : Warp) (k : Nat) (x : Word) : (w.setJm k x).gid = w.gid := rfl
@[simp] theorem Warp.setJm_idx (w : Warp) (k : Nat) (x : Word) : (w.setJm k x).idx = w.idx := rfl
@[simp] theorem Warp.setJm_copy (w : Warp) (k : Nat) (x : Word) : (w.setJm k x).copy = w.copy := rfl
@[simp] theorem Warp.setJm_nregs (w : Warp) (k : Nat) (x : Word) : (w.setJm k x).nregs = w.nregs := rfl
@[simp] theorem Warp.setJm_v (w : Warp) (k : Nat) (x : Word) : (w.setJm k x).v = w.v := rfl
@[simp] theorem Warp.setJm_s (w : Warp) (k : Nat) (x : Word) : (w.setJm k x).s = w.s := rfl
@[simp] theorem Warp.setJm_fib (w : Warp) (k : Nat) (x : Word) : (w.setJm k x).fib = w.fib := rfl
@[simp] theorem Warp.setJm_walkers (w : Warp) (k : Nat) (x : Word) : (w.setJm k x).walkers = w.walkers := rfl
@[simp] theorem Warp.setJm_wflags (w : Warp) (k : Nat) (x : Word) : (w.setJm k x).wflags = w.wflags := rfl
@[simp] theorem Warp.setJm_rmode (w : Warp) (k : Nat) (x : Word) : (w.setJm k x).rmode = w.rmode := rfl
@[simp] theorem Warp.setJm_dseed (w : Warp) (k : Nat) (x : Word) : (w.setJm k x).dseed = w.dseed := rfl
@[simp] theorem Warp.setJm_partn (w : Warp) (k : Nat) (x : Word) : (w.setJm k x).partn = w.partn := rfl
@[simp] theorem Warp.setJm_wctl (w : Warp) (k : Nat) (x : Word) : (w.setJm k x).wctl = w.wctl := rfl
@[simp] theorem Warp.setJm_watchdog (w : Warp) (k : Nat) (x : Word) : (w.setJm k x).watchdog = w.watchdog := rfl
@[simp] theorem Warp.setJm_tcause (w : Warp) (k : Nat) (x : Word) : (w.setJm k x).tcause = w.tcause := rfl
@[simp] theorem Warp.setJm_tdet0 (w : Warp) (k : Nat) (x : Word) : (w.setJm k x).tdet0 = w.tdet0 := rfl
@[simp] theorem Warp.setJm_tdet1 (w : Warp) (k : Nat) (x : Word) : (w.setJm k x).tdet1 = w.tdet1 := rfl
@[simp] theorem Warp.setJm_tdet2 (w : Warp) (k : Nat) (x : Word) : (w.setJm k x).tdet2 = w.tdet2 := rfl
@[simp] theorem Warp.setJm_tpc (w : Warp) (k : Nat) (x : Word) : (w.setJm k x).tpc = w.tpc := rfl
@[simp] theorem Warp.setJm_tskid (w : Warp) (k : Nat) (x : Word) : (w.setJm k x).tskid = w.tskid := rfl
@[simp] theorem Warp.setJm_ow (w : Warp) (k : Nat) (x : Word) : (w.setJm k x).ow = w.ow := rfl
@[simp] theorem Warp.setJm_emupc (w : Warp) (k : Nat) (x : Word) : (w.setJm k x).emupc = w.emupc := rfl
@[simp] theorem Warp.setJm_emumask (w : Warp) (k : Nat) (x : Word) : (w.setJm k x).emumask = w.emumask := rfl
@[simp] theorem Warp.setJm_emudepth (w : Warp) (k : Nat) (x : Word) : (w.setJm k x).emudepth = w.emudepth := rfl
@[simp] theorem Warp.setJm_emuctl (w : Warp) (k : Nat) (x : Word) : (w.setJm k x).emuctl = w.emuctl := rfl
@[simp] theorem Warp.setJm_pidx (w : Warp) (k : Nat) (x : Word) : (w.setJm k x).pidx = w.pidx := rfl
@[simp] theorem Warp.setJm_levels (w : Warp) (k : Nat) (x : Word) : (w.setJm k x).levels = w.levels := rfl
@[simp] theorem Warp.setJm_suppress (w : Warp) (k : Nat) (x : Word) : (w.setJm k x).suppress = w.suppress := rfl
@[simp] theorem Warp.setJm_flagsDue (w : Warp) (k : Nat) (x : Word) : (w.setJm k x).flagsDue = w.flagsDue := rfl
@[simp] theorem Warp.setJm_readyAt (w : Warp) (k : Nat) (x : Word) : (w.setJm k x).readyAt = w.readyAt := rfl
@[simp] theorem Warp.setJm_fifoQ (w : Warp) (k : Nat) (x : Word) : (w.setJm k x).fifoQ = w.fifoQ := rfl
@[simp] theorem Warp.setJm_fifoSeq (w : Warp) (k : Nat) (x : Word) : (w.setJm k x).fifoSeq = w.fifoSeq := rfl
@[simp] theorem Warp.setJm_fenceSc (w : Warp) (k : Nat) (x : Word) : (w.setJm k x).fenceSc = w.fenceSc := rfl
@[simp] theorem Warp.setJm_lastPc (w : Warp) (k : Nat) (x : Word) : (w.setJm k x).lastPc = w.lastPc := rfl
@[simp] theorem Warp.setJm_skidGroups (w : Warp) (k : Nat) (x : Word) : (w.setJm k x).skidGroups = w.skidGroups := rfl
@[simp] theorem Warp.setJm_skidLast (w : Warp) (k : Nat) (x : Word) : (w.setJm k x).skidLast = w.skidLast := rfl
@[simp] theorem Warp.setJm_skidStop (w : Warp) (k : Nat) (x : Word) : (w.setJm k x).skidStop = w.skidStop := rfl
@[simp] theorem Warp.setJm_stopped (w : Warp) (k : Nat) (x : Word) : (w.setJm k x).stopped = w.stopped := rfl

@[simp] theorem Fibre.setPred_live (f : Fibre) (p : Nat) (b : Bool) : (f.setPred p b).live = f.live := by
  unfold Fibre.setPred; split <;> rfl
@[simp] theorem Fibre.setPred_pc (f : Fibre) (p : Nat) (b : Bool) : (f.setPred p b).pc = f.pc := by
  unfold Fibre.setPred; split <;> rfl
@[simp] theorem Fibre.setPred_base (f : Fibre) (p : Nat) (b : Bool) : (f.setPred p b).base = f.base := by
  unfold Fibre.setPred; split <;> rfl
@[simp] theorem Fibre.setPred_depth (f : Fibre) (p : Nat) (b : Bool) : (f.setPred p b).depth = f.depth := by
  unfold Fibre.setPred; split <;> rfl
@[simp] theorem Fibre.setPred_stack (f : Fibre) (p : Nat) (b : Bool) : (f.setPred p b).stack = f.stack := by
  unfold Fibre.setPred; split <;> rfl
@[simp] theorem Fibre.setPred_park (f : Fibre) (p : Nat) (b : Bool) : (f.setPred p b).park = f.park := by
  unfold Fibre.setPred; split <;> rfl
@[simp] theorem Fibre.setPred_yielded (f : Fibre) (p : Nat) (b : Bool) : (f.setPred p b).yielded = f.yielded := by
  unfold Fibre.setPred; split <;> rfl
@[simp] theorem Fibre.setPred_age (f : Fibre) (p : Nat) (b : Bool) : (f.setPred p b).age = f.age := by
  unfold Fibre.setPred; split <;> rfl
@[simp] theorem Fibre.setPred_wake (f : Fibre) (p : Nat) (b : Bool) : (f.setPred p b).wake = f.wake := by
  unfold Fibre.setPred; split <;> rfl
@[simp] theorem Fibre.setPred_barked (f : Fibre) (p : Nat) (b : Bool) : (f.setPred p b).barked = f.barked := by
  unfold Fibre.setPred; split <;> rfl

end Sys2Proof.Machine
end

