-- ==== Sys2Proof/Laws/Store.lean ====
section
/-! SUPPORT.  Sparse maps and byte memory: a read after a write, and the canonical form kept by every
memory operation. -/

namespace Sys2Proof.Machine

variable {α : Type}

@[simp] theorem SMap.find?_nil (k : Nat) : SMap.find? ([] : SMap α) k = none := rfl

@[simp] theorem SMap.get_nil (k : Nat) (d : α) : SMap.get ([] : SMap α) k d = d := rfl

/-- A lookup after an update. -/
theorem SMap.find?_set (m : SMap α) (k k' : Nat) (v : α) :
    SMap.find? (SMap.set m k v) k' = if k = k' then some v else SMap.find? m k' := by
  induction m with
  | nil => simp [SMap.set, SMap.find?]
  | cons p r ih =>
    obtain ⟨a, b⟩ := p
    unfold SMap.set
    split
    · simp [SMap.find?]
    · split
      · rename_i ha
        subst ha
        by_cases h : a = k' <;> simp_all [SMap.find?]
      · by_cases h : k = k'
        · subst h
          have : ¬ a = k := by omega
          simp [SMap.find?, ih, this]
        · by_cases h' : a = k' <;> simp_all [SMap.find?]

@[simp] theorem SMap.find?_set_same (m : SMap α) (k : Nat) (v : α) : SMap.find? (SMap.set m k v) k = some v := by
  simp [SMap.find?_set]

theorem SMap.find?_set_other (m : SMap α) {k k' : Nat} (v : α) (h : k ≠ k') :
    SMap.find? (SMap.set m k v) k' = SMap.find? m k' := by simp [SMap.find?_set, h]

theorem SMap.get_set (m : SMap α) (k k' : Nat) (v d : α) :
    SMap.get (SMap.set m k v) k' d = if k = k' then v else SMap.get m k' d := by
  unfold SMap.get
  rw [SMap.find?_set]
  by_cases h : k = k' <;> simp [h]

@[simp] theorem SMap.get_set_same (m : SMap α) (k : Nat) (v d : α) : SMap.get (SMap.set m k v) k d = v := by
  simp [SMap.get_set]

theorem SMap.get_set_other (m : SMap α) {k k' : Nat} (v d : α) (h : k ≠ k') :
    SMap.get (SMap.set m k v) k' d = SMap.get m k' d := by simp [SMap.get_set, h]

/-- A lookup after a removal. -/
theorem SMap.find?_erase (m : SMap α) (k k' : Nat) :
    SMap.find? (SMap.erase m k) k' = if k = k' then none else SMap.find? m k' := by
  induction m with
  | nil => simp [SMap.erase]
  | cons p r ih =>
    obtain ⟨a, b⟩ := p
    unfold SMap.erase at ih ⊢
    by_cases ha : a = k
    · subst ha
      by_cases h : a = k' <;> simp_all [SMap.find?]
    · by_cases h : k = k'
      · subst h; simp_all [SMap.find?]
      · by_cases h' : a = k' <;> simp_all [SMap.find?]

@[simp] theorem SMap.find?_erase_same (m : SMap α) (k : Nat) : SMap.find? (SMap.erase m k) k = none := by
  simp [SMap.find?_erase]

/-- A read after a write that lists no default. -/
theorem SMap.get_put [DecidableEq α] (m : SMap α) (k k' : Nat) (v d : α) :
    SMap.get (SMap.put m k v d) k' d = if k = k' then v else SMap.get m k' d := by
  unfold SMap.put
  split
  · subst_vars
    unfold SMap.get
    rw [SMap.find?_erase]
    by_cases h : k = k' <;> simp [h]
  · exact SMap.get_set m k k' v d

@[simp] theorem SMap.get_put_same [DecidableEq α] (m : SMap α) (k : Nat) (v d : α) :
    SMap.get (SMap.put m k v d) k d = v := by simp [SMap.get_put]

theorem SMap.get_put_other [DecidableEq α] (m : SMap α) {k k' : Nat} (v d : α) (h : k ≠ k') :
    SMap.get (SMap.put m k v d) k' d = SMap.get m k' d := by simp [SMap.get_put, h]

/-- A lookup after a change in place. -/
theorem SMap.find?_modify (m : SMap α) (k k' : Nat) (f : α → α) :
    SMap.find? (SMap.modify m k f) k' = if k = k' then (SMap.find? m k').map f else SMap.find? m k' := by
  induction m with
  | nil => simp [SMap.modify]
  | cons p r ih =>
    obtain ⟨a, b⟩ := p
    unfold SMap.modify at ih ⊢
    by_cases ha : a = k <;> by_cases h : k = k' <;> by_cases h' : a = k' <;> simp_all [SMap.find?]

@[simp] theorem SMap.find?_modify_same (m : SMap α) (k : Nat) (f : α → α) :
    SMap.find? (SMap.modify m k f) k = (SMap.find? m k).map f := by simp [SMap.find?_modify]

/-! ### The canonical form -/

/-- Every key of `m` lies above `k`. -/
def SMap.above (k : Nat) (m : SMap α) : Prop := ∀ p ∈ m, k < p.1

/-- Keys strictly rise. -/
def SMap.sorted : SMap α → Prop
  | [] => True
  | p :: r => SMap.above p.1 r ∧ SMap.sorted r

theorem SMap.above_set {m : SMap α} {a k : Nat} {v : α} (h : SMap.above a m) (hk : a < k) :
    SMap.above a (SMap.set m k v) := by
  induction m with
  | nil =>
    intro p hp
    simp [SMap.set] at hp
    subst hp
    exact hk
  | cons q r ih =>
    obtain ⟨b, w⟩ := q
    have hb : a < b := h (b, w) (by simp)
    have hr : SMap.above a r := fun p hp => h p (by simp [hp])
    intro p hp
    unfold SMap.set at hp
    split at hp
    · simp only [List.mem_cons] at hp
      rcases hp with rfl | rfl | hp
      · exact hk
      · exact hb
      · exact hr p hp
    · split at hp
      · simp only [List.mem_cons] at hp
        rcases hp with rfl | hp
        · exact hk
        · exact hr p hp
      · simp only [List.mem_cons] at hp
        rcases hp with rfl | hp
        · exact hb
        · exact ih hr p hp

theorem SMap.sorted_set {m : SMap α} {k : Nat} {v : α} (h : SMap.sorted m) : SMap.sorted (SMap.set m k v) := by
  induction m with
  | nil =>
    refine ⟨?_, trivial⟩
    intro p hp
    cases hp
  | cons q r ih =>
    obtain ⟨b, w⟩ := q
    obtain ⟨h1, h2⟩ := h
    unfold SMap.set
    split
    next hlt =>
      refine ⟨?_, h1, h2⟩
      intro p hp
      simp only [List.mem_cons] at hp
      rcases hp with rfl | hp
      · exact hlt
      · exact Nat.lt_trans hlt (h1 p hp)
    next hlt =>
      split
      next he =>
        subst he
        exact ⟨h1, h2⟩
      next he => exact ⟨SMap.above_set h1 (show b < k by simp at hlt he; omega), ih h2⟩

theorem SMap.sorted_filter {m : SMap α} (f : Nat × α → Bool) (h : SMap.sorted m) :
    SMap.sorted (m.filter f : SMap α) := by
  induction m with
  | nil => trivial
  | cons q r ih =>
    obtain ⟨h1, h2⟩ := h
    simp only [List.filter_cons]
    split
    · exact ⟨fun p hp => h1 p (List.mem_filter.mp hp |>.1), ih h2⟩
    · exact ih h2

theorem SMap.mem_set {m : SMap α} {k : Nat} {v : α} {p : Nat × α} (h : p ∈ SMap.set m k v) : p = (k, v) ∨ p ∈ m := by
  induction m with
  | nil => simpa [SMap.set] using h
  | cons q r ih =>
    obtain ⟨b, w⟩ := q
    unfold SMap.set at h
    split at h
    · simpa using h
    · split at h
      · simp only [List.mem_cons] at h ⊢
        rcases h with h | h
        · exact .inl h
        · exact .inr (.inr h)
      · simp only [List.mem_cons] at h ⊢
        rcases h with h | h
        · exact .inr (.inl h)
        · rcases ih h with h | h
          · exact .inl h
          · exact .inr (.inr h)

theorem Memory.rising_iff (m : Memory) : Memory.rising m = true ↔ SMap.sorted m := by
  induction m with
  | nil => simp [Memory.rising, SMap.sorted]
  | cons p r ih =>
    cases r with
    | nil =>
      simp only [Memory.rising, SMap.sorted, and_true, true_iff]
      intro q hq
      cases hq
    | cons q r =>
      simp only [Memory.rising, Bool.and_eq_true, decide_eq_true_eq, ih]
      constructor
      · rintro ⟨h1, h2⟩
        refine ⟨?_, h2⟩
        intro x hx
        simp only [List.mem_cons] at hx
        rcases hx with rfl | hx
        · exact h1
        · exact Nat.lt_trans h1 (h2.1 x hx)
      · rintro ⟨h1, h2⟩
        exact ⟨h1 q (by simp), h2⟩

/-- The canonical form, in the terms of its parts. -/
theorem Memory.wf_iff (m : Memory) : Memory.wf m = true ↔ SMap.sorted m ∧ ∀ p ∈ m, p.2 ≠ Memory.unlisted := by
  unfold Memory.wf
  rw [Bool.and_eq_true, Memory.rising_iff]
  simp

theorem Memory.wf_nil : Memory.wf [] = true := rfl

/-- A filtered memory keeps its form. -/
theorem Memory.wf_filter {m : Memory} (f : Host.Cell → Bool) (h : Memory.wf m = true) :
    Memory.wf (m.filter f) = true := by
  rw [Memory.wf_iff] at h ⊢
  exact ⟨SMap.sorted_filter f h.1, fun p hp => h.2 p (List.mem_filter.mp hp |>.1)⟩

/-- Writing a byte keeps the form. -/
theorem Memory.wf_write {m : Memory} (a : Nat) (b : Byte) (h : Memory.wf m = true) :
    Memory.wf (Memory.write m a b) = true := by
  unfold Memory.write SMap.put
  split
  · exact Memory.wf_filter _ h
  next hb =>
    rw [Memory.wf_iff] at h ⊢
    refine ⟨SMap.sorted_set h.1, ?_⟩
    intro p hp
    rcases SMap.mem_set hp with rfl | hp
    · exact hb
    · exact h.2 p hp

/-- Writing bytes keeps the form. -/
theorem Memory.wf_writeN (n : Nat) {m : Memory} (a v : Nat) (h : Memory.wf m = true) :
    Memory.wf (Memory.writeN m a n v) = true := by
  induction n generalizing m a v with
  | zero => exact h
  | succ n ih => exact ih _ _ (Memory.wf_write _ _ h)

theorem Memory.wf_zero {m : Memory} (a n : Nat) (h : Memory.wf m = true) : Memory.wf (Memory.zero m a n) = true :=
  Memory.wf_filter _ h

theorem Memory.wf_slice {m : Memory} (a n : Nat) (h : Memory.wf m = true) : Memory.wf (Memory.slice m a n) = true :=
  Memory.wf_filter _ h

/-! ### Reads and writes -/

/-- A byte read after a byte written. -/
theorem Memory.read_write (m : Memory) (a a' : Nat) (b : Byte) :
    Memory.read (Memory.write m a b) a' = if a = a' then b else Memory.read m a' :=
  SMap.get_put m a a' b _

@[simp] theorem Memory.read_write_same (m : Memory) (a : Nat) (b : Byte) :
    Memory.read (Memory.write m a b) a = b := by simp [Memory.read_write]

theorem Memory.read_write_other (m : Memory) {a a' : Nat} (b : Byte) (h : a ≠ a') :
    Memory.read (Memory.write m a b) a' = Memory.read m a' := by simp [Memory.read_write, h]

/-- A byte outside the bytes written. -/
theorem Memory.read_writeN_other (n : Nat) (m : Memory) {a a' v : Nat} (h : a' < a ∨ a + n ≤ a') :
    Memory.read (Memory.writeN m a n v) a' = Memory.read m a' := by
  induction n generalizing m a v with
  | zero => rfl
  | succ n ih =>
    unfold Memory.writeN
    rw [ih _ (by omega), Memory.read_write_other _ _ (by omega)]

/-- A byte inside the bytes written (R11). -/
theorem Memory.read_writeN_in (n : Nat) (m : Memory) {a v i : Nat} (h : i < n) :
    Memory.read (Memory.writeN m a n v) (a + i) = BitVec.ofNat 8 (v / 256 ^ i) := by
  induction n generalizing m a v i with
  | zero => omega
  | succ n ih =>
    unfold Memory.writeN
    cases i with
    | zero => rw [Memory.read_writeN_other _ _ (by omega)]; simp
    | succ i =>
      have := ih (m := Memory.write m a (BitVec.ofNat 8 v)) (a := a + 1) (v := v / 256) (i := i) (by omega)
      rw [show a + (i + 1) = a + 1 + i by omega, this, Nat.div_div_eq_div_mul, ← Nat.pow_succ']

/-- Bytes read away from the bytes written. -/
theorem Memory.readN_writeN_other (k n : Nat) (m : Memory) {a a' v : Nat} (h : a' + k ≤ a ∨ a + n ≤ a') :
    Memory.readN (Memory.writeN m a n v) a' k = Memory.readN m a' k := by
  induction k generalizing a' with
  | zero => rfl
  | succ k ih =>
    unfold Memory.readN
    rw [Memory.read_writeN_other _ _ (by omega), ih (by omega)]

/-- Bytes read back. -/
theorem Memory.readN_writeN (n : Nat) (m : Memory) (a v : Nat) :
    Memory.readN (Memory.writeN m a n v) a n = v % 256 ^ n := by
  induction n generalizing m a v with
  | zero => simp [Memory.readN, Nat.mod_one]
  | succ n ih =>
    show (Memory.read (Memory.writeN m a (n + 1) v) a).toNat +
      256 * Memory.readN (Memory.writeN (Memory.write m a (BitVec.ofNat 8 v)) (a + 1) n (v / 256)) (a + 1) n = _
    rw [ih]
    have := Memory.read_writeN_in (n + 1) m (a := a) (v := v) (i := 0) (by omega)
    simp only [Nat.add_zero, Nat.pow_zero, Nat.div_one] at this
    rw [this, BitVec.toNat_ofNat, show 256 ^ (n + 1) = 256 * 256 ^ n from Nat.pow_succ',
      Nat.mod_mul (x := v) (a := 256) (b := 256 ^ n)]

end Sys2Proof.Machine
end

