-- ==== Sys2Proof/Laws/Regs.lean ====
section
/-! SUPPORT.  What reading a warp, a group and their registers gives after each update. -/

namespace Sys2Proof.Machine

/-! ### Warps, groups, cores, columns, towers, contexts -/

theorem Dev.warp_setWarp (d : Dev) (c s c' s' : Nat) (w : Warp) :
    (d.setWarp c s w).warp c' s' = if wkey c s = wkey c' s' then w else d.warp c' s' := by
  unfold Dev.warp Dev.setWarp
  exact SMap.get_set _ _ _ _ _

@[simp] theorem Dev.warp_setWarp_same (d : Dev) (c s : Nat) (w : Warp) : (d.setWarp c s w).warp c s = w := by
  simp [Dev.warp_setWarp]

theorem Dev.warp_setWarp_other (d : Dev) {c s c' s' : Nat} (w : Warp) (h : wkey c s ≠ wkey c' s') :
    (d.setWarp c s w).warp c' s' = d.warp c' s' := by simp [Dev.warp_setWarp, h]

@[simp] theorem Dev.warp_modWarp_same (d : Dev) (c s : Nat) (f : Warp → Warp) :
    (d.modWarp c s f).warp c s = f (d.warp c s) := by simp [Dev.modWarp]

theorem Dev.warp_modWarp_other (d : Dev) {c s c' s' : Nat} (f : Warp → Warp) (h : wkey c s ≠ wkey c' s') :
    (d.modWarp c s f).warp c' s' = d.warp c' s' := by simp [Dev.modWarp, Dev.warp_setWarp, h]

/-- The warp that issues, after a change of it. -/
@[simp] theorem Dev.curWarp_modCur (d : Dev) (f : Warp → Warp) : (d.modCur f).curWarp = f d.curWarp := by
  unfold Dev.curWarp
  rw [Dev.modCur_cur]
  unfold Dev.modCur
  simp

theorem Dev.warp_modCur_other (d : Dev) {c s : Nat} (f : Warp → Warp) (h : wkey d.cur.core d.cur.slot ≠ wkey c s) :
    (d.modCur f).warp c s = d.warp c s := Dev.warp_modWarp_other d f h

theorem Dev.grp_modGrp (d : Dev) (k k' : Nat) (f : Group → Group) (h : (d.groups.find? k').isSome) :
    (d.modGrp k f).grp k' = if k = k' then f (d.grp k') else d.grp k' := by
  unfold Dev.grp Dev.modGrp SMap.get
  simp only [SMap.find?_modify]
  cases hk : SMap.find? d.groups k' with
  | none => rw [hk] at h; cases h
  | some g => by_cases hk' : k = k' <;> simp [hk']

theorem Dev.grp_setGrp (d : Dev) (k k' : Nat) (g : Group) :
    (d.setGrp k g).grp k' = if k = k' then g else d.grp k' := SMap.get_set _ _ _ _ _

theorem Dev.core_modCore (d : Dev) (k k' : Nat) (f : Core → Core) :
    (d.modCore k f).core k' = if k = k' then f (d.core k) else d.core k' := SMap.get_set _ _ _ _ _

/-- A vector result leaves every core's clock as it is. -/
@[simp] theorem Dev.clk_putVec (d : Dev) (k n : Nat) (v : Nat → Nat → Word) (c : Nat) : (d.putVec k n v).clk c = d.clk c := by
  unfold Dev.clk Dev.core
  rw [Dev.putVec_now, Dev.putVec_cores]

theorem Dev.col_modCol (d : Dev) (k k' : Nat) (f : Column → Column) :
    (d.modCol k f).col k' = if k = k' then f (d.col k) else d.col k' := SMap.get_set _ _ _ _ _

theorem Dev.tower_modTower (d : Dev) (k k' : Nat) (f : Tower → Tower) :
    (d.modTower k f).tower k' = if k = k' then f (d.tower k) else d.tower k' := SMap.get_set _ _ _ _ _

theorem Dev.ctx_modCtx (d : Dev) (k k' : Nat) (f : Ctx → Ctx) :
    (d.modCtx k f).ctx k' = if k = k' then f (d.ctx k) else d.ctx k' := SMap.get_set _ _ _ _ _

theorem Dev.queue_modQueue (d : Dev) (k k' : Nat) (f : Queue → Queue) :
    (d.modQueue k f).queue k' = if k = k' then f (d.queue k) else d.queue k' := SMap.get_set _ _ _ _ _

theorem Dev.head_modHead (d : Dev) (k k' : Nat) (f : Head → Head) :
    (d.modHead k f).head k' = if k = k' then f (d.head k) else d.head k' := SMap.get_set _ _ _ _ _

/-! ### Registers of a warp -/

theorem Warp.phys_setPhys (w : Warp) (r l r' l' : Nat) (x : Word) (hl : l < 32) (hl' : l' < 32) :
    (w.setPhys r l x).phys r' l' = if r = r' ∧ l = l' then x else w.phys r' l' := by
  unfold Warp.phys Warp.setPhys
  rw [SMap.get_put]
  by_cases h : r = r' ∧ l = l'
  · simp [h]
  · have : ¬ r * 32 + l = r' * 32 + l' := by omega
    simp [h, this]

theorem Warp.sr_setSr (w : Warp) (n n' : Nat) (x : DWord) :
    (w.setSr n x).sr n' = if n = n' ∧ n ≠ 0 then x else w.sr n' := by
  unfold Warp.sr Warp.setSr
  by_cases h : n = 0
  · simp [h]
  · by_cases h' : n' = 0
    · simp [h, h']
    · simp only [h, h', if_false]
      rw [SMap.get_put]
      by_cases h'' : n = n' <;> simp [h'', h']

/-- s0 reads 0 (R63). -/
@[simp] theorem Warp.sr_zero (w : Warp) : w.sr 0 = 0 := rfl

theorem Warp.fibre_setFibre (w : Warp) (l l' : Nat) (f : Fibre) :
    (w.setFibre l f).fibre l' = if l = l' then f else w.fibre l' := SMap.get_set _ _ _ _ _

theorem Warp.fibre_modFibre (w : Warp) (l l' : Nat) (f : Fibre → Fibre) :
    (w.modFibre l f).fibre l' = if l = l' then f (w.fibre l) else w.fibre l' := Warp.fibre_setFibre _ _ _ _

theorem Warp.jm_setJm (w : Warp) (k k' : Nat) (x : Word) :
    (w.setJm k x).jm k' = if k = k' then x else w.jm k' := SMap.get_put _ _ _ _ _

/-- p0 reads 1 (R63). -/
@[simp] theorem Fibre.pred_zero (f : Fibre) : f.pred 0 = true := rfl

theorem Fibre.pred_setPred (f : Fibre) (p q : Nat) (b : Bool) (hp : p < 16) :
    (f.setPred p b).pred q = if p = q ∧ p ≠ 0 then b else f.pred q := by
  unfold Fibre.pred Fibre.setPred
  by_cases h0 : p = 0
  · simp [h0]
  · by_cases hq : q = 0
    · subst hq; simp [h0]
    · have hq' : (q == 0) = false := by simp [hq]
      by_cases h : p = q
      · subst h; cases b <;> simp [h0, hp]
      · have h1 : ¬ q = p := fun x => h x.symm
        cases b
        · simp only [h0, h, hq', if_false, false_and, Bool.false_or, Bool.false_eq_true]
          rw [BitVec.getLsbD_and, BitVec.getLsbD_not, BitVec.getLsbD_shiftLeft]
          by_cases hlt : q < p
          · by_cases hq16 : q < 16 <;> simp [hlt, hq16]
            exact BitVec.getLsbD_of_ge _ _ (by omega)
          · by_cases hq16 : q < 16
            · have : ¬ q - p = 0 := by omega
              simp [hlt, hq16, this]
            · simp [hq16]
              exact BitVec.getLsbD_of_ge _ _ (by omega)
        · simp only [h0, h, hq', if_false, if_true, false_and, Bool.false_or]
          rw [BitVec.getLsbD_or, BitVec.getLsbD_shiftLeft]
          have : (1#16).getLsbD (q - p) = false ∨ q < p := by
            by_cases hlt : q < p
            · exact .inr hlt
            · refine .inl ?_
              have : ¬ q - p = 0 := by omega
              simp [this]
          rcases this with h2 | h2 <;> simp [h2]

/-! ### The lanes of a set -/

theorem mem_lanesOf (m : Word) (l : Nat) : l ∈ lanesOf m ↔ l < 32 ∧ m.getLsbD l = true := by
  simp [lanesOf]

/-- A change of every lane of a list, each once or more. -/
theorem fold_modFibre (f : Nat → Fibre → Fibre) (idem : ∀ l x, f l (f l x) = f l x) (ls : List Nat) (w : Warp) (l : Nat) :
    (ls.foldl (fun w l => w.modFibre l (f l)) w).fibre l = if l ∈ ls then f l (w.fibre l) else w.fibre l := by
  induction ls generalizing w with
  | nil => simp
  | cons a r ih =>
    simp only [List.foldl_cons]
    rw [ih, Warp.fibre_modFibre]
    by_cases h : l ∈ r
    · by_cases ha : a = l
      · subst ha; simp [h, idem]
      · simp [h, ha]
    · by_cases ha : a = l
      · subst ha; simp [h]
      · have : ¬ l = a := fun x => ha x.symm
        simp [h, ha, this]

/-- Folding a change that keeps a reading keeps it. -/
theorem foldl_keeps {β γ σ : Type} (g : σ → γ) (f : σ → β → σ) (h : ∀ s b, g (f s b) = g s) (l : List β) (s : σ) :
    g (l.foldl f s) = g s := by
  induction l generalizing s with
  | nil => rfl
  | cons b r ih => rw [List.foldl_cons, ih, h]

/-! ### Vector results -/

/-- What the inner fold of a vector result does to one register of one lane. -/
theorem phys_foldl_range (w : Warp) (l l' r f k : Nat) (v : Nat → Word) (hl : l < 32) (hl' : l' < 32) :
    ((List.range k).foldl (fun w j => w.setPhys (f + j) l (v j)) w).phys r l' =
      if l = l' ∧ f ≤ r ∧ r < f + k then v (r - f) else w.phys r l' := by
  induction k with
  | zero => simp only [List.range_zero, List.foldl_nil]; split <;> first | rfl | omega
  | succ k ih =>
    rw [List.range_succ, List.foldl_append, List.foldl_cons, List.foldl_nil, Warp.phys_setPhys _ _ _ _ _ _ hl hl', ih]
    by_cases h : l = l'
    · subst h
      by_cases h1 : r = f + k
      · subst h1; simp
      · by_cases h2 : f ≤ r ∧ r < f + k
        · have : f + k ≠ r := fun x => h1 x.symm
          have h3 : f ≤ r ∧ r < f + (k + 1) := by omega
          simp [h2, h3, this]
        · have h3 : ¬ (f ≤ r ∧ r < f + (k + 1)) := by omega
          have h4 : ¬ f + k = r := by omega
          simp [h2, h3, h4]
    · simp [h]

theorem phys_foldl_lanes (ls : List Nat) (hs : ∀ l ∈ ls, l < 32) (w : Warp) (f k : Nat) (v : Nat → Nat → Word) (r l : Nat)
    (hl : l < 32) :
    (ls.foldl (fun w l => (List.range k).foldl (fun w j => w.setPhys (f + j) l (v l j)) w) w).phys r l =
      if l ∈ ls ∧ f ≤ r ∧ r < f + k then v l (r - f) else w.phys r l := by
  induction ls generalizing w with
  | nil => simp
  | cons a t ih =>
    have ha : a < 32 := hs a (by simp)
    rw [List.foldl_cons, ih (fun l h => hs l (by simp [h])), phys_foldl_range _ _ _ _ _ _ _ ha hl]
    by_cases h1 : l ∈ t
    · by_cases h2 : f ≤ r ∧ r < f + k
      · simp [h1, h2]
      · have : ¬ (a = l ∧ f ≤ r ∧ r < f + k) := fun x => h2 x.2
        simp [h2]
    · by_cases h2 : a = l
      · subst h2; simp [h1]
      · have h3 : ¬ l = a := fun x => h2 x.symm
        simp [h1, h2, h3]

/-- The registers of the issuing warp after words were written to lanes of it. -/
theorem Dev.phys_putLanes (d : Dev) (m : Word) (field k : Nat) (val : Nat → Nat → Word) (r l : Nat) (hl : l < 32) :
    (d.putLanes m field k val).curWarp.phys r l =
      if m.getLsbD l = true ∧ d.cur.base * 16 + field ≤ r ∧ r < d.cur.base * 16 + field + k then
        val l (r - (d.cur.base * 16 + field)) else d.curWarp.phys r l := by
  unfold Dev.putLanes
  rw [Dev.curWarp_modCur]
  have := phys_foldl_lanes (lanesOf m) (fun l h => ((mem_lanesOf m l).mp h).1) d.curWarp (d.cur.base * 16 + field) k val r l hl
  rw [this]
  simp [mem_lanesOf, hl]

/-- The registers of the issuing warp after a vector result: active lanes hold the result, the other lanes of
the batch 0 under Z, and every other register and lane is as before (R185). -/
theorem Dev.phys_putVec (d : Dev) (field k : Nat) (val : Nat → Nat → Word) (r l : Nat) (hl : l < 32) :
    (d.putVec field k val).curWarp.phys r l =
      if d.cur.base * 16 + field ≤ r ∧ r < d.cur.base * 16 + field + k then
        (if d.active.getLsbD l = true then val l (r - (d.cur.base * 16 + field))
         else if d.zeroing = true ∧ d.cur.lanes.getLsbD l = true then 0 else d.curWarp.phys r l)
      else d.curWarp.phys r l := by
  unfold Dev.putVec
  dsimp only
  split
  next hz =>
    rw [Dev.phys_putLanes _ _ _ _ _ _ _ hl, Dev.phys_putLanes _ _ _ _ _ _ _ hl, Dev.putLanes_cur]
    by_cases h : d.cur.base * 16 + field ≤ r ∧ r < d.cur.base * 16 + field + k
    · by_cases ha : d.active.getLsbD l = true <;> by_cases hb : d.cur.lanes.getLsbD l = true <;>
        simp_all
    · simp [h]
  next hz =>
    rw [Dev.phys_putLanes _ _ _ _ _ _ _ hl]
    by_cases h : d.cur.base * 16 + field ≤ r ∧ r < d.cur.base * 16 + field + k
    · by_cases ha : d.active.getLsbD l = true <;> simp_all
    · simp [h]

/-- A reading of the warp that no vector register changes is kept by a write of lanes. -/
theorem Dev.putLanes_keeps {γ : Type} (g : Warp → γ) (h : ∀ w r l x, g (Warp.setPhys w r l x) = g w) (d : Dev) (m : Word)
    (field k : Nat) (val : Nat → Nat → Word) : g (d.putLanes m field k val).curWarp = g d.curWarp := by
  unfold Dev.putLanes
  rw [Dev.curWarp_modCur]
  exact foldl_keeps g _ (fun w l => foldl_keeps g _ (fun w j => h _ _ _ _) _ _) _ _

/-- A reading of the warp that no vector register changes is kept by a vector result. -/
theorem Dev.putVec_keeps {γ : Type} (g : Warp → γ) (h : ∀ w r l x, g (Warp.setPhys w r l x) = g w) (d : Dev)
    (field k : Nat) (val : Nat → Nat → Word) : g (d.putVec field k val).curWarp = g d.curWarp := by
  unfold Dev.putVec
  dsimp only
  split
  · rw [Dev.putLanes_keeps g h, Dev.putLanes_keeps g h]
  · rw [Dev.putLanes_keeps g h]

/-- Another warp is left alone by a vector result. -/
theorem Dev.warp_putVec_other (d : Dev) {c s : Nat} (field k : Nat) (val : Nat → Nat → Word)
    (h : wkey d.cur.core d.cur.slot ≠ wkey c s) : (d.putVec field k val).warp c s = d.warp c s := by
  unfold Dev.putVec
  dsimp only
  split
  · have h' : wkey (d.putLanes d.active field k val).cur.core (d.putLanes d.active field k val).cur.slot ≠ wkey c s := by
      rw [Dev.putLanes_cur]; exact h
    exact (Dev.warp_modCur_other _ _ h').trans (Dev.warp_modCur_other _ _ h)
  · exact Dev.warp_modCur_other _ _ h

/-! ### Scalar, predicate and PC results -/

theorem Dev.curWarp_putSr (d : Dev) (n : Nat) (x : DWord) : (d.putSr n x).curWarp = d.curWarp.setSr n x :=
  Dev.curWarp_modCur _ _

/-- A lane's fibre after a predicate result (R190). -/
theorem Dev.fibre_putPred (d : Dev) (m : Word) (p : Nat) (val : Nat → Bool) (l : Nat) (hl : l < 32) :
    (d.putPred m p val).curWarp.fibre l =
      if m.getLsbD l = true then (d.curWarp.fibre l).setPred p (val l) else d.curWarp.fibre l := by
  unfold Dev.putPred
  rw [Dev.curWarp_modCur, fold_modFibre (fun l f => f.setPred p (val l))]
  · simp [mem_lanesOf, hl]
  · intro l x
    unfold Fibre.setPred
    by_cases h0 : p = 0
    · simp [h0]
    · cases val l <;> simp [h0, BitVec.or_assoc, BitVec.and_assoc]

/-- A lane's fibre after its PC was set. -/
theorem Dev.fibre_putPc (d : Dev) (m : Word) (t : Nat → DWord) (l : Nat) (hl : l < 32) :
    (d.putPc m t).curWarp.fibre l =
      if m.getLsbD l = true then { d.curWarp.fibre l with pc := t l } else d.curWarp.fibre l := by
  unfold Dev.putPc
  rw [Dev.curWarp_modCur, fold_modFibre (fun l f => { f with pc := t l }) (fun _ _ => rfl)]
  simp [mem_lanesOf, hl]

/-- A reading of the warp that no fibre changes is kept by a predicate or a PC result. -/
theorem foldFibre_keeps {γ : Type} (g : Warp → γ) (h : ∀ w l f, g (Warp.modFibre w l f) = g w) (f : Nat → Fibre → Fibre)
    (ls : List Nat) (w : Warp) : g (ls.foldl (fun w l => w.modFibre l (f l)) w) = g w :=
  foldl_keeps g _ (fun _ _ => h _ _ _) _ _

end Sys2Proof.Machine
end

