-- ==== Sys2Proof/Laws/Words.lean ====
section
/-! SUPPORT.  What a word does once it issues, and the results of the shared operand forms. -/

namespace Sys2Proof.Machine

open Sys2Proof

/-- A word that issues has its effect, and nothing else happens. -/
theorem run_word {s : State} {i : Instr} {chk : Env → Dev → Option Raise} (eff : Op) (h : IssuesWith s i chk) :
    s.run (word i.props chk eff) = .next { s with dev := eff s.env s.dev } := by
  obtain ⟨hp, hs⟩ := h
  unfold State.run word
  rcases hs with hs | ⟨hg, hc⟩
  · simp [hs, hp]
  · by_cases hq : s.dev.cur.snap.isSome = true
    · simp [hq, hp]
    · simp [hq, hp, hg, hc]

theorem issues_with {s : State} {i : Instr} (h : Issues s i) : IssuesWith s i (fun _ _ => none) :=
  ⟨h.1, h.2.imp id (fun x => ⟨x, rfl⟩)⟩

/-- A word without checks of its own that issues has its effect. -/
theorem run_plain {s : State} {i : Instr} (eff : Dev → Dev) (h : Issues s i) :
    s.run (plain i.props eff) = .next { s with dev := eff s.dev } :=
  run_word (fun _ d => eff d) (issues_with h)

theorem warpOnly_modCur (s : State) (f : Warp → Warp) : WarpOnly s { s with dev := s.dev.modCur f } :=
  ⟨rfl, rfl, fun _ _ h => Dev.warp_modCur_other _ _ (Ne.symm h)⟩

theorem warpOnly_trans {s t u : State} (h : WarpOnly s t) (h' : WarpOnly t u) : WarpOnly s u := by
  have hc : t.dev.cur = s.dev.cur := by rw [h.2.1]
  refine ⟨h'.1.trans h.1, ?_, fun c k n => (h'.2.2 c k (by rw [hc]; exact n)).trans (h.2.2 c k n)⟩
  have h1 := h.2.1
  have h2 := h'.2.1
  rw [h1] at h2
  exact h2

theorem warpOnly_putLanes (s : State) (m : Word) (field k : Nat) (val : Nat → Nat → Word) :
    WarpOnly s { s with dev := s.dev.putLanes m field k val } := warpOnly_modCur s _

theorem warpOnly_putVec (s : State) (field k : Nat) (val : Nat → Nat → Word) :
    WarpOnly s { s with dev := s.dev.putVec field k val } := by
  unfold Dev.putVec
  dsimp only
  split
  · exact warpOnly_trans (warpOnly_putLanes s _ _ _ _)
      (warpOnly_putLanes { s with dev := s.dev.putLanes s.dev.active field k val } _ _ _ _)
  · exact warpOnly_putLanes s _ _ _ _

/-- A floating-point word that issues meets its ARITH check. -/
theorem floatIssues_with {s : State} {i : Instr} {g : Dev → Nat → FRes} (h : FloatIssues s i g) :
    IssuesWith s i (fun _ d => arithCheck g d) := by
  refine ⟨h.1, h.2.imp id (fun x => ⟨x.1, ?_⟩)⟩
  show arithCheck g s.dev = none
  unfold arithCheck
  split
  · rfl
  · simp [x.2]

/-- A vector result is the whole effect of the words that end in one. -/
theorem vectorResult_putVec (s : State) (field k : Nat) (val : Nat → Nat → Word) :
    VectorResult s { s with dev := s.dev.putVec field k val } field k val := by
  refine ⟨warpOnly_putVec s _ _ _, ?_, fun r l hl => Dev.phys_putVec _ _ _ _ _ _ hl⟩
  have := Dev.putVec_keeps (fun w => { w with v := [] }) (fun _ _ _ _ => rfl) s.dev field k val
  generalize (s.dev.putVec field k val).curWarp = w at this
  revert this
  cases w
  cases s.dev.curWarp
  simp

theorem vectorResult_congr {s t : State} {field k : Nat} {v v' : Nat → Nat → Word}
    (h : ∀ l j, l < 32 → s.dev.active.getLsbD l = true → j < k → v l j = v' l j) (hv : VectorResult s t field k v) : VectorResult s t field k v' := by
  refine ⟨hv.1, hv.2.1, fun r l hl => ?_⟩
  rw [hv.2.2 r l hl]
  by_cases hr : s.dev.cur.base * 16 + field ≤ r ∧ r < s.dev.cur.base * 16 + field + k
  · rw [if_pos hr, if_pos hr]
    split
    next ha => exact h l _ hl ha (by omega)
    next => rfl
  · rw [if_neg hr, if_neg hr]

/-- A word whose effect is a vector result, in the form the statements have. -/
theorem exists_vec {s : State} {i : Instr} {fd k : Nat} {eff : Dev → Dev} {v v' : Nat → Nat → Word}
    {o : Host.Outcome State Fault Refusal} (h : Issues s i) (he : o = s.run (plain i.props eff))
    (hv : eff s.dev = s.dev.putVec fd k v) (hc : ∀ l j, l < 32 → j < k → v l j = v' l j) :
    ∃ t, o = .next t ∧ VectorResult s t fd k v' := by
  refine ⟨_, he.trans (run_plain _ h), vectorResult_congr (fun l j hl _ hj => hc l j hl hj) ?_⟩
  rw [hv]
  exact vectorResult_putVec _ _ _ _

theorem floatResult_congr {s t : State} {field k lat fl : Nat} {v v' : Nat → Nat → Word}
    (h : ∀ l j, l < 32 → s.dev.active.getLsbD l = true → j < k → v l j = v' l j)
    (hv : FloatResult s t field k v lat fl) : FloatResult s t field k v' lat fl := by
  refine ⟨hv.1, hv.2.1, fun r l hl => ?_⟩
  rw [hv.2.2 r l hl]
  by_cases hr : s.dev.cur.base * 16 + field ≤ r ∧ r < s.dev.cur.base * 16 + field + k
  · rw [if_pos hr, if_pos hr]
    split
    next ha => exact h l _ hl ha (by omega)
    next => rfl
  · rw [if_neg hr, if_neg hr]

/-- A scalar result is the whole effect of the words that end in one. -/
theorem scalarResult_putSr (s : State) (n : Nat) (x : DWord) :
    ScalarResult s { s with dev := s.dev.putSr n x } n x := by
  refine ⟨warpOnly_modCur s _, ?_, ?_⟩
  · simp only [Dev.curWarp_putSr]
    unfold Warp.setSr
    split <;> rfl
  · intro m
    simp only [Dev.curWarp_putSr, Warp.sr_setSr]
    by_cases h : n = m <;> simp [h, eq_comm]

/-- A predicate result is the whole effect of the words that end in one. -/
theorem predicateResult_putPred (s : State) (m : Word) (p : Nat) (val : Nat → Bool) :
    PredicateResult s { s with dev := s.dev.putPred m p val } m p val := by
  refine ⟨warpOnly_modCur s _, ?_, fun l hl => Dev.fibre_putPred _ _ _ _ _ hl⟩
  have := foldFibre_keeps (fun w => { w with fib := [] }) (fun _ _ _ => rfl)
    (fun l f => f.setPred p (val l)) (lanesOf m) s.dev.curWarp
  unfold Dev.putPred
  rw [Dev.curWarp_modCur]
  generalize (List.foldl _ s.dev.curWarp (lanesOf m)) = w at this
  revert this
  cases w
  cases s.dev.curWarp
  simp

/-- The flags of a floating-point word beside its vector result. -/
theorem floatResult_raiseFlags (s : State) (field k : Nat) (val : Nat → Nat → Word) (lat fl : Nat) :
    FloatResult s { s with dev := raiseFlags (s.dev.putVec field k val) lat fl } field k val lat fl := by
  obtain ⟨h1, h2, h3⟩ := vectorResult_putVec s field k val
  refine ⟨warpOnly_trans h1 (warpOnly_modCur { s with dev := s.dev.putVec field k val } _), ?_, ?_⟩
  · unfold raiseFlags
    rw [Dev.curWarp_modCur, h2, Dev.putVec_cur, Dev.clk_putVec]
  · intro r l hl
    rw [← h3 r l hl]
    unfold raiseFlags
    rw [Dev.curWarp_modCur]
    rfl

/-- A floating-point word that issues has its result and its flags. -/
theorem exists_float {s : State} {i : Instr} {dst k : Nat} {g : Dev → Nat → FRes}
    {o : Host.Outcome State Fault Refusal} (h : FloatIssues s i g) (he : o = s.run (fWord i.props dst k g)) :
    ∃ t, o = .next t ∧ FloatResult s t dst k (fun l j => ((g s.dev l).1[j]?).getD 0) i.props.lat (allFlags s.dev g) := by
  refine ⟨_, he.trans (run_word _ ⟨h.1, h.2.imp id fun x => ⟨x.1, ?_⟩⟩), floatResult_raiseFlags _ _ _ _ _ _⟩
  show firstRaise [none, arithCheck g s.dev] = none
  have ha : arithCheck g s.dev = none := by
    unfold arithCheck
    split
    · rfl
    · simp [x.2]
  simp [firstRaise, ha]

end Sys2Proof.Machine
end

