-- ==== Sys2Proof/Tests/Slice0.lean ====
section
/-! SUPPORT.  Tests: ill-formed words, words decoded, the model beside worked examples of the spec, and, for every
statement with hypotheses, states and operands that meet them. -/

namespace Sys2Proof.Tests

set_option Elab.async false

open Sys2Proof Sys2Proof.Machine

/-! ### Helpers -/

/-- A word decodes to an instruction. -/
def decodesTo (x : Word × Instr) : Bool := match decode x.1 with
  | .ok i => i == x.2
  | .error _ => false

/-- A word breaks a static rule with a REASON, and its encoding decodes to nothing. -/
def refusedWith (x : Instr × Nat) : Bool :=
  x.1.check == some (.emulate x.2) && (match encode x.1 with
    | some w => (match decode w with
      | .ok _ => false
      | .error r => r == .emulate x.2 || isNever w)
    | none => false)

/-- The state in which a word placed on core 0 (log 1) issues alone, every lane in its batch. -/
def issuing (w : Word) : State :=
  (placeWord State.reset w).issuing
    { stream := fieldN w 28 3 == 4, lanes := 0xFFFFFFFF, gpc := BitVec.ofNat 64 placePc, wpc := BitVec.ofNat 64 placePc
      pkt := BitVec.ofNat 64 placePc, next := BitVec.ofNat 64 (placePc + 4), word := w }

/-- The same for an instruction. -/
def at_ (i : Instr) : State := issuing ((encode i).getD 0)

/-- A state with a change to the issuing warp, group, or the device. -/
def onWarp (s : State) (f : Warp → Warp) : State := { s with dev := s.dev.modCur f }
def onGroup (s : State) (f : Group → Group) : State := { s with dev := s.dev.modGrp s.dev.cur.gid f }
def onDev (s : State) (f : Dev → Dev) : State := { s with dev := f s.dev }

/-- The issuing batch is lane 0 alone. -/
def oneLane (s : State) : State := onDev s (fun d => { d with cur := { d.cur with lanes := 1 } })

/-- `Issues`, decided. -/
def issuesB (s : State) (i : Instr) : Bool := !s.dev.cur.probe && (guard s.dev i.props).isNone

theorem issues_of {s : State} {i : Instr} (h : issuesB s i = true) : Issues s i := by
  simp only [issuesB, Bool.and_eq_true, Bool.not_eq_true', Option.isNone_iff_eq_none] at h
  exact ⟨h.1, .inr h.2⟩

theorem issues_with_of {s : State} {i : Instr} {chk : Env → Dev → Option Raise} (h : issuesB s i = true)
    (hc : (chk s.env s.dev).isNone = true) : IssuesWith s i chk := by
  have := issues_of h
  simp only [issuesB, Bool.and_eq_true, Bool.not_eq_true', Option.isNone_iff_eq_none] at h hc
  exact ⟨h.1, .inr ⟨h.2, hc⟩⟩

theorem float_issues_of {s : State} {i : Instr} {g : Dev → Nat → FRes} (h : issuesB s i = true)
    (he : enabledFlags s.dev = 0) : FloatIssues s i g := by
  simp only [issuesB, Bool.and_eq_true, Bool.not_eq_true', Option.isNone_iff_eq_none] at h
  exact ⟨h.1, .inr ⟨h.2, by simp [he]⟩⟩

/-- The device after an instruction. -/
def after (i : Instr) (s : State) : Dev := match exec i s with
  | .next t => t.dev
  | _ => s.dev

/-! ### Decoding -/

def wordsVint1 : List (Word × Instr) :=
  [(0x00061430, .vaddS32 ⟨0, 12, 20, 24, 0⟩), (0x00461430, .vsubS32 ⟨0, 12, 20, 24, 0⟩), (0x00861430, .vmulS32 ⟨0, 12, 20, 24, 0⟩),
   (0x00C61430, .vmulhS32 ⟨0, 12, 20, 24, 0⟩), (0x01061430, .vmulhZ32 ⟨0, 12, 20, 24, 0⟩), (0x01461430, .vmadS32 ⟨0, 12, 20, 24, 0⟩),
   (0x01861430, .vminS32 ⟨0, 12, 20, 24, 0⟩), (0x01C61430, .vmaxS32 ⟨0, 12, 20, 24, 0⟩), (0x02061430, .vminZ32 ⟨0, 12, 20, 24, 0⟩),
   (0x02461430, .vmaxZ32 ⟨0, 12, 20, 24, 0⟩), (0x02861430, .vand ⟨0, 12, 20, 24, 0⟩), (0x02C61430, .vor ⟨0, 12, 20, 24, 0⟩),
   (0x03061430, .vxor ⟨0, 12, 20, 24, 0⟩), (0x03461430, .vandn ⟨0, 12, 20, 24, 0⟩), (0x03861430, .vshl ⟨0, 12, 20, 24, 0⟩),
   (0x03C61430, .vshr ⟨0, 12, 20, 24, 0⟩), (0x04061430, .vsar ⟨0, 12, 20, 24, 0⟩), (0x04461405, .vaddi ⟨0, 12, 20, 5⟩),
   (0x04860005, .vmovi ⟨0, 12, 5⟩), (0x04CD1430, .vcmp ⟨0, 3, 2, 20, 24, 0⟩), (0x050D1405, .vcmpi ⟨0, 3, 2, 20, 5⟩),
   (0x05461430, .vsel ⟨0, 12, 20, 24, 0⟩), (0x05861400, .vclz ⟨0, 12, 20⟩), (0x05C61400, .vpopc ⟨0, 12, 20⟩)]

def wordsVint2 : List (Word × Instr) :=
  [(0x06061400, .vbrev ⟨0, 12, 20⟩), (0x06461430, .vbins ⟨0, 12, 20, 24, 0⟩), (0x06861400, .vffcs ⟨0, 12, 20⟩),
   (0x06C61430, .vplset ⟨0, 12, 20, 24, 0⟩), (0x07061430, .vextr ⟨0, 12, 20, 24, 0⟩), (0x07461430, .vshflIdx ⟨0, 12, 20, 24, 0⟩),
   (0x07861430, .vshflXor ⟨0, 12, 20, 24, 0⟩), (0x07C61430, .vshflUp ⟨0, 12, 20, 24, 0⟩), (0x08061430, .vshflDn ⟨0, 12, 20, 24, 0⟩),
   (0x08461410, .vvote ⟨0, 12, 20, 1⟩), (0x08861410, .vred ⟨0, 12, 20, 1⟩), (0x08C61410, .vscan ⟨0, 12, 20, 1⟩),
   (0x09061400, .vmovV ⟨0, 12, 20⟩), (0x09060031, .vmovS ⟨0, 12, 24⟩), (0x09461405, .vbcast ⟨0, 12, 20, 5⟩),
   (0x09860000, .vlaneid ⟨0, 12⟩), (0x09C61422, .vmovs ⟨0, 12, 20, 17⟩), (0x0A061430, .vaddS64 ⟨0, 12, 20, 24, 0⟩),
   (0x0A461430, .vmulWideS32 ⟨0, 12, 20, 24, 0⟩), (0x0A861430, .vmadWideZ32 ⟨0, 12, 20, 24, 0⟩)]

/-- Vint: the words of the family, written from the fixed fields of spec/opcode_table.json (R54), decode to
what they stand for. -/
theorem test_decode_vint : ∀ x ∈ wordsVint1 ++ wordsVint2, decodesTo x = true := by decide +kernel

def wordsVflt1 : List (Word × Instr) :=
  [(0x10061430, .vaddF32 ⟨0, 12, 20, 24, 0⟩), (0x10461430, .vsubF32 ⟨0, 12, 20, 24, 0⟩), (0x10861430, .vmulF32 ⟨0, 12, 20, 24, 0⟩),
   (0x10C61430, .vfmaF32 ⟨0, 12, 20, 24, 0⟩), (0x11061430, .vminF32 ⟨0, 12, 20, 24, 0⟩), (0x11461430, .vmaxF32 ⟨0, 12, 20, 24, 0⟩),
   (0x118D1430, .vcmpF32 ⟨0, 3, 2, 20, 24, 0⟩), (0x11C61400, .vclassF32 ⟨0, 12, 20⟩), (0x12061430, .vsgnj ⟨0, 12, 20, 24, 0⟩),
   (0x12461400, .vrndF32 ⟨0, 12, 20⟩), (0x12861430, .vaddH2 ⟨0, 12, 20, 24, 0⟩), (0x12C61430, .vmulH2 ⟨0, 12, 20, 24, 0⟩),
   (0x13061430, .vfmaH2 ⟨0, 12, 20, 24, 0⟩), (0x13461430, .vaddB2 ⟨0, 12, 20, 24, 0⟩), (0x13861430, .vmulB2 ⟨0, 12, 20, 24, 0⟩),
   (0x13C61430, .vfmaB2 ⟨0, 12, 20, 24, 0⟩), (0x14061430, .vdot2B2 ⟨0, 12, 20, 24, 0⟩), (0x14461430, .vdot4T8 ⟨0, 12, 20, 24, 0⟩),
   (0x14861400, .vcvtF32S32 ⟨0, 12, 20⟩), (0x14C61400, .vcvtS32F32 ⟨0, 12, 20⟩), (0x15061400, .vcvtF32Z32 ⟨0, 12, 20⟩),
   (0x15461400, .vcvtZ32F32 ⟨0, 12, 20⟩), (0x15861430, .vcvtH2F32 ⟨0, 12, 20, 24, 0⟩), (0x15C61400, .vcvtF32H ⟨0, 12, 20⟩)]

def wordsVflt2 : List (Word × Instr) :=
  [(0x16061430, .vcvtB2F32 ⟨0, 12, 20, 24, 0⟩), (0x16461400, .vcvtF32B ⟨0, 12, 20⟩), (0x16861430, .vcvtT8F32 ⟨0, 12, 20, 24, 0⟩),
   (0x16C61430, .vcvtF32T8 ⟨0, 12, 20, 24, 0⟩), (0x17061430, .vcvtT6F32 ⟨0, 12, 20, 24, 0⟩), (0x17461430, .vcvtF32T6 ⟨0, 12, 20, 24, 0⟩),
   (0x17861430, .vbscale ⟨0, 12, 20, 24, 0⟩), (0x17C61430, .vcvtS8F32 ⟨0, 12, 20, 24, 0⟩), (0x18061480, .vsin ⟨0, 12, 20, 8⟩),
   (0x18461480, .vcos ⟨0, 12, 20, 8⟩), (0x18861480, .vatan2 ⟨0, 12, 20, 8⟩), (0x18C61480, .vexp2 ⟨0, 12, 20, 8⟩),
   (0x19061480, .vlog2 ⟨0, 12, 20, 8⟩), (0x19461480, .vsqrt ⟨0, 12, 20, 8⟩), (0x19861480, .vrsq ⟨0, 12, 20, 8⟩),
   (0x19C61480, .vrcp ⟨0, 12, 20, 8⟩), (0x1A061480, .vtanh ⟨0, 12, 20, 8⟩), (0x1A461480, .vsigm ⟨0, 12, 20, 8⟩),
   (0x1A861430, .vrbox ⟨0, 12, 20, 24, 0⟩), (0x1AC61430, .vrtri ⟨0, 12, 20, 24, 0⟩)]

/-- Vflt: the words of the family, written from the fixed fields of spec/opcode_table.json (R54), decode to
what they stand for. -/
theorem test_decode_vflt : ∀ x ∈ wordsVflt1 ++ wordsVflt2, decodesTo x = true := by decide +kernel

def wordsMem1 : List (Word × Instr) :=
  [(0x20061469, .ldZ8 ⟨0, 12, 20, 1, 1, 9⟩), (0x20461469, .ldS8 ⟨0, 12, 20, 1, 1, 9⟩), (0x20861469, .ldZ16 ⟨0, 12, 20, 1, 1, 9⟩),
   (0x20C61469, .ldS16 ⟨0, 12, 20, 1, 1, 9⟩), (0x21061469, .ld32 ⟨0, 12, 20, 1, 1, 9⟩), (0x21461469, .ld64 ⟨0, 12, 20, 1, 1, 9⟩),
   (0x21861469, .ld128 ⟨0, 12, 20, 1, 1, 9⟩), (0x21C61469, .st8 ⟨0, 12, 20, 1, 1, 9⟩), (0x22061469, .st16 ⟨0, 12, 20, 1, 1, 9⟩),
   (0x22461469, .st32 ⟨0, 12, 20, 1, 1, 9⟩), (0x22861469, .st64 ⟨0, 12, 20, 1, 1, 9⟩), (0x22C61469, .st128 ⟨0, 12, 20, 1, 1, 9⟩),
   (0x23061469, .lds32 ⟨0, 12, 20, 1, 1, 9⟩), (0x23461469, .lds64 ⟨0, 12, 20, 1, 1, 9⟩), (0x23861469, .lds128 ⟨0, 12, 20, 1, 1, 9⟩),
   (0x23C61469, .sts32 ⟨0, 12, 20, 1, 1, 9⟩), (0x24061469, .sts64 ⟨0, 12, 20, 1, 1, 9⟩), (0x24461469, .sts128 ⟨0, 12, 20, 1, 1, 9⟩),
   (0x24861474, .aaddS32 ⟨0, 12, 20, 3, 2, 1⟩), (0x24C61474, .aaddF32 ⟨0, 12, 20, 3, 2, 1⟩), (0x25061474, .aminS32 ⟨0, 12, 20, 3, 2, 1⟩),
   (0x25461474, .amaxS32 ⟨0, 12, 20, 3, 2, 1⟩), (0x25861474, .aminZ32 ⟨0, 12, 20, 3, 2, 1⟩), (0x25C61474, .amaxZ32 ⟨0, 12, 20, 3, 2, 1⟩)]

def wordsMem2 : List (Word × Instr) :=
  [(0x26061474, .aand ⟨0, 12, 20, 3, 2, 1⟩), (0x26461474, .aor ⟨0, 12, 20, 3, 2, 1⟩), (0x26861474, .axor ⟨0, 12, 20, 3, 2, 1⟩),
   (0x26C61474, .axchg ⟨0, 12, 20, 3, 2, 1⟩), (0x27061474, .acas ⟨0, 12, 20, 3, 2, 1⟩), (0x27461474, .aaddS64 ⟨0, 12, 20, 3, 2, 1⟩),
   (0x27861474, .affcs64 ⟨0, 12, 20, 3, 2, 1⟩), (0x27DC0000, .fence ⟨0, 3, 2⟩), (0x28000000, .fenceSc ⟨0⟩),
   (0x28461469, .waitw ⟨0, 12, 20, 1, 1, 9⟩), (0x28861469, .sarm ⟨0, 12, 20, 1, 1, 9⟩), (0x28C19469, .swait ⟨0, 3, 20, 1, 1, 9⟩),
   (0x29061469, .sarr ⟨0, 12, 20, 1, 1, 9⟩), (0x29401400, .vfpush ⟨0, 20⟩), (0x29860000, .vfpop ⟨0, 12⟩),
   (0x29C60300, .vftry ⟨0, 12, 3⟩), (0x2A009469, .pref ⟨0, 1, 20, 1, 1, 9⟩), (0x2A461469, .ldtxBl ⟨0, 12, 20, 1, 1, 9⟩),
   (0x2A861468, .ald32 ⟨0, 12, 20, 3, 1⟩), (0x2AC61470, .ast32 ⟨0, 12, 20, 3, 2⟩)]

/-- Mem: the words of the family, written from the fixed fields of spec/opcode_table.json (R54), decode to
what they stand for. -/
theorem test_decode_mem : ∀ x ∈ wordsMem1 ++ wordsMem2, decodesTo x = true := by decide +kernel

def wordsCtl : List (Word × Instr) :=
  [(0x300C0009, .bra ⟨0, 3, 0, 9⟩), (0x304C0009, .bru ⟨0, 3, 0, 9⟩), (0x30801400, .jmpr ⟨0, 20⟩),
   (0x30D40009, .call ⟨0, 5, 9⟩), (0x31145000, .callr ⟨0, 5, 20⟩), (0x31400000, .ret ⟨0⟩),
   (0x318C0009, .fork ⟨0, 3, 9⟩), (0x31C00000, .fexit ⟨0⟩), (0x322B0000, .jset ⟨0, 5, 6⟩),
   (0x326B0000, .join ⟨0, 5, 6⟩), (0x32830000, .jdrop ⟨0, 6⟩), (0x32C00000, .yield ⟨0⟩),
   (0x33000000, .nopk ⟨0⟩), (0x33400005, .trap ⟨0, 5⟩), (0x33800005, .brk ⟨0, 5⟩),
   (0x33C00001, .emuret ⟨0, 1⟩), (0x341C0009, .brw ⟨0, 3, 2, 9⟩)]

/-- Ctl: the words of the family, written from the fixed fields of spec/opcode_table.json (R54), decode to
what they stand for. -/
theorem test_decode_ctl : ∀ x ∈ wordsCtl, decodesTo x = true := by decide +kernel

def wordsMtx : List (Word × Instr) :=
  [(0x4012C93B, .mma ⟨300, 9, 3, 11⟩), (0x4052C93B, .mmas ⟨300, 9, 3, 11⟩), (0x40B16E60, .mwld ⟨12, 5, 11, 9, 1⟩),
   (0x40D2C000, .mzero ⟨300⟩), (0x4112CC90, .mdrain ⟨300, 12, 9⟩), (0x4152C500, .mlacc ⟨300, 5⟩),
   (0x41B16800, .mwait ⟨12, 5, 10⟩), (0x41D58000, .msig ⟨5, 3⟩), (0x421C0005, .mli ⟨7, 5⟩),
   (0x42714805, .maddq ⟨12, 5, 2, 5⟩), (0x429C0009, .mloop ⟨7, 9⟩), (0x42DE0009, .mbra ⟨7, 1, 9⟩),
   (0x43000000, .mend), (0x43700000, .mstat ⟨12⟩), (0x43900000, .mprio ⟨2⟩),
   (0x43D80000, .mfence ⟨3⟩), (0x44314090, .mldq ⟨12, 5, 9⟩)]

/-- Mtx: the words of the family, written from the fixed fields of spec/opcode_table.json (R54), decode to
what they stand for. -/
theorem test_decode_mtx : ∀ x ∈ wordsMtx, decodesTo x = true := by decide +kernel

def wordsScl1 : List (Word × Instr) :=
  [(0x700C5180, .sadd ⟨0, 12, 20, 24⟩), (0x704C5180, .ssub ⟨0, 12, 20, 24⟩), (0x708C5180, .smul ⟨0, 12, 20, 24⟩),
   (0x70CC5180, .sand ⟨0, 12, 20, 24⟩), (0x710C5180, .sor ⟨0, 12, 20, 24⟩), (0x714C5180, .sxor ⟨0, 12, 20, 24⟩),
   (0x718C5180, .sshl ⟨0, 12, 20, 24⟩), (0x71CC5180, .sshr ⟨0, 12, 20, 24⟩), (0x720C5180, .ssar ⟨0, 12, 20, 24⟩),
   (0x724C5180, .smin ⟨0, 12, 20, 24⟩), (0x728C5180, .smax ⟨0, 12, 20, 24⟩), (0x72CC5180, .sminz ⟨0, 12, 20, 24⟩),
   (0x730C5180, .smaxz ⟨0, 12, 20, 24⟩), (0x734C5005, .saddi ⟨0, 12, 20, 5⟩), (0x738C0005, .sli ⟨0, 12, 5⟩),
   (0x73CC0005, .slih ⟨0, 12, 5⟩), (0x740D28C0, .scmp ⟨0, 3, 2, 20, 24⟩), (0x744C5009, .sld64 ⟨0, 12, 20, 9⟩),
   (0x748C5009, .sst64 ⟨0, 12, 20, 9⟩), (0x74CC5009, .sld32 ⟨0, 12, 20, 9⟩), (0x75001800, .srd ⟨0, 0, 24⟩),
   (0x75401800, .swr ⟨0, 0, 24⟩), (0x75801800, .sxch ⟨0, 0, 24⟩), (0x75D80000, .wbind ⟨0, 3, 0⟩)]

def wordsScl2 : List (Word × Instr) :=
  [(0x76180000, .wrd ⟨0, 3, 0⟩), (0x76580000, .wrst ⟨0, 3, 0⟩), (0x768C5000, .sffcs ⟨0, 12, 20⟩),
   (0x76CC5180, .splset ⟨0, 12, 20, 24⟩), (0x770C5180, .sbins ⟨0, 12, 20, 24⟩), (0x774C5000, .spopc ⟨0, 12, 20⟩),
   (0x778C5000, .sclz ⟨0, 12, 20⟩), (0x77CC5181, .emurd ⟨0, 12, 20, 24, 1⟩), (0x780C5181, .emuwr ⟨0, 12, 20, 24, 1⟩),
   (0x784C5180, .accrd ⟨0, 12, 20, 24⟩), (0x788C5180, .accwr ⟨0, 12, 20, 24⟩)]

/-- Scl: the words of the family, written from the fixed fields of spec/opcode_table.json (R54), decode to
what they stand for. -/
theorem test_decode_scl : ∀ x ∈ wordsScl1 ++ wordsScl2, decodesTo x = true := by decide +kernel

def wordsXcmd : List (Word × Instr) :=
  [(0x5000C518, .cshape ⟨0, 12, 20, 24⟩), (0x5004C518, .cget ⟨0, 12, 20, 24⟩), (0x5008C518, .cput ⟨0, 12, 20, 24⟩),
   (0x500CC518, .cgath ⟨0, 12, 20, 24⟩), (0x5010C518, .cmcast ⟨0, 12, 20, 24⟩), (0x5014C518, .cring ⟨0, 12, 20, 24⟩),
   (0x5018C500, .cresume ⟨0, 12, 20⟩), (0x501CC500, .ccancel ⟨0, 12, 20⟩), (0x5020C500, .cstat ⟨0, 12, 20⟩),
   (0x5200C518, .tspawn ⟨0, 12, 20, 24⟩), (0x5204C518, .tsucc ⟨0, 12, 20, 24⟩), (0x5208C518, .fsopen ⟨0, 12, 20, 24⟩),
   (0x520CC518, .fsclose ⟨0, 12, 20, 24⟩), (0x5210C518, .fsadd ⟨0, 12, 20, 24⟩), (0x5214C500, .tretire ⟨0, 12, 20⟩),
   (0x5218C518, .glaunch ⟨0, 12, 20, 24⟩), (0x521CC518, .gprio ⟨0, 12, 20, 24⟩), (0x5400C500, .telrd ⟨0, 12, 20⟩),
   (0x5404C518, .pgreq ⟨0, 12, 20, 24⟩), (0x5600C518, .icinv ⟨0, 12, 20, 24⟩), (0x5604C518, .cflush ⟨0, 12, 20, 24⟩),
   (0x5608C518, .csplit ⟨0, 12, 20, 24⟩), (0x560CC518, .tlbinv ⟨0, 12, 20, 24⟩), (0x5610C518, .patch ⟨0, 12, 20, 24⟩)]

/-- Xcmd: the words of the family, written from the fixed fields of spec/opcode_table.json (R54), decode to
what they stand for. -/
theorem test_decode_xcmd : ∀ x ∈ wordsXcmd, decodesTo x = true := by decide +kernel
def illFormed1 : List (Instr × Nat) :=
  [(.vaddS32 ⟨0, 0, 0, 64, 1⟩, 3), (.vsubS32 ⟨0, 0, 0, 64, 1⟩, 3), (.vmulS32 ⟨0, 0, 0, 64, 1⟩, 3), (.vmulhS32 ⟨0, 0, 0, 64, 1⟩, 3),
   (.vmulhZ32 ⟨0, 0, 0, 64, 1⟩, 3), (.vmadS32 ⟨0, 0, 0, 64, 1⟩, 3), (.vminS32 ⟨0, 0, 0, 64, 1⟩, 3), (.vmaxS32 ⟨0, 0, 0, 64, 1⟩, 3),
   (.vminZ32 ⟨0, 0, 0, 64, 1⟩, 3), (.vmaxZ32 ⟨0, 0, 0, 64, 1⟩, 3), (.vand ⟨0, 0, 0, 64, 1⟩, 3), (.vor ⟨0, 0, 0, 64, 1⟩, 3),
   (.vxor ⟨0, 0, 0, 64, 1⟩, 3), (.vandn ⟨0, 0, 0, 64, 1⟩, 3), (.vshl ⟨0, 0, 0, 64, 1⟩, 3), (.vshr ⟨0, 0, 0, 64, 1⟩, 3),
   (.vsar ⟨0, 0, 0, 64, 1⟩, 3), (.vcmp ⟨0, 0, 0, 0, 64, 1⟩, 3), (.vsel ⟨0, 0, 0, 64, 1⟩, 3), (.vbins ⟨0, 0, 0, 64, 1⟩, 3),
   (.vffcs ⟨0, 4, 1⟩, 3), (.vffcs ⟨0, 2, 2⟩, 3), (.vffcs ⟨0, 1, 0⟩, 3), (.vplset ⟨0, 0, 0, 64, 1⟩, 3),
   (.vextr ⟨0, 0, 0, 64, 1⟩, 3), (.vshflIdx ⟨0, 0, 0, 64, 1⟩, 3), (.vshflXor ⟨0, 0, 0, 64, 1⟩, 3), (.vshflUp ⟨0, 0, 0, 64, 1⟩, 3),
   (.vshflDn ⟨0, 0, 0, 64, 1⟩, 3), (.vvote ⟨0, 0, 0, 4⟩, 10), (.vred ⟨0, 0, 0, 8⟩, 10), (.vaddS64 ⟨0, 0, 0, 64, 1⟩, 3),
   (.vaddS64 ⟨0, 1, 0, 0, 0⟩, 3), (.vaddS64 ⟨0, 0, 1, 0, 0⟩, 3), (.vaddS64 ⟨0, 0, 0, 1, 0⟩, 3), (.vmulWideS32 ⟨0, 0, 0, 64, 1⟩, 3),
   (.vmulWideS32 ⟨0, 1, 0, 0, 0⟩, 3), (.vmadWideZ32 ⟨0, 0, 0, 64, 1⟩, 3), (.vmadWideZ32 ⟨0, 1, 0, 0, 0⟩, 3), (.vaddF32 ⟨0, 0, 0, 64, 1⟩, 3),
   (.vsubF32 ⟨0, 0, 0, 64, 1⟩, 3), (.vmulF32 ⟨0, 0, 0, 64, 1⟩, 3), (.vfmaF32 ⟨0, 0, 0, 64, 1⟩, 3), (.vminF32 ⟨0, 0, 0, 64, 1⟩, 3),
   (.vmaxF32 ⟨0, 0, 0, 64, 1⟩, 3), (.vcmpF32 ⟨0, 0, 0, 0, 64, 1⟩, 3), (.vsgnj ⟨0, 0, 0, 64, 1⟩, 3), (.vaddH2 ⟨0, 0, 0, 64, 1⟩, 3)]

def illFormed2 : List (Instr × Nat) :=
  [(.vmulH2 ⟨0, 0, 0, 64, 1⟩, 3), (.vfmaH2 ⟨0, 0, 0, 64, 1⟩, 3), (.vaddB2 ⟨0, 0, 0, 64, 1⟩, 3), (.vmulB2 ⟨0, 0, 0, 64, 1⟩, 3),
   (.vfmaB2 ⟨0, 0, 0, 64, 1⟩, 3), (.vdot2B2 ⟨0, 0, 0, 64, 1⟩, 3), (.vdot4T8 ⟨0, 0, 0, 64, 1⟩, 3), (.vcvtH2F32 ⟨0, 0, 0, 64, 1⟩, 3),
   (.vcvtF32H ⟨0, 1, 0⟩, 3), (.vcvtB2F32 ⟨0, 0, 0, 64, 1⟩, 3), (.vcvtF32B ⟨0, 1, 0⟩, 3), (.vcvtT8F32 ⟨0, 0, 0, 64, 1⟩, 3),
   (.vcvtT8F32 ⟨0, 0, 2, 0, 0⟩, 3), (.vcvtF32T8 ⟨0, 0, 0, 64, 1⟩, 3), (.vcvtF32T8 ⟨0, 2, 0, 0, 0⟩, 3), (.vcvtT6F32 ⟨0, 0, 0, 64, 1⟩, 3),
   (.vcvtF32T6 ⟨0, 0, 0, 64, 1⟩, 3), (.vbscale ⟨0, 0, 0, 64, 1⟩, 3), (.vbscale ⟨0, 0, 2, 0, 0⟩, 3), (.vcvtS8F32 ⟨0, 0, 0, 64, 1⟩, 3),
   (.vcvtS8F32 ⟨0, 0, 2, 0, 0⟩, 3), (.vatan2 ⟨0, 0, 1, 0⟩, 3), (.vrbox ⟨0, 0, 0, 64, 1⟩, 3), (.vrbox ⟨0, 1, 0, 0, 0⟩, 3),
   (.vrbox ⟨0, 0, 0, 59, 1⟩, 10), (.vrtri ⟨0, 0, 0, 64, 1⟩, 3), (.vrtri ⟨0, 2, 0, 0, 0⟩, 3), (.vrtri ⟨0, 0, 0, 56, 1⟩, 10),
   (.ldZ8 ⟨0, 0, 1, 0, 0, 0⟩, 3), (.ldS8 ⟨0, 0, 1, 0, 0, 0⟩, 3), (.ldZ16 ⟨0, 0, 1, 0, 0, 0⟩, 3), (.ldS16 ⟨0, 0, 1, 0, 0, 0⟩, 3),
   (.ld32 ⟨0, 0, 1, 0, 0, 0⟩, 3), (.ld64 ⟨0, 0, 1, 0, 0, 0⟩, 3), (.ld64 ⟨0, 1, 0, 0, 0, 0⟩, 3), (.ld128 ⟨0, 0, 1, 0, 0, 0⟩, 3),
   (.ld128 ⟨0, 2, 0, 0, 0, 0⟩, 3), (.st8 ⟨0, 0, 1, 0, 0, 0⟩, 3), (.st16 ⟨0, 0, 1, 0, 0, 0⟩, 3), (.st32 ⟨0, 0, 1, 0, 0, 0⟩, 3),
   (.st64 ⟨0, 0, 1, 0, 0, 0⟩, 3), (.st64 ⟨0, 1, 0, 0, 0, 0⟩, 3), (.st128 ⟨0, 0, 1, 0, 0, 0⟩, 3), (.st128 ⟨0, 2, 0, 0, 0, 0⟩, 3),
   (.lds64 ⟨0, 1, 0, 0, 0, 0⟩, 3), (.lds128 ⟨0, 2, 0, 0, 0, 0⟩, 3), (.sts64 ⟨0, 1, 0, 0, 0, 0⟩, 3), (.sts128 ⟨0, 2, 0, 0, 0, 0⟩, 3)]

def illFormed3 : List (Instr × Nat) :=
  [(.aaddS32 ⟨0, 0, 1, 0, 0, 0⟩, 3), (.aaddS32 ⟨0, 0, 0, 6, 0, 0⟩, 4), (.aaddF32 ⟨0, 0, 1, 0, 0, 0⟩, 3), (.aaddF32 ⟨0, 0, 0, 6, 0, 0⟩, 4),
   (.aminS32 ⟨0, 0, 1, 0, 0, 0⟩, 3), (.aminS32 ⟨0, 0, 0, 6, 0, 0⟩, 4), (.amaxS32 ⟨0, 0, 1, 0, 0, 0⟩, 3), (.amaxS32 ⟨0, 0, 0, 6, 0, 0⟩, 4),
   (.aminZ32 ⟨0, 0, 1, 0, 0, 0⟩, 3), (.aminZ32 ⟨0, 0, 0, 6, 0, 0⟩, 4), (.amaxZ32 ⟨0, 0, 1, 0, 0, 0⟩, 3), (.amaxZ32 ⟨0, 0, 0, 6, 0, 0⟩, 4),
   (.aand ⟨0, 0, 1, 0, 0, 0⟩, 3), (.aand ⟨0, 0, 0, 6, 0, 0⟩, 4), (.aor ⟨0, 0, 1, 0, 0, 0⟩, 3), (.aor ⟨0, 0, 0, 6, 0, 0⟩, 4),
   (.axor ⟨0, 0, 1, 0, 0, 0⟩, 3), (.axor ⟨0, 0, 0, 6, 0, 0⟩, 4), (.axchg ⟨0, 0, 1, 0, 0, 0⟩, 3), (.axchg ⟨0, 0, 0, 6, 0, 0⟩, 4),
   (.acas ⟨0, 0, 1, 0, 0, 0⟩, 3), (.acas ⟨0, 1, 0, 0, 0, 0⟩, 3), (.acas ⟨0, 0, 0, 6, 0, 0⟩, 4), (.aaddS64 ⟨0, 0, 1, 0, 0, 0⟩, 3),
   (.aaddS64 ⟨0, 1, 0, 0, 0, 0⟩, 3), (.aaddS64 ⟨0, 0, 0, 6, 0, 0⟩, 4), (.affcs64 ⟨0, 0, 1, 0, 0, 0⟩, 3), (.affcs64 ⟨0, 2, 0, 0, 0, 0⟩, 3),
   (.affcs64 ⟨0, 0, 0, 6, 0, 0⟩, 4), (.fence ⟨0, 6, 0⟩, 4), (.waitw ⟨0, 0, 1, 0, 0, 0⟩, 3), (.waitw ⟨0, 1, 0, 0, 0, 0⟩, 3),
   (.swait ⟨0, 0, 1, 0, 0, 0⟩, 3), (.pref ⟨0, 0, 1, 0, 0, 0⟩, 3), (.ldtxBl ⟨0, 0, 2, 0, 0, 0⟩, 3), (.ald32 ⟨0, 0, 1, 0, 0⟩, 3),
   (.ald32 ⟨0, 0, 0, 6, 0⟩, 4), (.ald32 ⟨0, 0, 0, 0, 2⟩, 10), (.ast32 ⟨0, 0, 1, 0, 0⟩, 3), (.ast32 ⟨0, 0, 0, 6, 0⟩, 4),
   (.ast32 ⟨0, 0, 0, 0, 1⟩, 10), (.jmpr ⟨0, 1⟩, 3), (.callr ⟨0, 0, 1⟩, 3), (.mma ⟨768, 0, 0, 0⟩, 5),
   (.mmas ⟨768, 0, 0, 0⟩, 5), (.mzero ⟨768⟩, 5), (.mdrain ⟨768, 0, 0⟩, 5), (.mlacc ⟨768, 0⟩, 5)]

def illFormed4 : List (Instr × Nat) :=
  [(.msig ⟨0, 6⟩, 4), (.mfence ⟨6⟩, 4), (.srd ⟨0, 0, 6⟩, 8), (.swr ⟨0, 0, 6⟩, 8),
   (.sxch ⟨0, 0, 6⟩, 8), (.sffcs ⟨0, 2, 2⟩, 10), (.emurd ⟨0, 0, 0, 0, 6⟩, 10), (.emuwr ⟨0, 0, 0, 0, 6⟩, 10)]

/-- Each check of a word refuses a word that breaks it, with its REASON (R386), and the word does not decode. -/
theorem test_ill_formed : ∀ x ∈ illFormed1 ++ illFormed2 ++ illFormed3 ++ illFormed4, refusedWith x = true := by decide +kernel

/-! ### Statements on the vector and scalar words -/

/-- Words of a family, each issuing in the state that a placed word gives it. -/
def issueAll (l : List (Word × Instr)) : Bool := l.all (fun x => issuesB (issuing x.1) x.2)

theorem issues_all {l : List (Word × Instr)} (h : issueAll l = true) : ∀ x ∈ l, Issues (issuing x.1) x.2 :=
  fun x hx => issues_of (List.all_eq_true.mp h x hx)

/-- VectorInt32Words, VectorUnaryWords, VectorWideWords, VectorCompareWords, VectorSelectAndBitFieldWords,
VectorShuffleWords and VectorTileWords: each word issues. -/
theorem witness_vint : ∀ x ∈ wordsVint1 ++ wordsVint2, Issues (issuing x.1) x.2 := issues_all (by decide +kernel)

/-- VectorSelectAndBitFieldWords: the registers of `VFFCS`; and a mask that leaves `VMOVS` no lane. -/
theorem witness_vffcs : ∃ (f : FmtDA) (s : State), f.a.getLsbD 0 = false ∧ f.d ≠ f.a ∧ f.d ≠ f.a + 1 ∧ Issues s (.vffcs f) :=
  ⟨⟨0, 12, 20⟩, at_ (.vffcs ⟨0, 12, 20⟩), by decide, by decide, by decide, issues_of (by decide +kernel)⟩
theorem witness_vmovs : ∃ (f : FmtMovs) (s t : State), Issues s (.vmovs f) ∧ s.dev.active = 0 ∧ Issues t (.vmovs f) ∧ t.dev.active ≠ 0 :=
  ⟨⟨0, 12, 20, 17⟩, onDev (at_ (.vmovs ⟨0, 12, 20, 17⟩)) (fun d => { d with cur := { d.cur with pfx := some (decodePfx 0x65000000) } }),
    at_ (.vmovs ⟨0, 12, 20, 17⟩), issues_of (by decide +kernel), by decide +kernel, issues_of (by decide +kernel), by decide +kernel⟩

/-- VectorTileWords: each vote, the highest reduction, and an exclusive scan. -/
theorem witness_tiles : (∀ u ∈ [0, 1, 2, 3], Issues (at_ (.vvote ⟨0, 12, 20, u⟩)) (.vvote ⟨0, 12, 20, u⟩)) ∧
    Issues (at_ (.vred ⟨0, 12, 20, 7⟩)) (.vred ⟨0, 12, 20, 7⟩) ∧ Issues (at_ (.vscan ⟨0, 12, 20, 15⟩)) (.vscan ⟨0, 12, 20, 15⟩) :=
  ⟨fun u hu => issues_of (List.all_eq_true.mp (show ([0, 1, 2, 3] : List (BitVec 4)).all
      (fun u => issuesB (at_ (.vvote ⟨0, 12, 20, u⟩)) (.vvote ⟨0, 12, 20, u⟩)) = true by decide +kernel) u hu),
    issues_of (by decide +kernel), issues_of (by decide +kernel)⟩

/-- FloatWords, FloatUnaryWords, FloatWideningWords, CordicWords and FloatOtherWords: each word issues, with no
trap enabled. -/
theorem witness_vflt : ∀ x ∈ wordsVflt1 ++ wordsVflt2, ∀ g, FloatIssues (issuing x.1) x.2 g := fun x hx _ => by
  have h := List.all_eq_true.mp (show (wordsVflt1 ++ wordsVflt2).all
    (fun x => issuesB (issuing x.1) x.2 && enabledFlags (issuing x.1).dev == 0) = true by decide +kernel) x hx
  simp only [Bool.and_eq_true, beq_iff_eq] at h
  exact float_issues_of h.1 h.2

/-- FloatArithTrap: a batch of lane 0, its registers full of `x`, v24 of `y`, and every trap enabled. -/
def trapping (i : Instr) (x y : Word) : State := onWarp (oneLane (at_ i)) (fun w => { w with
  v := (List.range 24).map (fun k => (k * 32, x)) ++ [(24 * 32, y)], rmode := 0x1F0001 })

/-- A word raises an enabled flag there. -/
def trapsB (i : Instr) (g : Dev → Nat → FRes) (x y : Word) : Bool :=
  let s := trapping i x y
  !s.dev.cur.probe && s.dev.cur.snap.isNone && (guard s.dev i.props).isNone && allFlags s.dev g &&& enabledFlags s.dev != 0

theorem witness_traps : (Spec.floatRowsR ⟨0, 12, 20, 24, 0⟩).all (fun r =>
      trapsB r.1 r.2 0x7FBFFFFF 0x7FBFFFFF || trapsB r.1 r.2 0x7D017D01 0x7D017D01) = true ∧
    (Spec.floatRowsA ⟨0, 12, 20⟩).all (fun r => trapsB r.1 r.2 0x7FBFFFFF 0) = true ∧
    (Spec.widenRows ⟨0, 12, 20, 24, 0⟩ ⟨0, 12, 20⟩).all (fun r =>
      trapsB r.1 r.2.2.2 0x7FBFFFFF 0 || trapsB r.1 r.2.2.2 0x7D017D01 0 || trapsB r.1 r.2.2.2 0x7F7F7F7F 0xFE0) = true ∧
    (Spec.cordicRows ⟨0, 12, 20, 1⟩).all (fun r => trapsB r.1 r.2.2 0x7FBFFFFF 0) = true := by decide +kernel

/-- FloatOtherWords: `VBSCALE` with format code 4 in every lane, the highest. -/
theorem witness_vbscale : ∃ (f : FmtR) (s : State),
    (∀ l, s.dev.active.getLsbD l = true → (Spec.opB s.dev f l).toNat % 16 ≤ 4) ∧
    (∀ l m, s.dev.active.getLsbD l = true → s.dev.active.getLsbD m = true → l / tileSize s.dev = m / tileSize s.dev →
      (Spec.opB s.dev f l).toNat % 16 = (Spec.opB s.dev f m).toNat % 16) ∧
    FloatIssues s (.vbscale f) (fun d l => bscaleAt d f l) := by
  refine ⟨⟨0, 12, 20, 2, 1⟩, onWarp (at_ (.vbscale ⟨0, 12, 20, 2, 1⟩)) (fun w => { w with s := [(2, 4)] }), ?_, ?_,
    float_issues_of (by decide +kernel) (by decide +kernel)⟩
  · exact fun l _ => by show (4 : Nat) % 16 ≤ 4; decide
  · exact fun l m _ _ _ => rfl

/-- ScalarBinaryWords, ScalarOtherWords and SpecialRegisterWords: each word issues. -/
theorem witness_scl : ∀ x ∈ wordsScl1 ++ wordsScl2, Issues (issuing x.1) x.2 := issues_all (by decide +kernel)

/-- SpecialRegisterWords: `SRD` of `RMODE` with no VFLT word in flight and with one; of `MXFOLD` after an engine
operation of the group wrote memory. -/
theorem witness_srd : ∃ s t u : State, Issues s (.srd ⟨0, 3, 0x08⟩) ∧ s.dev.opW.flagsDue = [] ∧
    Issues t (.srd ⟨0, 3, 0x08⟩) ∧ t.dev.cur.snap = none ∧ t.dev.opW.flagsDue ≠ [] ∧
    Issues u (.srd ⟨0, 3, 0x39⟩) ∧ u.dev.curGrp.wrote = true :=
  ⟨at_ (.srd ⟨0, 3, 0x08⟩), onWarp (at_ (.srd ⟨0, 3, 0x08⟩)) (fun w => { w with flagsDue := [(4, 1)] }),
    onGroup (at_ (.srd ⟨0, 3, 0x39⟩)) (fun g => { g with wrote := true }),
    issues_of (by decide +kernel), by decide +kernel, issues_of (by decide +kernel), by decide +kernel, by decide +kernel,
    issues_of (by decide +kernel), by decide +kernel⟩

/-- SpecialRegisterWords: a value that the map takes; SpecialRegisterTurnedDown: RM 111, a tile size of 5, a vector
that is no multiple of 12, an unassigned code of `MXCFG`. -/
theorem witness_sreg_takes : ∃ (f : FmtSR) (s : State), Issues s (.swr f) ∧ Issues s (.sxch f) ∧
    ¬ Spec.sregTurnsDown f.n.toNat (s.dev.sr f.s.toNat) :=
  ⟨⟨0, 3, 0x09⟩, onWarp (at_ (.swr ⟨0, 3, 0x09⟩)) (fun w => { w with s := [(3, 4)] }), issues_of (by decide +kernel),
    issues_of (by decide +kernel), by unfold Spec.sregTurnsDown; decide +kernel⟩
theorem witness_sreg_down : ∀ x ∈ [(0x08, 7), (0x09, 5), (0x18, 1), (0x19, 13), (0x38, 8)],
    let n := BitVec.ofNat 8 x.1
    let s := onWarp (at_ (.swr ⟨0, 3, n⟩)) (fun w => { w with s := [(3, BitVec.ofNat 64 x.2)] })
    s.dev.cur.probe = false ∧ s.dev.cur.snap = none ∧ guard s.dev (Instr.swr ⟨0, 3, n⟩).props = none ∧
      Spec.sregTurnsDown x.1 (s.dev.sr 3) := by
  unfold Spec.sregTurnsDown
  decide +kernel

/-! ### Statements on memory -/

/-- An access resolves to memory, to scratch, to a scratch way, or to a register. -/
def isMem (x : Except MErr (Target × List ADSet)) : Bool := match x with
  | .ok (.mem _ _, _) => true
  | _ => false
def isMem0 (x : Except MErr (Target × List ADSet)) : Bool := match x with
  | .ok (.mem pa _, _) => pa == 0
  | _ => false
def isScr (x : Except MErr (Target × List ADSet)) : Bool := match x with
  | .ok (.scr _, []) => true
  | _ => false
def isRing (x : Except MErr (Target × List ADSet)) : Bool := match x with
  | .ok (.ring _ _, []) => true
  | _ => false
def isReg (x : Except MErr (Target × List ADSet)) : Bool := match x with
  | .ok (.reg _, _) => true
  | _ => false

theorem of_isMem {x} (h : isMem x = true) : ∃ pa pg ads, x = .ok (.mem pa pg, ads) := by
  unfold isMem at h; split at h <;> simp_all
theorem of_isMem0 {x} (h : isMem0 x = true) : ∃ pg ads, x = .ok (.mem 0 pg, ads) := by
  unfold isMem0 at h; split at h <;> simp_all
theorem of_isScr {x} (h : isScr x = true) : ∃ o, x = .ok (.scr o, []) := by
  unfold isScr at h; split at h <;> simp_all
theorem of_isRing {x} (h : isRing x = true) : ∃ t k, x = .ok (.ring t k, []) := by
  unfold isRing at h; split at h <;> simp_all
theorem of_isReg {x} (h : isReg x = true) : ∃ o ads, x = .ok (.reg o, ads) := by
  unfold isReg at h; split at h <;> simp_all

/-- s5 or v5 of lane 0 holds a value, a pair in v5 and v6 where it is wider. -/
def withS (s : State) (l : List (Nat × DWord)) : State := onWarp s (fun w => { w with s := l })
def withV (s : State) (l : List (Nat × Word)) : State := onWarp s (fun w => { w with v := l.map (fun p => (p.1 * 32, p.2)) })

/-- LoadWords, StoreWords and AtomicWords: every row passes its checks at address 0. -/
theorem witness_loads : ∀ r ∈ Spec.loadRows ⟨0, 12, 20, 1, 1, 9⟩, IssuesWith (oneLane (at_ r.1)) r.1
    (fun e d => memCheck e d .read ((memLanes d).map (Spec.access r.2.2.2.1 ⟨0, 12, 20, 1, 1, 9⟩ r.2.2.1 d))) := by
  intro r hr
  have h := List.all_eq_true.mp (show (Spec.loadRows ⟨0, 12, 20, 1, 1, 9⟩).all (fun r =>
    issuesB (oneLane (at_ r.1)) r.1 && (memCheck (oneLane (at_ r.1)).env (oneLane (at_ r.1)).dev .read
      ((memLanes (oneLane (at_ r.1)).dev).map (Spec.access r.2.2.2.1 ⟨0, 12, 20, 1, 1, 9⟩ r.2.2.1 (oneLane (at_ r.1)).dev))).isNone) = true
    by decide +kernel) r hr
  rw [Bool.and_eq_true] at h
  exact issues_with_of h.1 h.2
theorem witness_stores : ∀ r ∈ Spec.storeRows ⟨0, 12, 20, 1, 1, 9⟩, IssuesWith (oneLane (at_ r.1)) r.1
    (fun e d => memCheck e d .write ((memLanes d).map (Spec.access r.2.2.2 ⟨0, 12, 20, 1, 1, 9⟩ r.2.2.1 d))) := by
  intro r hr
  have h := List.all_eq_true.mp (show (Spec.storeRows ⟨0, 12, 20, 1, 1, 9⟩).all (fun r =>
    issuesB (oneLane (at_ r.1)) r.1 && (memCheck (oneLane (at_ r.1)).env (oneLane (at_ r.1)).dev .write
      ((memLanes (oneLane (at_ r.1)).dev).map (Spec.access r.2.2.2 ⟨0, 12, 20, 1, 1, 9⟩ r.2.2.1 (oneLane (at_ r.1)).dev))).isNone) = true
    by decide +kernel) r hr
  rw [Bool.and_eq_true] at h
  exact issues_with_of h.1 h.2
def atomicWords (f : FmtMA) : List (Instr × Nat × Bool) :=
  [(.aaddS32 f, 4, true), (.aaddF32 f, 4, false), (.aminS32 f, 4, false), (.amaxS32 f, 4, false), (.aminZ32 f, 4, false),
   (.amaxZ32 f, 4, false), (.aand f, 4, false), (.aor f, 4, false), (.axor f, 4, false), (.axchg f, 4, true),
   (.acas f, 4, true), (.aaddS64 f, 8, true), (.affcs64 f, 8, false)]
theorem witness_atomics : ∀ r ∈ atomicWords ⟨0, 12, 20, 3, 2, 1⟩, IssuesWith (oneLane (at_ r.1)) r.1
    (Spec.atomicCheck ⟨0, 12, 20, 3, 2, 1⟩ r.2.1 r.2.2) := by
  intro r hr
  have h := List.all_eq_true.mp (show (atomicWords ⟨0, 12, 20, 3, 2, 1⟩).all (fun r =>
    issuesB (oneLane (at_ r.1)) r.1 && (Spec.atomicCheck ⟨0, 12, 20, 3, 2, 1⟩ r.2.1 r.2.2 (oneLane (at_ r.1)).env
      (oneLane (at_ r.1)).dev).isNone) = true by decide +kernel) r hr
  rw [Bool.and_eq_true] at h
  exact issues_with_of h.1 h.2

/-- AtomicWords: two lanes at memory, and at scratch, with no choice made; and no lane. -/
theorem witness_atomic_lanes : ∃ (f : FmtMA) (s : State), s.dev.active = 3 ∧ s.dev.choice = [] ∧ Spec.noBindWait s.dev ∧
    (s.dev.groups.find? s.dev.cur.gid).isSome = true ∧ readErr s.dev 0 = none ∧ ∀ size ∈ [4, 8], ∃ pa pg ads,
      accTarget s.dev s.dev.who .atomic { lane := 0, va := s.dev.vpair f.a.toNat 0, total := size } (0, size) = .ok (.mem pa pg, ads) ∧
      s.dev.vpair f.a.toNat 1 = s.dev.vpair f.a.toNat 0 ∧ pa = 0 :=
  ⟨⟨0, 12, 20, 3, 2, 1⟩, onDev (at_ (.acas ⟨0, 12, 20, 3, 2, 1⟩)) (fun d => { d with cur := { d.cur with lanes := 3 } }),
    by decide +kernel, rfl, by unfold Spec.noBindWait; decide +kernel, by decide +kernel, by decide +kernel, by
    intro size h
    have hm : isMem0 (accTarget (onDev (at_ (.acas ⟨0, 12, 20, 3, 2, 1⟩)) (fun d => { d with cur := { d.cur with lanes := 3 } })).dev
        (onDev (at_ (.acas ⟨0, 12, 20, 3, 2, 1⟩)) (fun d => { d with cur := { d.cur with lanes := 3 } })).dev.who .atomic
        { lane := 0, va := (onDev (at_ (.acas ⟨0, 12, 20, 3, 2, 1⟩)) (fun d => { d with cur := { d.cur with lanes := 3 } })).dev.vpair 20 0, total := size }
        (0, size)) = true := by
      rcases (by simpa using h : size = 4 ∨ size = 8) with rfl | rfl <;> decide +kernel
    obtain ⟨pg, ads, h0⟩ := of_isMem0 hm
    exact ⟨0, pg, ads, h0, by decide +kernel, rfl⟩⟩
theorem witness_atomic_scratch : ∃ (f : FmtMA) (s : State), s.dev.active ≠ 0 ∧
    (s.dev.groups.find? s.dev.cur.gid).isSome = true ∧ ∀ l ∈ lanesOf s.dev.active, ∃ o,
      accTarget s.dev s.dev.who .atomic { lane := l, va := s.dev.vpair f.a.toNat l, total := 8 } (0, 8) = .ok (.scr o, []) :=
  ⟨⟨0, 12, 20, 3, 2, 1⟩, withV (oneLane (at_ (.aaddS64 ⟨0, 12, 20, 3, 2, 1⟩))) [(20, 0), (21, 0xFFFFFF00)],
    by decide +kernel, by decide +kernel, fun l h => of_isScr (by
      have hl : l = 0 := by simpa using (show l ∈ [0] from h)
      subst hl; decide +kernel)⟩
theorem witness_no_lane : ∃ s : State, s.dev.active = 0 ∧ s.dev.zeroing = false :=
  ⟨onDev (at_ (.aand ⟨0, 12, 20, 3, 2, 1⟩)) (fun d => { d with cur := { d.cur with lanes := 0 } }), by decide +kernel, by decide +kernel⟩
/-- LoadWords, StoreWords: what is in flight stops no word; and a save that stops `LD.32` of two lanes after its
first line, and `ST.128` of one after its lower event. -/
def stopping (i : Instr) (lanes : Word) (v : List (Nat × Word)) : State :=
  onDev (onGroup (withV (at_ i) v) (fun g => { g with halt := some { c := 0, save := true } })) (fun d => { d with
    cur := { d.cur with lanes := lanes }, choice := [(12, 1)] })
theorem witness_uninterrupted : Spec.uninterrupted false ⟨0, 12, 20, 1, 1, 9⟩ 16 (at_ (.ld128 ⟨0, 12, 20, 1, 1, 9⟩)).dev ∧
    Spec.noBindWait (at_ (.ld128 ⟨0, 12, 20, 1, 1, 9⟩)).dev ∧
    (at_ (.ld128 ⟨0, 12, 20, 1, 1, 9⟩)).dev.cur.snap = none := by
  unfold Spec.uninterrupted Spec.noBindWait
  decide +kernel
theorem witness_interrupted :
    (let s := onWarp (stopping (.ld32 ⟨0, 12, 20, 1, 1, 0⟩) 3 []) (fun w => { w with v := [(641, 128)] });
      interrupted s.dev (fun l => [Spec.access false ⟨0, 12, 20, 1, 1, 0⟩ 4 s.dev l]) = some ([0], none)) ∧
    (let s := stopping (.st128 ⟨0, 12, 20, 1, 1, 0⟩) 1 [(20, 120)];
      interrupted s.dev (fun l => [Spec.access false ⟨0, 12, 20, 1, 1, 0⟩ 16 s.dev l]) = some ([], some 0)) := by decide +kernel

theorem witness_load_scratch : ∃ (f : FmtM) (s : State), memLanes s.dev ≠ [] ∧ ∀ l ∈ memLanes s.dev, halfDone s.dev l = false ∧
    (s.dev.vr f.a.toNat l).toNat + f.o.toNat * 16 + 16 ≤ (s.dev.grp s.dev.cur.gid).shape.scratch :=
  ⟨⟨0, 12, 20, 1, 1, 31⟩, at_ (.lds128 ⟨0, 12, 20, 1, 1, 31⟩), by decide +kernel, by decide +kernel⟩
theorem witness_load_memory : ∃ (s : State) (l : Nat), s.dev.choice = [] ∧ memLanes s.dev = [l] ∧
    halfDone s.dev l = false ∧ ∃ pa pg ads, resolve s.dev s.dev.who (s.dev.vpair 20 l + BitVec.ofNat 64 (31 * 8)) 8 0 8 .read 0 =
      .ok (.mem pa pg, ads) :=
  ⟨oneLane (at_ (.ld64 ⟨0, 12, 20, 1, 1, 31⟩)), 0, rfl, by decide +kernel, by decide +kernel, of_isMem (by decide +kernel)⟩

/-- StoreWords, its data: a placed pass with one transient output, whose tile lies in slot 0; and a page over the
register alias. -/
def passLaunch : Launch :=
  let g : Graph := { (launchOf 0 0).graph with
    passes := [{ noPass with present := true, outs := [0] }]
    res := [{ noRes with transient := true, slots := 1, slotbytes := 4096 }] }
  { launchOf 0 0 with
    graph := g, towers := 1, arenasz := 16384, classcap := 7
    rts := [(0, { st := .writing, place := .slot 0 0 })]
    rings := [(0, { tower := 0, places := [(0, 0, [0])] })] }
def passState (w : Word) : State :=
  onDev (issuing w) (fun d => { d with
    launches := [(0, passLaunch)], nextLaunch := 1
    groups := [(0, { placeGroup w with task := { noTask with pass := 0 } })] })
def aliasState (w : Word) : State := onDev (issuing w) (fun d => { d with
  mem := d.mem.writeN (placeL2 + 8) 8 (0xFFC0000000000 + placeLeaf) })

theorem witness_stored : ∃ d e r m : Dev,
    (d.choice = [] ∧ Spec.noBindWait d ∧ ∃ pa pg ads,
      accTarget d d.who .write { lane := 0, va := 0x1000, total := 8 } (0, 8) = .ok (.mem pa pg, ads)) ∧
    ((e.groups.find? e.cur.gid).isSome = true ∧ ∃ o,
      accTarget e e.who .write { lane := 0, va := 0xFFFFFF0000000000, total := 8 } (0, 8) = .ok (.scr o, [])) ∧
    (∃ t k, accTarget r r.who .write { lane := 0, va := 0xFFFFF80000000010, total := 4 } (0, 4) = .ok (.ring t k, [])) ∧
    (m.choice = [] ∧ ∃ o ads,
      accTarget m m.who .write { lane := 0, va := 0x70000100000, total := 8 } (0, 8) = .ok (.reg o, ads)) :=
  ⟨(issuing 0).dev, (issuing 0).dev, (passState 0).dev, (aliasState 0).dev,
    ⟨rfl, by unfold Spec.noBindWait; decide +kernel, of_isMem (by decide +kernel)⟩,
    ⟨by decide +kernel, of_isScr (by decide +kernel)⟩, of_isRing (by decide +kernel), rfl, of_isReg (by decide +kernel)⟩

/-- ScalarMemoryWords: a scratch address in s20. -/
theorem witness_scalar_memory : ∃ (f : FmtSM) (s : State),
    IssuesWith s (.sld64 f) (fun e d => memCheck e d .read
      [{ lane := 0, va := d.sr f.a.toNat + BitVec.ofInt 64 (f.o.toInt * (8 : Nat)), total := 8 }]) ∧
    IssuesWith s (.sld32 f) (fun e d => memCheck e d .read
      [{ lane := 0, va := d.sr f.a.toNat + BitVec.ofInt 64 (f.o.toInt * (4 : Nat)), total := 4 }]) ∧
    IssuesWith s (.sst64 f) (fun e d => memCheck e d .write
      [{ lane := 0, va := d.sr f.a.toNat + BitVec.ofInt 64 (f.o.toInt * 8), total := 8 }]) ∧
    (∃ o, accTarget s.dev s.dev.who .read { lane := 0, va := s.dev.sr f.a.toNat + BitVec.ofInt 64 (f.o.toInt * (8 : Nat)), total := 8 }
      (0, 8) = .ok (.scr o, [])) ∧
    ∃ o, accTarget s.dev s.dev.who .write { lane := 0, va := s.dev.sr f.a.toNat + BitVec.ofInt 64 (f.o.toInt * 8), total := 8 }
      (0, 8) = .ok (.scr o, []) :=
  ⟨⟨0, 12, 20, 9⟩, withS (at_ (.sld64 ⟨0, 12, 20, 9⟩)) [(20, 0xFFFFFF0000000000)],
    issues_with_of (by decide +kernel) (by decide +kernel), issues_with_of (by decide +kernel) (by decide +kernel),
    issues_with_of (by decide +kernel) (by decide +kernel), of_isScr (by decide +kernel), of_isScr (by decide +kernel)⟩

/-- WalkerWords: a descriptor of two dimensions with counts 2 and 3, in scratch; and walker 7 bound to it, at its
first and at its last element. -/
def walkNum : Nat := 0x1000 + 4 * 2 ^ 64 + 2 * 2 ^ 80 + 2 * 2 ^ 128 + 3 * 2 ^ 224
def bindState : State := onGroup (withS (at_ (.wbind ⟨0, 7, 20⟩)) [(20, 0xFFFFFF0000000000)]) (fun g => { g with
  scratch := Memory.writeN [] 0 64 walkNum })
def boundState (i : Instr) (idx : List Nat) : State := onWarp (withS (at_ i) [(20, 5)]) (fun w => { w with
  wflags := 1#64 <<< 39, walkers := [(7, { desc := (List.range 8).map (fun k => BitVec.ofNat 64 (walkNum / 2 ^ (64 * k))), idx := idx })] })

theorem witness_walkers :
    ((bindState.dev.sr 20).toNat % 64 = 0 ∧
      IssuesWith bindState (.wbind ⟨0, 7, 20⟩) (fun e d => memCheck e d .read [{ lane := 0, va := d.sr 20, total := 64 }]) ∧
      walkBad (readNow bindState.env bindState.dev bindState.dev { lane := 0, va := bindState.dev.sr 20, total := 64 }).2 = false) ∧
    (∀ idx ∈ [[0, 0, 0, 0], [1, 2, 0, 0]],
      (boundState (.wrd ⟨0, 7, 20⟩) idx).dev.opW.wflags.getLsbD (32 + 7) = true ∧
      issuesB (boundState (.wrd ⟨0, 7, 20⟩) idx) (.wrd ⟨0, 7, 20⟩) = true ∧
      (∀ k, k < 4 → idx.getD k 0 < walkCount walkNum k) ∧
      issuesB (boundState (.wrst ⟨0, 7, 20⟩) idx) (.wrst ⟨0, 7, 20⟩) = true) ∧
    ∀ k, walkCount walkNum k > 0 := by
  refine ⟨⟨by decide +kernel, issues_with_of (by decide +kernel) (by decide +kernel), by decide +kernel⟩, by decide +kernel, ?_⟩
  intro k
  unfold walkCount
  split
  · have : k = 0 ∨ k = 1 := by have : bitsN walkNum 80 3 = 2 := by decide
                               omega
    rcases this with rfl | rfl <;> decide
  · decide

/-- FrameRegisterWords, AccumulatorElementWords: an open level of a batch of lanes 0 and 1, or of a class-4 word of
the stream, with its host. -/
def levelOf (stream : Bool) : Level :=
  { trap := false, stream := stream, emupc := 0x6000C0, emumask := 3, ow := [0, 0, 0, 0, 0, 0, 0, 0]
    s56 := [0, 0, 0, 0, 0, 0, 0, 0], partn := 0, enables := 0, causes := [0, 0, 0, 0, 0, 0], streamPc := 0, host := 3
    lanes := [(0, { live := true, pc := 0x6000C0 }), (1, { live := true, pc := 0x6000C0 })]
    fromWord := true, wordAddr := 0x6000C0, class4 := stream }
def inLevel (stream : Bool) (i : Instr) (l : List (Nat × DWord)) : State :=
  onDev (onWarp (withS (at_ i) l) (fun w => { w with levels := [levelOf stream], emudepth := 1 })) (fun d =>
    { d with cur := { d.cur with lanes := 3 } })

theorem witness_frames : (∀ u ∈ ([0, 1, 2, 3, 4] : List (BitVec 4)),
      issuesB (inLevel false (.emurd ⟨0, 12, 20, 24, u⟩) [(20, 127), (24, 1)]) (.emurd ⟨0, 12, 20, 24, u⟩) = true ∧
      emuCheck (inLevel false (.emurd ⟨0, 12, 20, 24, u⟩) [(20, 127), (24, 1)]).dev 20 24 u.toNat none = none ∧
      issuesB (inLevel false (.emuwr ⟨0, 12, 20, 24, u⟩) [(12, 7), (20, 127), (24, 1)]) (.emuwr ⟨0, 12, 20, 24, u⟩) = true ∧
      emuCheck (inLevel false (.emuwr ⟨0, 12, 20, 24, u⟩) [(12, 7), (20, 127), (24, 1)]).dev 20 24 u.toNat (some 12) = none) ∧
    ((inLevel false (.emurd ⟨0, 12, 20, 24, 1⟩) [(20, 55), (24, 1)]).dev.sr 20).toNat % 64 < 56 := by decide +kernel
/-- FrameRegisterWords: s63 of an open level's record; join register 7, on which lane 5 waits; q15 of the stream. -/
theorem witness_frame_forms :
    (let s := inLevel false (.emuwr ⟨0, 12, 20, 24, 1⟩) [(20, 127), (24, 1)];
      56 ≤ (s.dev.sr 20).toNat % 64 ∧ s.dev.opW.levels = [levelOf false] ∧ s.dev.curWarp.levels = [levelOf false]) ∧
    (let s := onWarp (inLevel false (.emuwr ⟨0, 12, 20, 24, 3⟩) [(20, 7), (24, 1)]) (fun w => w.modFibre 5 (fun f => { f with park := .join 7 0 }));
      (s.dev.curWarp.fibre 5).park = .join 7 0 ∧ (s.dev.sr 20).toNat % 8 = 7 ∧ (s.dev.sr 12).getLsbD 5 = false) ∧
    (∀ i ∈ [Instr.emurd ⟨0, 12, 20, 24, 5⟩, .emuwr ⟨0, 12, 20, 24, 5⟩], let s := onGroup (inLevel true i [(12, 9), (20, 15)]) (fun g => { g with stream := some { pc := 0 } });
      issuesB s i = true ∧ emuCheck s.dev 20 24 5 (some 12) = none ∧ emuCheck s.dev 20 24 5 none = none ∧ s.dev.curGrp.stream.isSome = true ∧
      ((s.dev.groups.find? s.dev.cur.gid).bind (fun g => g.stream)).isSome = true) := by decide +kernel
theorem witness_accumulators : ∃ (f : FmtS) (s : State), (s.dev.sr f.b.toNat).toNat < 1024 ∧
    IssuesWith s (.accrd f) (fun _ d => accCheck d f.a f.b) ∧ IssuesWith s (.accwr f) (fun _ d => accCheck d f.a f.b) :=
  ⟨⟨0, 12, 20, 24⟩, inLevel true (.accrd ⟨0, 12, 20, 24⟩) [(20, 767), (24, 1023)], by decide +kernel,
    issues_with_of (by decide +kernel) (by decide +kernel), issues_with_of (by decide +kernel) (by decide +kernel)⟩

/-- OtherMemoryWords: one lane, at memory; and four texels in scratch. -/
theorem witness_other_memory : ∃ (f : FmtMO) (s t : State) (l : Nat),
    IssuesWith s (.ast32 ⟨0, 12, 20, 3, 2⟩) (fun e d => memCheck e d .write
      ((lanesOf d.active).map (fun l => { lane := l, va := d.vpair 20 l, total := 4 }))) ∧
    IssuesWith t (.ald32 f) (fun e d => memCheck e d .read
      ((lanesOf d.active).map (fun l => { lane := l, va := d.vpair f.a.toNat l, total := 4 }))) ∧
    bindLanes t.dev f = [] ∧ lanesOf t.dev.active = [l] ∧ t.dev.choice = [] ∧ ∃ pa pg ads,
      accTarget t.dev t.dev.who .read { lane := l, va := t.dev.vpair f.a.toNat l, total := 4 } (0, 4) = .ok (.mem pa pg, ads) :=
  ⟨⟨0, 12, 20, 3, 1⟩, oneLane (at_ (.ast32 ⟨0, 12, 20, 3, 2⟩)), oneLane (at_ (.ald32 ⟨0, 12, 20, 3, 1⟩)), 0,
    issues_with_of (by decide +kernel) (by decide +kernel), issues_with_of (by decide +kernel) (by decide +kernel),
    by decide +kernel, by decide +kernel, rfl, of_isMem (by decide +kernel)⟩
def texelState : State :=
  withV (oneLane (at_ (.ldtxBl ⟨0, 12, 20, 1, 1, 9⟩))) [(20, 0), (21, 0xFFFFFF00), (22, 64), (23, 0x80004000)]
theorem witness_texel : IssuesWith texelState (.ldtxBl ⟨0, 12, 20, 1, 1, 9⟩) (fun e d => firstRaise [raiseOf d 0 ((memLanes d).flatMap (fun l =>
      if (d.vr (20 + 2) l).toNat % 4 ≠ 0 then [(texelAcc ⟨0, 12, 20, 1, 1, 9⟩ d l 0, .align 2)]
      else ((List.range 4).map (texelAcc ⟨0, 12, 20, 1, 1, 9⟩ d l)).flatMap (fun a =>
        (accErrs e d d.who .read a).map (fun x => (a, x))))),
      missHold d (missLines d ((memLanes d).flatMap (fun l => (List.range 4).map (texelAcc ⟨0, 12, 20, 1, 1, 9⟩ d l)))).length]) ∧
    interrupted texelState.dev (fun l => (List.range 4).map (texelAcc ⟨0, 12, 20, 1, 1, 9⟩ texelState.dev l)) = none ∧
    memLanes texelState.dev = [0] ∧ ∀ i, i < 4 → ∃ o, accTarget texelState.dev texelState.dev.who .read
      (Acc.mk 0 (texelState.dev.vpair 20 0 + BitVec.ofNat 64 (9 * 4) +
        (if i < 2 then 0 else (texelState.dev.vr 22 0).setWidth 64) + (if i % 2 = 1 then 4 else 0)) 4 none false 1) (0, 4) =
      .ok (.scr o, []) :=
  ⟨issues_with_of (by decide +kernel) (by decide +kernel), by decide +kernel, by decide +kernel, fun i hi => of_isScr (by
    have h := List.all_eq_true.mp (show ([0, 1, 2, 3] : List Nat).all (fun i => isScr (accTarget texelState.dev texelState.dev.who .read
      (Acc.mk 0 (texelState.dev.vpair 20 0 + BitVec.ofNat 64 (9 * 4) +
        (if i < 2 then 0 else (texelState.dev.vr 22 0).setWidth 64) + (if i % 2 = 1 then 4 else 0)) 4 none false 1) (0, 4))) = true
      by decide +kernel)
    exact h i (by simp; omega))⟩

/-- FenceWords: an acquiring fence at a wide scope, with a lane; `FENCE.SC` with none outstanding. -/
theorem witness_fences : ∃ s t : State, Issues s (.fence ⟨0, 5, 3⟩) ∧ s.dev.active ≠ 0 ∧ Issues t (.fenceSc ⟨0⟩) ∧
    t.dev.curWarp.fenceSc = none ∧ t.dev.active ≠ 0 :=
  ⟨at_ (.fence ⟨0, 5, 3⟩), at_ (.fenceSc ⟨0⟩), issues_of (by decide +kernel), by decide +kernel, issues_of (by decide +kernel),
    by decide +kernel, by decide +kernel⟩
/-- FenceWords: an acquiring fence at GRP scope, in a gang, and alone after an engine operation of its group wrote
memory; and a releasing one. -/
theorem witness_fence_grp : ∃ s t u : State, Issues s (.fence ⟨0, 1, 1⟩) ∧ s.dev.active ≠ 0 ∧ 1 < s.dev.curGrp.gang.length ∧
    Issues t (.fence ⟨0, 1, 1⟩) ∧ t.dev.active ≠ 0 ∧ t.dev.curGrp.wrote = true ∧ t.dev.curGrp.core = t.dev.cur.core ∧
    Issues u (.fence ⟨0, 5, 2⟩) :=
  ⟨onGroup (at_ (.fence ⟨0, 1, 1⟩)) (fun g => { g with gang := [0, 1] }),
    onGroup (at_ (.fence ⟨0, 1, 1⟩)) (fun g => { g with wrote := true }), at_ (.fence ⟨0, 5, 2⟩),
    issues_of (by decide +kernel), by decide +kernel, by decide +kernel, issues_of (by decide +kernel), by decide +kernel,
    by decide +kernel, by decide +kernel, issues_of (by decide +kernel)⟩

/-- ArrivalWords: a group whose word at 72 is armed with a target and generation 5; waits on generation 5, which has
not come, and on generation 4, which has. -/
def dawState (i : Instr) (gen : Nat) : State :=
  withV (onGroup (oneLane (at_ i)) (fun g => { g with
    scratch := Memory.writeN [] 72 8 0x8500000200000003 })) [(21, BitVec.ofNat 32 gen)]
theorem witness_arrivals : (∀ i ∈ [Instr.sarm ⟨0, 12, 20, 1, 1, 9⟩, .sarr ⟨0, 12, 20, 1, 1, 9⟩, .swait ⟨0, 3, 20, 1, 1, 9⟩, .waitw ⟨0, 12, 20, 1, 1, 9⟩],
      ∀ g ∈ ([4, 5] : List Nat), tileHeads (dawState i g).dev = [0] ∧
        ((dawState i g).dev.groups.find? (dawState i g).dev.cur.gid).isSome = true ∧ issuesB (dawState i g) i = true) := by decide +kernel
theorem witness_arrivals_checks : (∀ g ∈ ([4, 5] : List Nat), let i := Instr.sarm ⟨0, 12, 20, 1, 1, 9⟩
        dawCheck .write 20 9 none (dawState i g).env (dawState i g).dev = none ∧
        dawCheck .write 20 9 (some (fun d l => (d.vr 12 l).toNat % 2 ^ 28)) (dawState i g).env (dawState i g).dev = none ∧
        waitCheck 20 9 (dawState i g).env (dawState i g).dev = none) := by decide +kernel
theorem witness_arrivals_word :
    Spec.dawG (Spec.wordAt (dawState (.waitw ⟨0, 12, 20, 1, 1, 9⟩) 5).dev 72) = 5 := by decide +kernel

/-- FifoWords: the two groups of a column's FIFO, UP with room, full, and DOWN empty and not. -/
def fifoState (i : Instr) (up down : Nat) : State :=
  onDev (at_ i) (fun d => { d with
    groups := [(0, { (d.grp 0) with fifo := true }), (1, { (placeGroup 0) with core := 1, fifo := true })]
    warps := d.warps ++ [(64, startWarp 1 0 (placeShape 0) 0)]
    cols := [(0, { holders := some (0, 1), up := List.replicate up [1], down := List.replicate down [2] })] })
theorem fifo_clear {s : State} {b : Bool} (h : (match s.dev.groups.find? s.dev.cur.gid with
      | some g => g.core == s.dev.cur.core && g.slots.getLast? == some s.dev.cur.slot
      | none => false) = true) (hq : s.dev.curWarp.fifoQ = [])
    (hh : (s.dev.col (s.dev.cur.core / 2)).holders = some (0, 1)) (hc : s.dev.cur.core = 0) (hg : s.dev.cur.gid = 0)
    (hw : fifoWaiter s.dev 1 b = none) : Spec.fifoClear s.dev b := by
  refine ⟨?_, hq, 0, 1, hh, ?_⟩
  · split at h
    · next g hg => exact ⟨g, hg, by simpa using h⟩
    · cases h
  · rw [if_pos (by rw [hc])]
    exact ⟨hg.symm, by rw [hg]; decide, hw⟩
/-- An entry that the current cycle pushed does not count yet, nor does a slot that it freed. -/
def inCycle (s : State) (fresh gone : Nat) : State := onDev s (fun d => { d with
  cols := d.cols.map (fun p => (p.1, { p.2 with fresh := [(1, fresh)], gone := [(0, gone)] })) })
theorem witness_fifo :
    (∀ x ∈ [(0, 0), (14, 1), (15, 1), (16, 0)], let s := inCycle (fifoState (.vfpush ⟨0, 20⟩) x.1 0) 0 x.2;
      s.dev.active ≠ 0 ∧ issuesB s (.vfpush ⟨0, 20⟩) = true ∧ fifoCheck 0 s.dev = none ∧
        (Spec.fifo s.dev true).length + Spec.fifoGone s.dev true = x.1 + x.2) ∧
    (∀ x ∈ [(2, 1), (2, 2), (0, 0)], let s := inCycle (fifoState (.vfpop ⟨0, 12⟩) 0 x.1) x.2 0;
      s.dev.active ≠ 0 ∧ issuesB s (.vfpop ⟨0, 12⟩) = true ∧ fifoCheck 1 s.dev = none ∧
        Spec.fifo s.dev false = List.replicate x.1 [2] ∧ Spec.fifoFresh s.dev false = x.2) ∧
    (∀ x ∈ [(0, 0), (1, 1), (1, 0)], let s := inCycle (fifoState (.vftry ⟨0, 12, 3⟩) 0 x.1) x.2 0;
      s.dev.active ≠ 0 ∧ issuesB s (.vftry ⟨0, 12, 3⟩) = true ∧ fifoCheck 2 s.dev = none ∧
        (Spec.fifo s.dev false).length = x.1 ∧ Spec.fifoFresh s.dev false = x.2) := by
  decide +kernel
theorem witness_fifo_clear : Spec.fifoClear (fifoState (.vfpush ⟨0, 20⟩) 16 0).dev false ∧ Spec.fifoClear (fifoState (.vfpop ⟨0, 12⟩) 0 2).dev true ∧
    Spec.fifoClear (fifoState (.vftry ⟨0, 12, 3⟩) 0 1).dev true :=
  ⟨fifo_clear (by decide +kernel) (by decide +kernel) (by decide +kernel) rfl rfl (by decide +kernel),
    fifo_clear (by decide +kernel) (by decide +kernel) (by decide +kernel) rfl rfl (by decide +kernel),
    fifo_clear (by decide +kernel) (by decide +kernel) (by decide +kernel) rfl rfl (by decide +kernel)⟩
/-- LoadWords, OtherMemoryWords: lanes 0 and 31, each with its own address, in memory and in scratch. -/
def farLanes (i : Instr) (v : List (Nat × Word)) : State := onDev (onWarp (at_ i) (fun w => { w with v := v })) (fun d => { d with
  cur := { d.cur with lanes := 0x80000001 } })
theorem witness_lanes :
    (let s := farLanes (.ld128 ⟨0, 12, 20, 1, 1, 1⟩) [(20 * 32 + 31, 256)];
      memLanes s.dev = [0, 31] ∧ s.dev.choice = [] ∧ ∀ l ∈ memLanes s.dev, ∀ p ∈ Spec.events (halfDone s.dev l) 16,
        isMem (resolve s.dev s.dev.who (s.dev.vpair 20 l + BitVec.ofNat 64 (1 * 16)) 16 p.1 p.2 .read 0) = true) ∧
    (let s := farLanes (.ald32 ⟨0, 12, 20, 3, 1⟩) [(20 * 32 + 31, 256)];
      s.dev.active ≠ 0 ∧ bindLanes s.dev ⟨0, 12, 20, 3, 1⟩ = [] ∧ s.dev.choice = [] ∧ ∀ l ∈ lanesOf s.dev.active,
        isMem (accTarget s.dev s.dev.who .read { lane := l, va := s.dev.vpair 20 l, total := 4 } (0, 4)) = true) ∧
    (let s := farLanes (.ldtxBl ⟨0, 12, 20, 1, 1, 9⟩) [(21 * 32, 0xFFFFFF00), (21 * 32 + 31, 0xFFFFFF00), (22 * 32 + 31, 64)];
      memLanes s.dev = [0, 31] ∧ ∀ l ∈ memLanes s.dev, ∀ k ∈ List.range 4,
        isScr (accTarget s.dev s.dev.who .read (texelAcc ⟨0, 12, 20, 1, 1, 9⟩ s.dev l k) (0, 4)) = true) := by decide +kernel
/-- StoreWords, its data: the halves of 16 bytes, in memory, in scratch and in a scratch way. -/
theorem witness_stored_wide : (∀ p ∈ Spec.events false 16,
      isMem (accTarget (issuing 0).dev (issuing 0).dev.who .write { lane := 0, va := 0x1000, total := 16 } p) = true ∧
      isScr (accTarget (issuing 0).dev (issuing 0).dev.who .write { lane := 0, va := 0xFFFFFF0000000000, total := 16 } p) = true ∧
      isRing (accTarget (passState 0).dev (passState 0).dev.who .write { lane := 0, va := 0xFFFFF80000000010, total := 16 } p) = true) ∧
    Spec.events true 16 = [(8, 8)] := by decide +kernel
/-- FifoWords: no active lane. -/
theorem witness_fifo_none : ∀ i ∈ [Instr.vfpush ⟨0, 20⟩, .vfpop ⟨0, 12⟩, .vftry ⟨0, 12, 3⟩],
    let s := onDev (fifoState i 0 0) (fun d => { d with cur := { d.cur with lanes := 0 } });
    s.dev.active = 0 ∧ issuesB s i = true ∧ ∀ k ∈ [0, 1, 2], fifoCheck k s.dev = none := by decide +kernel

/-! ### Statements on control flow -/

theorem lanes_of {m : Word} {P : Nat → Prop} (h : ∀ l < 32, m.getLsbD l = true → P l) (l : Nat)
    (hl : m.getLsbD l = true) : P l := h l (BitVec.lt_of_getLsbD hl) hl

/-- The fibres of the issuing warp, changed. -/
def onFibres (s : State) (f : Fibre → Fibre) : State :=
  onWarp s (fun w => { w with fib := w.fib.map (fun p => (p.1, f p.2)) })

/-- BranchWords. -/
theorem witness_branches : (∃ f s, Issues s (.bra f)) ∧
    (∃ (f : FmtB) (s : State), Issues s (.bru f) ∧ ∀ l m, s.dev.active.getLsbD l = true → s.dev.active.getLsbD m = true →
      l / tileSize s.dev = m / tileSize s.dev → (s.dev.opW.fibre l).pred f.p.toNat = (s.dev.opW.fibre m).pred f.p.toNat) ∧
    (∃ f s, Issues s (.brw f)) ∧
    ∃ (f : FmtA) (s : State), Issues s (.jmpr f) ∧
      ∀ l, s.dev.cur.lanes.getLsbD l = true → (s.dev.vpair f.a.toNat l).toNat % 12 = 0 :=
  ⟨⟨⟨0, 3, 1, 0x1FFFF⟩, at_ (.bra ⟨0, 3, 1, 0x1FFFF⟩), issues_of (by decide +kernel)⟩,
    ⟨⟨0, 3, 1, 0x10000⟩, oneLane (at_ (.bru ⟨0, 3, 1, 0x10000⟩)), issues_of (by decide +kernel), fun l m hl hm _ => by
      have h0 : ∀ l, (oneLane (at_ (.bru ⟨0, 3, 1, 0x10000⟩))).dev.active.getLsbD l = true → l = 0 := lanes_of (by decide +kernel)
      rw [h0 l hl, h0 m hm]⟩,
    ⟨⟨0, 7, 3, 0x1FFFF⟩, at_ (.brw ⟨0, 7, 3, 0x1FFFF⟩), issues_of (by decide +kernel)⟩,
    ⟨⟨0, 20⟩, withV (at_ (.jmpr ⟨0, 20⟩)) [(20, 12), (21, 0)], issues_of (by decide +kernel), lanes_of (by decide +kernel)⟩⟩

/-- CallWords: the last window that a call with increment 15 can push; the depths 0, 7 and 8. -/
theorem witness_calls : (∃ (f : FmtBC) (s : State), f.i = 15 ∧ IssuesWith s (.call f) (fun _ d => callCheck d f.i.toNat)) ∧
    (∃ (f : FmtBCR) (s : State), IssuesWith s (.callr f) (fun _ d => firstRaise
      [callCheck d f.i.toNat, targetCheck d (fun l => d.vpair f.a.toNat l)])) ∧
    ∃ (f : FmtZ) (s : State), Issues s (.ret f) ∧
      ∀ l, s.dev.cur.lanes.getLsbD l = true → (s.dev.opW.fibre l).depth > 0 ∧ (s.dev.vpair 0 l).toNat % 12 = 0 :=
  ⟨⟨⟨0, 15, 0x1FFFF⟩, onFibres (at_ (.call ⟨0, 15, 0x1FFFF⟩)) (fun f => { f with depth := 7 }), rfl,
      issues_with_of (by decide +kernel) (by decide +kernel)⟩,
    ⟨⟨0, 1, 20⟩, at_ (.callr ⟨0, 1, 20⟩), issues_with_of (by decide +kernel) (by decide +kernel)⟩,
    ⟨⟨0⟩, onFibres (at_ (.ret ⟨0⟩)) (fun f => { f with depth := 8 }), issues_of (by decide +kernel), lanes_of (by decide +kernel)⟩⟩

/-- ForkAndExitWords: a full warp; lane 0 alone, so that lane 1 is the first idle one; no level open. -/
def alone (s : State) : State := onWarp (oneLane s) (fun w => { w with fib := w.fib.map (fun p => (p.1, { p.2 with live := p.1 == 0 })) })
theorem witness_forks : (∃ (f : FmtFork) (s : State), Issues s (.fork f) ∧ s.dev.opW.liveMask = 0xFFFFFFFF) ∧
    (∃ (f : FmtFork) (s : State) (a c : Nat), Issues s (.fork f) ∧ lanesOf (s.dev.withPred f.p.toNat) = [a] ∧
      (lanesOf (~~~s.dev.opW.liveMask)).head? = some c) ∧
    ∃ (f : FmtZ) (s : State), s.dev.curWarp.levels = [] ∧ Issues s (.fexit f) :=
  ⟨⟨⟨0, 0, 1⟩, at_ (.fork ⟨0, 0, 1⟩), issues_of (by decide +kernel), by decide +kernel⟩,
    ⟨⟨0, 0, 1⟩, alone (at_ (.fork ⟨0, 0, 1⟩)), 0, 1, issues_of (by decide +kernel), by decide +kernel, by decide +kernel⟩,
    ⟨⟨0⟩, at_ (.fexit ⟨0⟩), by decide +kernel, issues_of (by decide +kernel)⟩⟩

/-- ForkAndExitWords: two sources, and the lanes 2 and 31 idle; three sources for them; the last fibres of a group of one
warp exit; and the last host fibres of its one level. -/
def forking (n : Word) : State := onWarp (onDev (at_ (.fork ⟨0, 0, 1⟩)) (fun d => { d with cur := { d.cur with lanes := n } }))
  (fun w => { w with fib := w.fib.map (fun p => (p.1, { p.2 with live := p.1 != 2 && p.1 != 31 })) })
theorem witness_fork_lanes : ∀ p ∈ [((3 : Word), [0, 1]), (11, [0, 1, 3])],
    issuesB (forking p.1) (.fork ⟨0, 0, 1⟩) = true ∧ lanesOf ((forking p.1).dev.withPred 0) = p.2 ∧
    lanesOf (~~~(forking p.1).dev.opW.liveMask) = [2, 31] ∧ ∀ l ∈ p.2, ((forking p.1).dev.opW.fibre l).live = true := by decide +kernel
theorem witness_exits :
    (let s := onGroup (at_ (.fexit ⟨0⟩)) (fun g => { g with stream := none });
      issuesB s (.fexit ⟨0⟩) = true ∧ s.dev.curWarp.levels = [] ∧
      (s.dev.groups.find? s.dev.cur.gid).map (fun g => (g.core, g.slots, g.halt, g.stream.isNone)) =
        some (s.dev.cur.core, [s.dev.cur.slot], none, true) ∧ s.dev.cur.lanes = 0xFFFFFFFF) ∧
    (let s := inLevel false (.fexit ⟨0⟩) [];
      issuesB s (.fexit ⟨0⟩) = true ∧ s.dev.curWarp.levels = [levelOf false] ∧ s.dev.curGrp.core = s.dev.cur.core ∧
      s.dev.cur.lanes &&& (levelOf false).host = s.dev.cur.lanes ∧ (levelOf false).trap = false ∧ (levelOf false).stream = false ∧
      ∀ l, l < 32 → (levelOf false).host.getLsbD l = true → s.dev.cur.lanes.getLsbD l = true) := by decide +kernel

/-- JoinWords: every member of the mask arrives; member 1 is running elsewhere. -/
def joining (i : Instr) (m : Word) : State := onWarp (oneLane (at_ i)) (fun w => { w with j := [(3, m)] })
theorem witness_joins : (∃ f s, Issues s (.jset f)) ∧ (∃ f s, Issues s (.jdrop f)) ∧ (∃ f s, Issues s (.yield f)) ∧
    (∃ f s, Issues s (.nopk f)) ∧
    (∃ (f : FmtBJ) (s : State), Issues s (.join f) ∧ s.dev.opW.jm f.j.toNat = s.dev.curWarp.jm f.j.toNat ∧ (∀ l, l < 32 → (s.dev.curWarp.jm f.j.toNat).getLsbD l = true →
      (s.dev.withPred f.m.toNat).getLsbD l = true) ∧ (s.dev.curWarp.jm f.j.toNat).getLsbD 0 = true) ∧
    ∃ (f : FmtBJ) (s : State) (m : Nat), Issues s (.join f) ∧ s.dev.opW.jm f.j.toNat = s.dev.curWarp.jm f.j.toNat ∧ m < 32 ∧ (s.dev.curWarp.jm f.j.toNat).getLsbD m = true ∧
      (s.dev.withPred f.m.toNat).getLsbD m = false ∧ (s.dev.curWarp.fibre m).park = .running ∧
      (s.dev.withPred f.m.toNat &&& s.dev.curWarp.jm f.j.toNat).getLsbD 0 = true :=
  ⟨⟨⟨0, 7, 15⟩, at_ (.jset ⟨0, 7, 15⟩), issues_of (by decide +kernel)⟩, ⟨⟨0, 15⟩, at_ (.jdrop ⟨0, 15⟩), issues_of (by decide +kernel)⟩,
    ⟨⟨0⟩, at_ (.yield ⟨0⟩), issues_of (by decide +kernel)⟩, ⟨⟨0⟩, at_ (.nopk ⟨0⟩), issues_of (by decide +kernel)⟩,
    ⟨⟨0, 3, 0⟩, joining (.join ⟨0, 3, 0⟩) 1, issues_of (by decide +kernel), by decide +kernel, by decide +kernel, by decide +kernel⟩,
    ⟨⟨0, 3, 0⟩, joining (.join ⟨0, 3, 0⟩) 3, 1, issues_of (by decide +kernel), by decide +kernel, by decide +kernel, by decide +kernel,
      by decide +kernel, by decide +kernel, by decide +kernel⟩⟩

/-- TrapWords: a context with a trap vector, one level already open. -/
def trapState (i : Instr) : State := onDev (inLevel false i []) (fun d => { d with ctxs := d.ctxs.set 0 { placeCtx with trapvec := 0x600180 } })
theorem witness_trap_entry : ∀ p ∈ [(Instr.trap ⟨0, 0xFFFF⟩, Cause.soft), (Instr.brk ⟨0, 0xFFFF⟩, Cause.debug)],
    issuesB (trapState p.1) p.1 = true ∧ (trapState p.1).dev.cur.snap = none ∧ (trapState p.1).dev.cur.stream = false ∧
      (trapState p.1).dev.curGrp.core = (trapState p.1).dev.cur.core ∧ (trapState p.1).dev.curGrp.gang = [] ∧
      (trapState p.1).dev.curGrp.halt = none ∧ ((trapState p.1).dev.groups.find? (trapState p.1).dev.cur.gid).isSome = true ∧
      (trapState p.1).dev.curCtx.trapvec ≠ 0 ∧ (trapState p.1).dev.curWarp.levels.length = 1 := by decide +kernel

/-- HandlerLevelEntered: no level open and a handler's block that fits; two levels open; a block that does not
fit. -/
def frameOf : Frame :=
  { gid := 0, slot := 0, lanes := 3, stream := false, gpc := 0x6000C0, wpc := 0x6000C0, cause := .emulate, d0 := 4
    d1 := 0, d2 := 0, ow := [0, 0, 0, 0, 0, 0, 0, 0], fromWord := true, class4 := false, streamPc := 0 }
def entering (n ctl : Nat) : Dev :=
  (onWarp (at_ (.nopk ⟨0⟩)) (fun w => { w with
    nregs := 240, emuctl := BitVec.ofNat 64 ctl, levels := List.replicate n (levelOf false) })).dev
theorem witness_entries : frameOf.stream = false ∧
    (let w := (entering 1 15).warp ((entering 1 15).grp 0).core 0;
      w.levels.length = 1 ∧ w.emuctl.toNat % 16 = w.nregs / 16) ∧
    ((entering 2 0).warp ((entering 2 0).grp 0).core 0).levels.length ≥ 2 ∧
    (let w := (onWarp { State.reset with dev := entering 0 15 } (fun w => { w with nregs := 224 })).dev.warp 0 0;
      w.levels.length = 0 ∧ w.emuctl.toNat % 16 > w.nregs / 16) := by decide +kernel

/-- ReturnFromHandler. -/
theorem witness_returns : let s := inLevel false (.emuret ⟨0, 1⟩) []
    issuesB s (.emuret ⟨0, 1⟩) = true ∧ s.dev.curGrp.core = s.dev.cur.core ∧ s.dev.curWarp.levels = [levelOf false] ∧
    s.dev.cur.lanes &&& (levelOf false).host = s.dev.cur.lanes ∧ (levelOf false).s56.length = 8 ∧
    (levelOf false).lanes = (lanesOf (levelOf false).host).map (fun l => (l, { live := true, pc := 0x6000C0 })) := by
  decide +kernel

/-- ReturnFromHandler: a level of a stream's frame, and a trap level with nothing else open in the group. -/
theorem witness_return_forms : ∀ p ∈ [(true, false), (false, true)],
    let s := onWarp (onGroup (inLevel p.1 (.emuret ⟨0, 1⟩) []) (fun g => { g with stream := some { pc := 0 } })) (fun w => { w with levels := w.levels.map (fun x => { x with trap := p.2 }) });
    issuesB s (.emuret ⟨0, 1⟩) = true ∧ s.dev.curGrp.core = s.dev.cur.core ∧ s.dev.curWarp.levels = [{ levelOf p.1 with trap := p.2 }] ∧
    s.dev.cur.lanes &&& (levelOf p.1).host = s.dev.cur.lanes ∧ s.dev.curGrp.gang = [] ∧ s.dev.curGrp.slots = [s.dev.cur.slot] ∧
    s.dev.saved = [] ∧ ((s.dev.groups.find? s.dev.cur.gid).bind (fun g => g.stream)).isSome = true := by decide +kernel

/-- SystemDelivery: a group alone, of a launch. -/
theorem witness_delivery : ∃ (d : Dev) (g : Group) (l : Launch), d.groups.find? 0 = some g ∧ g.gang = [] ∧
    d.launches.find? g.launch = some l ∧ g.core < 128 ∧ (d.warp g.core 0).idx < 32 :=
  let d := (onDev (at_ (.nopk ⟨0⟩)) (fun d => { d with launches := [(0, noLaunch)] })).dev
  ⟨d, d.grp 0, noLaunch, by decide +kernel, by decide +kernel, by decide +kernel, by decide +kernel, by decide +kernel⟩

/-! ### Statements on matrix streams -/

/-- A stream word, its group's stream changed. -/
def streaming (i : Instr) (f : Stream → Stream) : State :=
  onGroup (at_ i) (fun g => { g with stream := g.stream.map f })
/-- The issuing group's stream. -/
def strOf (s : State) : Stream := ((s.dev.groups.find? s.dev.cur.gid).bind (fun g => g.stream)).getD { pc := 0 }
/-- The hypotheses common to the stream words, with some registers that have no pending write. -/
def streamsB (s : State) (i : Instr) (rs : List (BitVec 4)) : Bool :=
  !s.dev.cur.probe && s.dev.cur.snap.isNone && (guard s.dev i.props).isNone &&
    ((s.dev.groups.find? s.dev.cur.gid).bind (fun g => g.stream)).isSome &&
    rs.all (fun r => !qPending s.dev s.dev.cur.gid r.toNat)
def Streams (s : State) (i : Instr) (st : Stream) (rs : List (BitVec 4)) : Prop :=
  Spec.StreamIssues s i ∧ Spec.StreamIs s st ∧ ∀ r ∈ rs, Spec.QReady s.dev r
theorem stream_is {s : State} (h : ((s.dev.groups.find? s.dev.cur.gid).bind (fun g => g.stream)).isSome = true) :
    Spec.StreamIs s (strOf s) := by
  unfold strOf
  cases hg : s.dev.groups.find? s.dev.cur.gid with
  | none => rw [hg] at h; cases h
  | some g => rw [hg] at h; cases hs : g.stream with
    | none => simp [hs] at h
    | some st => exact ⟨g, hg, by simp [hs]⟩
theorem streams_of {s : State} {i : Instr} {rs : List (BitVec 4)} (h : streamsB s i rs = true) : Streams s i (strOf s) rs := by
  simp only [streamsB, Bool.and_eq_true, Bool.not_eq_true', Option.isNone_iff_eq_none, List.all_eq_true] at h
  exact ⟨⟨h.1.1.1.1, h.1.1.1.2, h.1.1.2⟩, stream_is h.1.2, h.2⟩

/-- SequencerWords: q1 at 1, so that the loop ends; at 0; the class at its limit; no operation under way. -/
theorem witness_sequencer :
    (∃ (f : FmtMI) (s : State) (st : Stream), Streams s (.mli f) st [f.q]) ∧
    (∃ (f : FmtAddq) (s : State) (st : Stream), Streams s (.maddq f) st [f.s, f.b, f.d]) ∧
    (∃ (f : FmtLoop) (s : State) (st : Stream), Streams s (.mloop f) st [f.q] ∧ st.qr f.q.toNat = 1) ∧
    (∃ (f : FmtMbra) (s : State) (st : Stream), Streams s (.mbra f) st [f.q] ∧ f.n = 1 ∧ st.qr f.q.toNat = 0) ∧
    (∃ (f : FmtPrio) (s : State) (st : Stream), Streams s (.mprio f) st [] ∧ f.k.toNat = st.cls0) ∧
    ∃ (f : FmtMfence) (s : State) (st : Stream), Streams s (.mfence f) st [] ∧ st.queue = [] ∧ st.out = [] :=
  ⟨⟨⟨15, 0x20000⟩, streaming (.mli ⟨15, 0x20000⟩) id, _, streams_of (by decide +kernel)⟩,
    ⟨⟨1, 2, 2, 0x200⟩, streaming (.maddq ⟨1, 2, 2, 0x200⟩) id, _, streams_of (by decide +kernel)⟩,
    ⟨⟨1, 0x1FFFF⟩, streaming (.mloop ⟨1, 0x1FFFF⟩) (fun s => { s with q := [(1, 1)] }), _, streams_of (by decide +kernel), by decide +kernel⟩,
    ⟨⟨1, 1, 3⟩, streaming (.mbra ⟨1, 1, 3⟩) id, _, streams_of (by decide +kernel), by decide, by decide +kernel⟩,
    ⟨⟨7⟩, streaming (.mprio ⟨7⟩) (fun s => { s with cls0 := 7 }), _, streams_of (by decide +kernel), by decide +kernel⟩,
    ⟨⟨5⟩, streaming (.mfence ⟨5⟩) id, _, streams_of (by decide +kernel), by decide +kernel, by decide +kernel⟩⟩

/-- StreamWaitsAndStatus: the arrival word at the last dword of scratch, at generation 5; a wait on 4 and on 5, and
with FAULT set. -/
def waiting (gen top : Nat) : State :=
  onGroup (streaming (.mwait ⟨3, 1, 2⟩) (fun s => { s with q := [(1, 65528), (2, BitVec.ofNat 64 gen)] }))
    (fun g => { g with scratch := Memory.writeN [] 65535 1 top })
theorem witness_waits : ∀ p ∈ [(4, 0x05), (5, 0x05), (5, 0x45)],
    streamsB (waiting p.1 p.2) (.mwait ⟨3, 1, 2⟩) [1, 2, 3] = true ∧
    (let off := ((strOf (waiting p.1 p.2)).qr 1).toNat % 2 ^ 19;
      off % 8 = 0 ∧ off + 8 = (waiting p.1 p.2).dev.curGrp.shape.scratch ∧
      (scr64 (waiting p.1 p.2).dev.curGrp off).toNat / 2 ^ 56 % 64 = 5 ∧
      (scr64 (waiting p.1 p.2).dev.curGrp off).getLsbD 62 = (p.2 == 0x45)) := by decide +kernel
theorem witness_stream_status :
    (∃ (f : FmtMsig) (s : State) (st : Stream), Streams s (.msig f) st [f.s] ∧ st.queue.length < 8 ∧
      (st.qr f.s.toNat).toNat % 2 ^ 19 % 8 = 0 ∧ (st.qr f.s.toNat).toNat % 2 ^ 19 + 8 ≤ s.dev.curGrp.shape.scratch) ∧
    (∃ (f : FmtStat) (s : State) (st : Stream), Streams s (.mstat f) st [f.d] ∧
      ∀ m, m ∈ st.queue ∨ m ∈ st.out → m.kind = .mdrain ∨ m.kind = .msig) ∧
    (∃ (f : FmtLdq) (s : State) (st : Stream), Streams s (.mldq f) st [f.s, f.d] ∧
      (st.qr f.s.toNat).toNat % 2 ^ 19 % 8 = 0 ∧
      (st.qr f.s.toNat).toNat % 2 ^ 19 + 8 * f.o.toNat + 8 ≤ s.dev.curGrp.shape.scratch) ∧
    ∃ (s : State) (st : Stream), Streams s .mend st [] ∧ st.queue = [] ∧ st.out = [] ∧ st.faults = [] ∧ st.pins ≠ [] ∧
      s.dev.curGrp.halt = none ∧ ∀ w, w ∈ s.dev.curGrp.slots → (s.dev.warp s.dev.curGrp.core w).liveMask = 0 :=
  ⟨⟨⟨1, 5⟩, streaming (.msig ⟨1, 5⟩) id, _, streams_of (by decide +kernel), by decide +kernel, by decide +kernel, by decide +kernel⟩,
    ⟨⟨15⟩, streaming (.mstat ⟨15⟩) id, strOf (streaming (.mstat ⟨15⟩) id), streams_of (by decide +kernel), by
      have h : (strOf (streaming (.mstat ⟨15⟩) id)).queue = [] ∧ (strOf (streaming (.mstat ⟨15⟩) id)).out = [] := by decide +kernel
      rw [h.1, h.2]; simp⟩,
    ⟨⟨0, 1, 1023⟩, streaming (.mldq ⟨0, 1, 1023⟩) id, _, streams_of (by decide +kernel), by decide +kernel, by decide +kernel⟩,
    ⟨streaming .mend (fun s => { s with pins := [(0, { gen := 1, entries := [3] })] }), _, streams_of (by decide +kernel),
      by decide +kernel, by decide +kernel, by decide +kernel, by decide +kernel, by decide +kernel, by decide +kernel⟩⟩

/-- StreamWaitsAndStatus: `MSTAT` where an engine operation of the group wrote memory. -/
theorem witness_stat_joins : ∃ (f : FmtStat) (s : State) (st : Stream), Streams s (.mstat f) st [f.d] ∧ st.queue = [] ∧
    st.out = [] ∧ s.dev.curGrp.wrote = true :=
  ⟨⟨15⟩, onGroup (streaming (.mstat ⟨15⟩) id) (fun g => { g with wrote := true }), _, streams_of (by decide +kernel),
    by decide +kernel, by decide +kernel, by decide +kernel⟩

/-- EngineOperationWords: an entry of BF16, pinned at slot 2 with generation 7; A at scratch 0 with a pitch of 128;
a tile at memory; a drain of a row to scratch. -/
def engineState (i : Instr) : State :=
  onDev (streaming i (fun s => { s with
    q := [(1, 128 * 2 ^ 19), (2, 2 + 7 * 2 ^ 16 + 2 ^ 32), (4, 0xFFFFFF0000000000), (5, 32 * 4 * 2 ^ 12 + 65528 * 2 ^ 28 + 1 * 2 ^ 7)]
    pins := [(2, { gen := 7, entries := [5] })] })) (fun d => { d with
      cols := d.cols.set 0 { d.col 0 with wbuf := [(5, {
        tag := { dom := 1 }, va := 0, sva := 0, ctx := 0, gid := 0, parts := [], filling := false, first := 5 })] } })
theorem witness_products : ∀ p ∈ [(Instr.mma ⟨1023, 1, 2, 3⟩, false), (Instr.mmas ⟨1023, 1, 2, 3⟩, true)],
    streamsB (engineState p.1) p.1 [] = true ∧ mmaCheck ⟨1023, 1, 2, 3⟩ p.2 (engineState p.1).dev = none ∧
    (livePin (strOf (engineState p.1)) ((strOf (engineState p.1)).qr 2)).isSome = true := by decide +kernel
theorem witness_engine :
    (∃ (f : FmtAcc) (s : State) (st : Stream), Streams s (.mzero f) st [] ∧ st.queue.length < 8) ∧
    (∃ (f : FmtLacc) (s : State) (st : Stream), Streams s (.mlacc f) st [f.s] ∧ st.queue.length < 8 ∧
      (st.qr f.s.toNat).toNat % 128 = 0 ∧ (st.qr f.s.toNat).toNat % 2 ^ 19 + 4096 ≤ s.dev.curGrp.shape.scratch) ∧
    (∃ (f : FmtMwld) (s : State) (st : Stream), Spec.StreamIs s st ∧ IssuesWith s (.mwld f) (fun _ d => firstRaise
      [qHold d [f.s, f.f, f.x, f.d], roomHold d,
        mxIf d (badB (d.q f.f)) 1 f.f 0, mxIf d ((d.q f.s).toNat % 128 != 0) 3 f.s (d.q f.s).toNat,
        mxIf d ((d.q f.f).getLsbD 11 && (d.q f.x).toNat % 64 != 0) 3 f.x (d.q f.x).toNat,
        mxXlate d .read f.s [(d.q f.s, tileBytes (d.q f.f))],
        mxXlate d .read f.x [(d.q f.x, scaleBytes (d.q f.f))]])) ∧
    ∃ (f : FmtDrain) (s : State) (st : Stream), Spec.StreamIs s st ∧ IssuesWith s (.mdrain f) (fun _ d => drainCheck f d) :=
  ⟨⟨⟨1023⟩, streaming (.mzero ⟨1023⟩) id, _, streams_of (by decide +kernel), by decide +kernel⟩,
    ⟨⟨1023, 1⟩, engineState (.mlacc ⟨1023, 1⟩), _, streams_of (by decide +kernel), by decide +kernel, by decide +kernel, by decide +kernel⟩,
    ⟨⟨3, 4, 6, 6, 1⟩, engineState (.mwld ⟨3, 4, 6, 6, 1⟩), _, stream_is (by decide +kernel), issues_with_of (by decide +kernel) (by decide +kernel)⟩,
    ⟨⟨1023, 4, 5⟩, engineState (.mdrain ⟨1023, 4, 5⟩), _, stream_is (by decide +kernel), issues_with_of (by decide +kernel) (by decide +kernel)⟩⟩

/-! ### Statements on engine commands -/

/-- CopyTransferCommands: a descriptor at the last 64 bytes of scratch, for slot 3; a shape in slot 3 of one row. -/
def rowShape : CShape := { row := 64, count1 := 1, count2 := 1, mstride1 := 0, mstride2 := 0, sstride1 := 0, sstride2 := 0 }
def shapeState : State := onGroup (withS (at_ (.cshape ⟨0, 12, 20, 24⟩)) [(20, 65472), (24, 3)]) (fun g => { g with
  scratch := Memory.writeN [] 65472 8 (16384 + 16383 * 2 ^ 32 + 2 ^ 48) })
theorem witness_shape : issuesB shapeState (.cshape ⟨0, 12, 20, 24⟩) = true ∧
    (shapeState.dev.groups.find? shapeState.dev.cur.gid).isSome = true ∧
    (let off := (shapeState.dev.sr 20).toNat; let v := shapeState.dev.curGrp.scratch.readN off 64;
      off % 64 = 0 ∧ off + 64 = shapeState.dev.curGrp.shape.scratch ∧ (shapeState.dev.sr 24).toNat = 3 ∧ off < 2 ^ 19 ∧
      (Spec.shapeFields v).row ≠ 0 ∧ (Spec.shapeFields v).count1 ≠ 0 ∧ (Spec.shapeFields v).count2 ≠ 0 ∧
      v / 2 ^ 20 % 2 ^ 12 = 0 ∧ v < 2 ^ 256 ∧
      (Spec.shapeFields v).row * (Spec.shapeFields v).count1 * (Spec.shapeFields v).count2 ≤ 2 ^ 28 - 1) := by decide +kernel
def entryOf (gen : Nat) (st : CState) : CopyOp :=
  { gid := 0, ctx := 0, func := 1, far := 0, xfer := 0, shape := rowShape, gen := gen, state := st }
def transferState (i : Instr) (func : Nat) : State :=
  let x : Nat := 3 * 2 ^ 19 + 2 ^ 21 + 128 * 2 ^ 24 + (if func < 4 then 0 else 2 ^ 43)
  let s := passState ((encode i).getD 0)
  onDev (withS s [(20, if func = 5 then 0xFFFFF80000000000 else 0x800000), (24, BitVec.ofNat 64 x)]) (fun d => { d with
    groups := [(0, { (d.grp 0) with cshapes := [(3, rowShape)] })]
    cores := d.cores.set 0 { d.core 0 with copies := [(0, entryOf 255 .done)] } })
theorem witness_transfers : ∀ p ∈ [(Instr.cget ⟨0, 12, 20, 24⟩, 1), (.cput ⟨0, 12, 20, 24⟩, 2), (.cgath ⟨0, 12, 20, 24⟩, 3),
      (.cmcast ⟨0, 12, 20, 24⟩, 4), (.cring ⟨0, 12, 20, 24⟩, 5)],
    (let s := transferState p.1 p.2;
      issuesB s p.1 = true ∧ s.dev.cur.snap = none ∧
      s.dev.curGrp.cshapes.find? ((s.dev.sr 24).toNat / 2 ^ 19 % 4) = some rowShape ∧
      Spec.transferOk p.2 s.dev (s.dev.sr 20) (s.dev.sr 24) rowShape ∧
      ((s.dev.core s.dev.cur.core).copies.filter (fun q => q.2.gid == s.dev.cur.gid && q.2.state != .done)).length = 0 ∧
      (s.dev.core s.dev.cur.core).copies.find? 0 = some (entryOf 255 .done)) := by
  unfold Spec.transferOk
  decide +kernel

/-- CopyTransferCommands: a `CMCAST` to a gang of which one member, or every member, has ended. -/
theorem witness_cast_ended : ∀ p ∈ [((1 : Nat), [true, false]), (3, [true, false]), (3, [false, true])],
    (let i := Instr.cmcast ⟨0, 12, 20, 24⟩; let x : Nat := 3 * 2 ^ 19 + 2 ^ 21 + 128 * 2 ^ 24 + p.1 * 2 ^ 43;
      let s := onDev (transferState i 4) (fun d => { (d.modCur (fun w => { w with s := [(20, 0x800000), (24, BitVec.ofNat 64 x)] })) with
        groups := [(0, { (d.grp 0) with gang := [0, 1] }), (1, { noGroup with gang := [0, 1], gidx := 1, ended := true })] });
      issuesB s i = true ∧ Spec.transferOk 4 s.dev (s.dev.sr 20) (s.dev.sr 24) rowShape ∧ s.dev.curGrp.gang = [0, 1] ∧
      (Spec.transferTo 4 s.dev (s.dev.sr 24)).map (hasEnded s.dev) = [false, true].take p.1 ∧ p.2.length = 2) := by
  unfold Spec.transferOk
  decide +kernel

/-- CopyHandleCommands: a handle of no entry, and one of an entry in each state. -/
def handleState (i : Instr) (st : CState) : State :=
  onDev (withS (at_ i) [(20, 5 + 9 * 64 + 2 ^ 14)]) (fun d => { d with
    cores := d.cores.set 0 { d.core 0 with copies := [(5, entryOf 9 st)] } })
theorem witness_handles : ∀ i ∈ [Instr.cstat ⟨0, 12, 20⟩, .cresume ⟨0, 12, 20⟩, .ccancel ⟨0, 12, 20⟩],
    (issuesB (at_ i) i = true ∧ liveHandle (at_ i).dev ((at_ i).dev.sr 20) = none) ∧
    ∀ st ∈ [CState.queued, .running, .parked, .done, .faulted, .cancelled], issuesB (handleState i st) i = true ∧
      (liveHandle (handleState i st).dev ((handleState i st).dev.sr 20)).map (fun p => (p.1, p.2.state)) = some (5, st) := by
  decide +kernel

/-- The commands of the graph engine: a task of pass 0, which writes resource 0, of a launch whose arena has one
record free; a code version in state PATCHABLE, which lists the address 0x800100; a task record at 0x800000; a
counter of 5 at 0x810000; a launch record at 0x820000; and one finish scope of count 4. -/
def graphMem (m : Memory) : Memory :=
  let m := (m.writeN 0xA00004 1 2).writeN 0xA00018 8 0xB00000
  let m := ((m.writeN 0xA00020 1 1).writeN 0xB00000 8 0x800100).writeN 0x800014 1 0xFF
  let m := (m.writeN 0x810000 1 5).writeN 0x820000 8 0x900000
  let m := (m.writeN 0x820024 1 0x0F).writeN 0x820030 8 0x1000000
  let m := (m.writeN 0x820038 4 16384).writeN 0x900000 8 (1 + 2 ^ 43)
  let m := (m.writeN 0x900008 1 64).writeN 0x900018 1 128
  ((m.writeN 0x900050 1 1).writeN 0x900068 1 1).writeN 0x900069 1 32
def graphState (i : Instr) (l : List (Nat × DWord)) : State :=
  onDev (withS (passState ((encode i).getD 0)) l) (fun d => { d with
    mem := graphMem d.mem
    ctxs := d.ctxs.set 0 { placeCtx with cvtbase := 0xA00000 }
    launches := [(0, { passLaunch with arenasz := 8193, graph := { passLaunch.graph with shapes := [noShape] } })]
    towers := d.towers.set 0 { d.tower 0 with
      scopes := [(0, { count := 4, cont := noTask, va := 0, launch := 0, parent := 0, asid := 1 })] } })
/-- A handle of that scope. -/
def scopeHandle : DWord := 2 ^ 33

theorem bind_idle {s : State} (h : [0, 1].all (fun t => (s.dev.tower t).fb.all (fun p => p.2.kind != 6)) = true)
    (hc : s.dev.choice = []) : Spec.bindIdle s.dev := by
  refine ⟨fun t ht p hp => ?_, hc⟩
  have := List.all_eq_true.mp (List.all_eq_true.mp h t (by simp; omega)) p hp
  simpa using this

/-- SpawnCommands: a spawn into no scope and into one; a decrement that leaves 1 and one that would pass 0; a scope
opened. -/
theorem witness_spawn : ∀ p ∈ [(Instr.tspawn ⟨0, 12, 20, 24⟩, (0 : DWord)), (.tspawn ⟨0, 12, 20, 24⟩, scopeHandle),
      (.fsopen ⟨0, 12, 20, 24⟩, 0), (.fsopen ⟨0, 12, 20, 24⟩, scopeHandle)],
    (let s := graphState p.1 [(20, 0x800000), (24, p.2)];
      issuesB s p.1 = true ∧ recCommandCheck ⟨0, 12, 20, 24⟩ s.env s.dev = none ∧ (s.dev.sr 20).toNat % 64 = 0 ∧
      taskOk (recTouch s.dev .read (recAcc (s.dev.sr 20) 64)) (curLaunch s.dev) (taskOf (recRead s.dev (recAcc (s.dev.sr 20) 64))) = true ∧
      (s.dev.launches.find? (curLid s.dev)).isSome = true ∧
      (freeRec (curLaunch s.dev) 8192 (curLaunch s.dev).arenasz).isSome = true ∧
      (p.2 = 0 ∨ scopeTower p.2 = s.dev.curTower ∧ (scopeFind s.dev p.2).map (fun x => (x.asid, x.count)) = some (s.dev.curAsid, 4)) ∧
      SMap.free (s.dev.tower s.dev.curTower).scopes 256 = some 1) := by decide +kernel
theorem witness_spawn_idle : ∀ i l, Spec.bindIdle (graphState i l).dev := fun _ _ => bind_idle rfl rfl
theorem witness_counter : ∀ n ∈ [4, 6],
    (let s := graphState (.tsucc ⟨0, 12, 20, 24⟩) [(20, 0x810000), (24, BitVec.ofNat 64 n)];
      issuesB s (.tsucc ⟨0, 12, 20, 24⟩) = true ∧ tsuccCheck s.env s.dev (s.dev.sr 20) (s.dev.sr 24) = none ∧
      (counterAt s.dev (curLaunch s.dev).ctx (s.dev.sr 20)).map (fun x => s.dev.mem.readN x.1 4) = some 5) := by decide +kernel

/-- SpawnCommands: an arena that no page maps, so that its record cannot be written. -/
def unmapped (s : State) : State := onDev s (fun d => { d with
  launches := d.launches.map (fun p => (p.1, { p.2 with arena := 0x100000000000 })) })
theorem witness_spawn_unwritten : ∀ i ∈ [Instr.tspawn ⟨0, 12, 20, 24⟩, .fsopen ⟨0, 12, 20, 24⟩],
    let s := unmapped (graphState i [(20, 0x800000)]);
    issuesB s i = true ∧ recCommandCheck ⟨0, 12, 20, 24⟩ s.env s.dev = none ∧
      taskOk (recTouch s.dev .read (recAcc (s.dev.sr 20) 64)) (curLaunch s.dev) (taskOf (recRead s.dev (recAcc (s.dev.sr 20) 64))) = true ∧
      (match freeRec (curLaunch s.dev) 8192 (curLaunch s.dev).arenasz with
        | some k => (Spec.recPieces (Spec.recHeld s.dev (curLid s.dev) k) s.dev k).isNone
        | none => false) = true := by decide +kernel
/-- SpawnCommands: a counter of 5 that falls to 0, its record a task that runs, and one that is turned away. -/
def countState (ok : Bool) : State :=
  onDev (graphState (.tsucc ⟨0, 12, 20, 24⟩) [(20, 0x810000), (24, 5)]) (fun d => { d with
    mem := d.mem.writeN 0x810008 8 (if ok then 0x800000 else 0x810040) })
theorem witness_counter_zero : ∀ ok ∈ [true, false],
    let s := countState ok;
    tsuccCheck s.env s.dev (s.dev.sr 20) (s.dev.sr 24) = none ∧ s.dev.curGrp.scope = 0 ∧
      (match counterAt s.dev (curLaunch s.dev).ctx (s.dev.sr 20) s.dev.curTower with
        | some (pa, _, _) => s.dev.mem.readN pa 4 == 5 && s.dev.mem.readN (pa + 8) 8 % 64 == 0 &&
          (match engRead s.dev (curLaunch s.dev).ctx (BitVec.ofNat 64 (s.dev.mem.readN (pa + 8) 8)) 64 s.dev.curTower with
            | some v => taskOk s.dev (curLaunch s.dev) (taskOf v) == ok
            | none => false)
        | none => false) = true ∧ (freeRec (curLaunch s.dev) 8192 (curLaunch s.dev).arenasz).isSome = true := by decide +kernel

/-- GraphCommands. -/
theorem witness_scopes : ∀ p ∈ [(Instr.fsadd ⟨0, 12, 20, 24⟩, (65535 : DWord)), (.fsclose ⟨0, 12, 20, 24⟩, 3), (.fsclose ⟨0, 12, 20, 24⟩, 4)],
    (let s := graphState p.1 [(20, scopeHandle), (24, p.2)];
      issuesB s p.1 = true ∧ farCheck s.dev (s.dev.sr 20) = none ∧ scopeTower (s.dev.sr 20) = s.dev.curTower ∧
      (scopeFind s.dev (s.dev.sr 20)).map (fun x => (x.asid, x.count)) = some (s.dev.curAsid, 4)) := by
  decide +kernel
/-- A handle of tower 1, held in tower 0. -/
theorem witness_far_scopes : ∀ i ∈ [Instr.fsadd ⟨0, 12, 20, 24⟩, .fsclose ⟨0, 12, 20, 24⟩],
    (let s := graphState i [(20, scopeHandle + 2 ^ 32), (24, 1)];
      issuesB s i = true ∧ s.dev.sr 20 ≠ 0 ∧ scopeTower (s.dev.sr 20) ≠ s.dev.curTower ∧ s.dev.uciUp = true) := by
  decide +kernel
theorem witness_retire : let s := graphState (.tretire ⟨0, 12, 20⟩) []
    issuesB s (.tretire ⟨0, 12, 20⟩) = true ∧ (s.dev.groups.find? s.dev.cur.gid).isSome = true ∧ s.dev.sr 20 = 0 ∧
    s.dev.curGrp.gang = [] ∧ s.dev.curGrp.task.pass ≠ 255 ∧ 0 ∈ ((curLaunch s.dev).pass s.dev.curGrp.task.pass).outs ∧
    s.dev.curGrp.trets = [] ∧ s.dev.curGrp.task.ty * 2 ^ 12 + s.dev.curGrp.task.tx = 0 ∧
    ((curLaunch s.dev).rt 0).st = .writing ∧ ((curLaunch s.dev).rt 0).lost = false := by decide +kernel
/-- GraphCommands: a resource number of nine bits, one that the pass does not write; the retirements due of a group. -/
theorem witness_retire_forms : (∀ r ∈ [256, 1], let s := graphState (.tretire ⟨0, 12, 20⟩) [(20, BitVec.ofNat 64 r)];
      issuesB s (.tretire ⟨0, 12, 20⟩) = true ∧ (s.dev.groups.find? s.dev.cur.gid).isSome = true ∧
        ¬ r ∈ ((curLaunch s.dev).pass s.dev.curGrp.task.pass).outs) ∧
    (∀ lost ∈ [true, false], let d := (onDev (onGroup (graphState (.tretire ⟨0, 12, 20⟩) []) (fun g => { g with tretDue := [0] })) (fun d => { d with
        launches := d.launches.map (fun p => (p.1, { p.2 with rts := [(0, { st := .writing, place := .slot 0 0, lost := lost })] })) })).dev;
      (d.groups.find? 0).map (fun g => (g.tretDue, g.task.ty * 2 ^ 12 + g.task.tx, g.launch)) = some ([0], 0, 0) ∧
        (d.launches.find? 0).isSome = true ∧ ((d.launch 0).rt 0).st = .writing ∧ ((d.launch 0).rt 0).lost = lost) := by decide +kernel
theorem witness_launch : ∀ k ∈ [0, 2 ^ 33],
    (let h := BitVec.ofNat 64 k; let s := graphState (.glaunch ⟨0, 12, 20, 24⟩) [(20, 0x820000), (24, h)];
      issuesB s (.glaunch ⟨0, 12, 20, 24⟩) = true ∧ recCommandCheck ⟨0, 12, 20, 24⟩ s.env s.dev = none ∧
      (h = 0 ∨ scopeTower h = s.dev.curTower ∧ (scopeFind s.dev h).map (fun x => (x.asid, x.count)) = some (s.dev.curAsid, 4)) ∧
      (let d := recTouch s.dev .read (recAcc (s.dev.sr 20) 64); let v := recRead s.dev (recAcc (s.dev.sr 20) 64);
        (loadCheck d s.dev.curGrp.ctx v).1 = 0 ∧
        launchOver (acceptLaunch (scopeJoin d h) (loadCheck d s.dev.curGrp.ctx v).2 none h v s.dev.curTower)
          s.dev.nextLaunch = false)) := by decide +kernel
theorem witness_class : let s := graphState (.gprio ⟨0, 12, 20, 24⟩) [(24, 7)]
    issuesB s (.gprio ⟨0, 12, 20, 24⟩) = true ∧ (s.dev.launches.find? (curLid s.dev)).isSome = true ∧ s.dev.sr 20 = 0 ∧
    s.dev.curTower < 2 ∧ s.dev.sr 24 = 7 ∧ s.dev.curGrp.task.pass ≠ 255 ∧ 0 < (curLaunch s.dev).graph.passes.length ∧ (curLaunch s.dev).classcap = 7 := by
  decide +kernel

/-- MemoryEngineCommands: an invalidation that ends at 2^64; each mode of `CFLUSH` over one page; 12 ways of both
towers; every address and level; a word that no slot lists, and one that a slot lists. -/
theorem witness_memory_engine :
    (let s := withS (at_ (.icinv ⟨0, 12, 20, 24⟩)) [(20, 0xFFFFFFFFFFFFFFC0), (24, 64)];
      issuesB s (.icinv ⟨0, 12, 20, 24⟩) = true ∧ (s.dev.sr 20).toNat + (s.dev.sr 24).toNat = 2 ^ 64) ∧
    (∀ m ∈ [0, 1, 2], let s := withS (at_ (.cflush ⟨0, 12, 20, 24⟩)) [(20, 0x800000), (24, 65536 + BitVec.ofNat 64 m * 2 ^ 48)];
      issuesB s (.cflush ⟨0, 12, 20, 24⟩) = true ∧ s.dev.choice = [] ∧ (s.dev.sr 24).toNat / 2 ^ 48 = m ∧
      (s.dev.sr 24).toNat % 2 ^ 48 = 65536 ∧ (s.dev.sr 20).toNat % 65536 = 0 ∧ s.dev.uciUp = true ∧
      windowOf (s.dev.sr 20).toNat = 0 ∧ isMem (resolveAt s.dev s.dev.who (s.dev.sr 20) 1 0 1 .read 0) = true) ∧
    (let s := withS (at_ (.csplit ⟨0, 12, 20, 24⟩)) [(20, 12), (24, 3)];
      issuesB s (.csplit ⟨0, 12, 20, 24⟩) = true ∧ splitOk s.dev s.dev.curGrp.ctx 0 12 = true ∧ splitOk s.dev s.dev.curGrp.ctx 1 12 = true) ∧
    (let s := withS (at_ (.tlbinv ⟨0, 12, 20, 24⟩)) [(24, 0x3FFFF)];
      issuesB s (.tlbinv ⟨0, 12, 20, 24⟩) = true ∧ (s.dev.sr 24).toNat + 1 = 2 ^ 18 ∧ s.dev.invals = [] ∧
      s.dev.groups.all (fun g => ((g.2.stream.map (fun st => st.queue ++ st.out)).getD []).isEmpty) = true ∧
      s.dev.cols.all (fun c => c.2.wbuf.isEmpty) = true) := by decide +kernel
theorem no_targets {d : Dev}
    (h : d.groups.all (fun g => ((g.2.stream.map (fun st => st.queue ++ st.out)).getD []).isEmpty) = true)
    (hc : d.cols.all (fun c => c.2.wbuf.isEmpty) = true) : Spec.noTargetsHeld d := by
  refine ⟨fun g hg st hs m hm => ?_, fun c hc' q hq => ?_⟩
  · have := List.all_eq_true.mp h g hg
    simp only [hs, Option.map_some, Option.getD_some, List.isEmpty_iff] at this
    simp [this] at hm
  · have := List.all_eq_true.mp hc c hc'
    rw [List.isEmpty_iff] at this
    simp [this] at hq
theorem witness_patch : ∀ p ∈ [(0x800108, false), (0x800100, true)],
    (let s := graphState (.patch ⟨0, 12, 20, 24⟩) [(20, BitVec.ofNat 64 p.1)];
      issuesB s (.patch ⟨0, 12, 20, 24⟩) = true ∧ memCheck s.env s.dev .patch [recAcc (s.dev.sr 20) 8] = none ∧
      (patchSlot s.env s.dev s.dev.curGrp.ctx (s.dev.sr 20)).2 = p.2 ∧
      isMem (accTarget s.dev s.dev.who .patch (recAcc (s.dev.sr 20) 8) (0, 8)) = true) := by decide +kernel

/-- MemoryEngineCommands: operands out of range, lengths of 0, a split that leaves no way, a page that no entry maps, and
a context with no list of patch slots. -/
theorem witness_memory_engine_forms :
    (∀ p ∈ [(Instr.icinv ⟨0, 12, 20, 24⟩, (0xFFFFFFFFFFFFFFC0 : DWord), (65 : DWord)), (.icinv ⟨0, 12, 20, 24⟩, 0x800000, 0),
        (.cflush ⟨0, 12, 20, 24⟩, 0xFFFFFFFFFFFFFFC0, 65), (.cflush ⟨0, 12, 20, 24⟩, 0, 3 * 2 ^ 48 + 1), (.cflush ⟨0, 12, 20, 24⟩, 0, 2 * 2 ^ 48),
        (.csplit ⟨0, 12, 20, 24⟩, 13, 1), (.csplit ⟨0, 12, 20, 24⟩, 0, 4), (.tlbinv ⟨0, 12, 20, 24⟩, 0, 2 ^ 18)],
      issuesB (withS (at_ p.1) [(20, p.2.1), (24, p.2.2)]) p.1 = true) ∧
    (let s := onDev (withS (at_ (.csplit ⟨0, 12, 20, 24⟩)) [(20, 12), (24, 1)]) (fun d => { d with
        towers := d.towers.set 0 { d.tower 0 with ways := [(7, [0])] } });
      issuesB s (.csplit ⟨0, 12, 20, 24⟩) = true ∧ splitOk s.dev s.dev.curGrp.ctx 0 12 = false) ∧
    (let s := withS (at_ (.cflush ⟨0, 12, 20, 24⟩)) [(20, 0x100000000000), (24, 65536)];
      issuesB s (.cflush ⟨0, 12, 20, 24⟩) = true ∧ windowOf (s.dev.sr 20).toNat = 0 ∧
      (match resolveAt s.dev s.dev.who (s.dev.sr 20) 1 0 1 .read (s.dev.opt 1) with
        | .error (.xlate false _ _ _) => true
        | _ => false) = true) ∧
    (let s := withS (at_ (.patch ⟨0, 12, 20, 24⟩)) [(20, 0x800100)];
      issuesB s (.patch ⟨0, 12, 20, 24⟩) = true ∧ memCheck s.env s.dev .patch [recAcc (s.dev.sr 20) 8] = none ∧
      patchElems s.dev s.dev.curGrp.ctx = []) := by decide +kernel

/-- TelemetryAndPowerCommands: the last sensor, and an item that is not there; a layer gated, not gated, held hot. -/
theorem witness_telemetry : ∀ a ∈ [0x601, 6, 0x10000],
    issuesB (withS (at_ (.telrd ⟨0, 12, 20⟩)) [(20, BitVec.ofNat 64 a)]) (.telrd ⟨0, 12, 20⟩) = true := by decide +kernel
def gateState (b : DWord) (gated hot : List Nat) : State :=
  onDev (withS (at_ (.pgreq ⟨0, 12, 20, 24⟩)) [(20, 31 + 32 + 6 * 256), (24, b)]) (fun d => { d with
    mgmt := { d.mgmt with gated := gated, heldHot := hot } })
theorem witness_gates : ∀ p ∈ [((1 : DWord), ([510] : List Nat), ([] : List Nat)), (1, [], []), (0, [], [510]), (0, [], []), (0, [510], [])],
    (let s := gateState p.1 p.2.1 p.2.2;
      issuesB s (.pgreq ⟨0, 12, 20, 24⟩) = true ∧ (s.dev.tower 1).retiring = [] ∧ s.dev.mgmt.gating = [] ∧ s.dev.mgmt.failed = [] ∧
      s.dev.sr 24 = p.1 ∧ (1 * 32 + 31) * 8 + 6 = 510 ∧ s.dev.mgmt.gated = p.2.1 ∧ s.dev.mgmt.heldHot = p.2.2) := by decide +kernel

/-! ### Statements on events -/

/-- A group of one warp on core 0, nothing issued. -/
def idle : State := at_ (.nopk ⟨0⟩)
/-- A halt that began in group 0's warp. -/
def haltAt (c : Nat) (save : Bool) : Halt :=
  { c := c, save := save, cause := .soft, olanes := 3, ow := [0, 0, 0, 0, 0, 0, 0, 0] }

/-- CoreEvents: destinations at both ends of a register file; a warp with a level open; no level open. -/
theorem witness_core_events :
    (let p : Ev.LoadReturn := { core := 0, slot := 0, vec := [(20 * 32, 7), (20 * 32 + 31, 8)], sca := [(1, 9), (63, 1)] };
      (idle.dev.warps.find? (wkey p.core p.slot)).isSome = true ∧ p.strm = [] ∧ (p.vec.map Prod.fst).Nodup ∧ (p.sca.map Prod.fst).Nodup) ∧
    (((streaming .mend id).dev.groups.find? 0).bind (fun x => x.stream)).isSome = true ∧
    (idle.dev.warps.find? (wkey 0 0)).map (fun w => w.gid) = some 0 ∧
    (let s := trapState (.nopk ⟨0⟩);
      (s.dev.groups.find? 0).map (fun g => (g.core, g.gang, g.halt)) = some (0, [], none) ∧ (s.dev.ctx 0).trapvec ≠ 0 ∧
      (s.dev.warp 0 0).levels.length = 1) ∧
    (let s := onGroup (trapState (.nopk ⟨0⟩)) (fun g => { g with halt := some (haltAt 0 false) });
      (s.dev.groups.find? 0).map (fun g => (g.halt, g.saving, g.slots)) = some (some (haltAt 0 false), false, [0]) ∧
      (s.dev.warps.find? (wkey 0 0)).map (fun w => w.levels.length) = some 1 ∧
      (s.dev.warp 0 0).emuctl.toNat % 16 ≤ (s.dev.warp 0 0).nregs / 16) ∧
    (let s := onDev idle (fun d => { d with ctxs := d.ctxs.set 0 { placeCtx with emuvec := 0x600180 } });
      (match decode 0xFFFFFFFF with
        | .error r => r == .never
        | .ok _ => false) = true ∧ s.dev.cur.probe = false ∧ s.dev.cur.stream = false ∧ s.dev.curGrp.core = s.dev.cur.core ∧
      s.dev.curWarp.levels = [] ∧ s.dev.curCtx.emuvec ≠ 0 ∧
      s.dev.curWarp.emuctl.toNat % 16 ≤ s.dev.curWarp.nregs / 16) := by decide +kernel

/-- EngineEvents: the one chunk of a row of 64 bytes, from memory to scratch; an entry that settles; a group that is
saved. -/
def copyState (st : CState) (settling : Bool) : State :=
  onDev idle (fun d => { d with
    cores := d.cores.set 0 { d.core 0 with copies := [(5, { entryOf 1 st with
      far := 0x800000, xfer := 3 * 2 ^ 19 + 2 ^ 21 + 128 * 2 ^ 24, members := [{ gid := 0, gidx := 0 }], settling := settling })] } })
theorem witness_copies :
    (let s := copyState .running false; let p : Ev.Chunk := { core := 0, entry := 5, member := 0, chunk := 0 };
      s.dev.choice = [] ∧ chunkReady s.dev p.core p.entry p.member p.chunk = true ∧
      (match (s.dev.core 0).copies.find? 5 with
        | some o => o.func == 1 && o.members.length == 1 && o.held.isEmpty && chunkAddr s.dev o 0 == some (0x800000, 0, 64) &&
            (match resolve s.dev (o.who 0) 0x800000 64 0 64 .read 0 with
              | .ok (.mem pa _, _) => (readErr s.dev pa).isNone
              | _ => false)
        | none => false) = true) ∧
    (((copyState .running true).dev.core 0).copies.find? 5).map (fun o => (o.settling,
        settleReady (copyState .running true).dev o, o.members.map (fun m => (m.gid, m.dropped)))) = some (true, true, [(0, false)]) ∧
    ((onGroup idle (fun g => { g with saving := true })).dev.groups.find? 0).map (fun g => (g.saving, g.gang)) = some (true, []) := by
  decide +kernel

/-- EngineEvents: the head of a queue may leave; a Kennel slot at its deadline; an operation ready to enter; one whose
result is due; a weight tile read; a row to drain; a signal. -/
def opOf (k : MopKind) : Mop := { gid := 0, core := 0, kind := k, pc := 0, word := 0, acc := 3, entry := 5, qf := 0x1000000 }
def outState (m : Mop) : State := onDev (streaming .mend (fun st => { st with out := [m] })) (fun d => { d with
  now := 1000
  cols := [(0, { wbuf := [(5, { tag := { dom := 1 }, va := 0, sva := 0, ctx := 0, gid := 0, parts := [], filling := false, first := 5 })]
                 kennel := [(2, { key := [], members := [⟨m, 0⟩], rows := 32, deadline := 1000, born := 0 })]
                 ready := [(1, { members := [⟨m, 0⟩], cls := 0, born := 0 })]
                 flying := [(1, { members := [⟨m, 0⟩], cls := 0, born := 0, layers := 15, resultAt := 1000 })] })] })
theorem witness_engine_events :
    (∀ k ∈ [MopKind.mma, .mzero, .mlacc, .mdrain, .msig], let s := streaming .mend (fun st => { st with queue := [opOf k] });
      leaveReady s.dev 0 = true ∧ (strOf s).queue = [opOf k]) ∧
    (let s := outState (opOf .mma);
      ((s.dev.col 0).kennel.find? 2).map (fun k => (k.deadline, k.members.length)) = some (s.dev.now, 1) ∧
      ((s.dev.col 0).flying.find? 1).map (fun o => (o.resultAt, o.members.length, o.first)) = some (s.dev.now, 1, some (opOf .mma)) ∧
      (entryNow s.dev 0).map (fun x => x.1) = some 1 ∧ ((s.dev.col 0).wbuf.find? 5).isSome = true ∧ s.dev.opt 14 ≠ 1) ∧
    (let s := outState (opOf .mzero); tileBusy s.dev 0 3 0 [] = false ∧
      ((s.dev.col 0).flying.find? 1).map (fun o => o.first) = some (some (opOf .mzero))) := by decide +kernel
def fillState : State := onDev (streaming .mend id) (fun d => { d with
  cols := [(0, { wbuf := [(5, { tag := { dom := 1, fields := 6 }, va := 0x800000, sva := 0, ctx := 0, gid := 0
                                parts := [[(.scr 0, 128)], []], filling := true, first := 5 })] })] })
def drainState : State := outState { opOf .mdrain with
  qo := 32 * 4 * 2 ^ 12, rows := [0, 1], tile := some [(0, 0x3F800000)], parts := [[(.scr 256, 128)], [(.scr 384, 128)]] }
theorem witness_fill : (match ((fillState.dev.col 0).wbuf.find? 5).map (fun w => (w.filling, w.first, w.readyAt, (w.settled fillState.dev).map (fillRead fillState.env fillState.dev))) with
      | some (true, 5, 0, some (.ok _)) => true
      | _ => false) = true := by decide +kernel
theorem witness_drain : drainReady drainState.dev 0 0 1 = true ∧
    (match outOp drainState.dev 0 0 with
      | some m => m.gid == 0 && m.tile.isSome && !m.qo.getLsbD 6 && !m.qo.getLsbD 47 && 32 * qoSize m.qo == 128 &&
          m.rowParts drainState.dev 1 == some ([(.scr 384, 128)], [])
      | none => false) = true ∧
    msigReady (outState (opOf .msig)).dev 0 0 = true ∧ (outOp (outState (opOf .msig)).dev 0 0).map (fun m => m.gid) = some 0 ∧
    ((outState (opOf .msig)).dev.groups.find? 0).isSome = true := by decide +kernel

/-- GraphEvents. -/
def spawned : Spawned := { launch := 0, va := 0, task := noTask, scope := 0 }
def spawnState (sh : Shape) : State := onDev idle (fun d => { d with
  launches := [(0, { noLaunch with graph := { noLaunch.graph with shapes := [sh] } })]
  towers := d.towers.set 0 { d.tower 0 with spawn := [(3, [spawned])] } })
theorem witness_dispatch :
    (match dispatchChoice (spawnState noShape).dev 0 with
      | some (.start c k) => c.spawned == some spawned && ((occOf (spawnState noShape).dev k).place c.shape).isSome
      | _ => false) = true ∧ (dispatchChoice idle.dev 0).isNone = true ∧
    (spawnState noShape).dev.groups.find? (spawnState noShape).dev.nextGid = none := by decide +kernel
def gangState : State := onDev idle (fun d => { d with
  towers := d.towers.set 0 { d.tower 0 with gangs := [{
    launch := 0, pass := 64, cls := 3, shape := noShape, members := [2, 3], reserved := 1, started := 0, since := 0 }] } })
theorem witness_gangs : (match (gangMoves gangState.dev 0).find? (fun x => x.1 == 3) with
      | some (3, 0, .next _) => true
      | _ => false) = true ∧ (gangState.dev.tower 0).gangs.length = 1 := by decide +kernel
def retireState : State := onDev idle (fun d => { d with
  groups := [(0, { (d.grp 0) with gang := [0, 1], ended := true }), (1, { noGroup with gang := [0, 1], gidx := 1, ended := true })] })
theorem witness_retirement : retireReady retireState.dev 0 = true ∧ (retireState.dev.groups.find? 0).map (fun g => g.gang) = some [0, 1] ∧
    (retireState.dev.groups.find? 1).isSome = true := by decide +kernel
/-- GraphEvents: a message with the number expected, one with a later number, one already taken; the link down. -/
theorem witness_mirror_order : ∃ s t : State, s.dev.uciUp = true ∧ (s.dev.tower 1).mirrorIn = 1 ∧ t.dev.uciUp = false :=
  ⟨onDev idle (fun d => { d with towers := d.towers.set 1 { d.tower 1 with mirrorIn := 1 } }),
    onDev idle (fun d => { d with uciUp := false }), by decide +kernel, by decide +kernel, rfl⟩
theorem witness_mirror : let s := onDev idle (fun d => { d with launches := [(0, passLaunch)] })
    (s.dev.tower 1).mirrorIn = 0 ∧ s.dev.uciUp = true ∧ (s.dev.launches.find? 0).isSome = true := by decide +kernel

/-- A launch of priority 7 whose pass 0 has waited for longer than 10 microseconds and no core can hold; pass 1 reads
what pass 0 writes; and a group of another context with a save area. -/
def waitLaunch : Launch := { noLaunch with
  towers := 1
  graph := { noLaunch.graph with
    passes := [{ noPass with mask0 := 1, split := 1, outs := [0] }, { noPass with mask0 := 1, split := 1, ins := [(0, 0)] }]
    res := [noRes], stencils := [noStencil], shapes := [{ noShape with regs := 4096 }] }
  queues := [(0, [0])], rts := [(0, { lost := true })] }
def saveCtx : Ctx := { placeCtx with savepool := 0x1000000, savecfg := 4 + 16 * 2 ^ 16 }
def waitState (redo : SMap Nat) : State := onDev idle (fun d => { d with
  now := 30000, launches := [(0, { waitLaunch with redo := redo })]
  ctxs := [(0, { placeCtx with ctxprio := 7 }), (1, saveCtx)]
  groups := [(0, { (d.grp 0) with ctx := 1, task := { noTask with pass := 1 } })] })
theorem witness_preemption :
    (match (candsOf (waitState []).dev 0).findSome? (starved (waitState []).dev 0) with
      | some vs => victimOf (waitState []).dev vs == some 0 && ((waitState []).dev.groups.find? 0).any (fun g => !g.ended)
      | none => false) = true ∧
    (match lateRedo (waitState [(0, 0)]).dev 0 with
      | some [v] => v.1 == 0 && ((waitState [(0, 0)]).dev.groups.find? 0).any (fun g => !g.ended)
      | _ => false) = true := by decide +kernel
def savingState : State := onDev idle (fun d => { d with
  now := 100, ctxs := [(0, saveCtx)], groups := [(0, { (d.grp 0) with saving := true, halt := some (haltAt 0 true) })] })
theorem witness_save : saveReady savingState.dev 0 = true ∧
    (savingState.dev.groups.find? 0).map (fun g => (g.gang, g.fifo)) = some ([], false) := by decide +kernel
theorem witness_save_idle : Spec.noBindWait savingState.dev := by unfold Spec.noBindWait; decide +kernel
/-- A group saved by pre-emption 2 ms ago, of context 0 at priority 0, and a core full with a group of priority 7. -/
def savedState (full : Bool) : State := onDev idle (fun d => { d with
  now := 5200000, ctxs := [(0, saveCtx), (1, { saveCtx with ctxprio := 7 })]
  launches := [(0, { waitLaunch with queues := [] })]
  groups := if full then [(0, { (d.grp 0) with ctx := 1, task := { noTask with pass := 1 }, slots := List.range 64 })] else []
  saved := [{ ctx := 0, gid := 7, va := 0x1000000, block := 0, group := { noGroup with task := { noTask with pass := 1 } }, warps := []
              copies := [], at_ := 0, preempted := true }] })
theorem witness_restore : restoreReady (savedState false).dev 7 = some [(7, 0)] ∧ restoreReady idle.dev 7 = none ∧
    (match starvedGroup (savedState true).dev 0 with
      | some x => restorePlace (savedState true).dev x == none && starveVictim (savedState true).dev x == some 0 &&
          ((savedState true).dev.groups.find? 0).any (fun g => !g.ended)
      | none => false) = true := by decide +kernel
def submitState : State :=
  let s := onDev idle (fun d => { d with queues := d.queues.set 3 { d.queue 3 with
    enable := true, asid := 1, sqbase := 0x1000000, cqbase := 0x1100000, sqtail := 1 } })
  { s with env := { s.env with attached := true } }
theorem witness_submit : submitReady submitState.env submitState.dev 3 = true ∧
    (let d := submitState.dev; let x := d.queue 3; let v := d.mem.readN (x.sqbase.toNat + 64 * (x.sqhead % 2 ^ x.log2sz)) 64;
      let r := (loadCheck (d.modQueue 3 (fun x => { x with sqhead := (x.sqhead + 1) % 2 ^ 32 })) ((ctxOfAsid d x.asid).getD 0) v).1;
      r ≠ 13 ∧ r ≠ 0) := by decide +kernel
theorem witness_submit_idle : Spec.noBindWait submitState.dev := by unfold Spec.noBindWait; decide +kernel

/-- HostEvents: a doorbell taken; a device not attached; BAR2 at the first and the last bytes of GDDR; a release; frames
taken and turned away; a queue for remote launches. -/
theorem witness_host :
    (submitState.env.attached = true ∧ doorbellOk submitState.dev (submitState.dev.queue 3) 16 = true ∧
      (submitState.dev.queue 3).enable = true ∧ (submitState.dev.queue 3).remote = false) ∧
    State.reset.env.attached = false ∧ regRead idle.env idle.dev 0x3FFFFF8 = none ∧
    bar2Addr idle.dev 0 8 = some 0 ∧ bar2Addr idle.dev (2 ^ 28 - 4096) 4096 = some (2 ^ 28 - 4096) ∧ inGddr (Config.gddrBytes - 1) = false ∧ readErr idle.dev 0 = none ∧
    idle.dev.uciUp = true ∧ idle.dev.choice = [] ∧
    ethNext idle.dev { port := 0, src := 9, seq := 0, launch := 0, a := 0, data := [] } = true ∧
    ethNext idle.dev { port := 2, src := 9, seq := 0, launch := 0, a := 0, data := [] } = false ∧
    idle.dev.mgmt.allow = [] ∧ ethDead idle.dev 0 = false := by decide +kernel
/-- The last entry of the fault buffer of tower 1, on which lane 31 of a group's warp waits. -/
def faultState : State := onDev (onWarp idle (fun w => { w with
    fib := w.fib.map (fun p => (p.1, if p.1 = 31 then { p.2 with park := .replay 1 [255] false } else p.2)) })) (fun d => { d with
  towers := d.towers.set 1 { d.tower 1 with fb := [(255, {
    va := 0, asid := 1, kind := 0, reason := 0, level := 0, src := 0, waiters := 1, ptepa := 0, stamp := 0 })] } })
theorem quiet_of {d : Dev} (h0 : d.walking.isEmpty = true)
    (h1 : d.warps.all (fun w => w.2.fib.all (fun f => match f.2.park with
      | .bind _ _ _ _ _ => false
      | _ => true)) = true)
    (h2 : d.groups.all (fun g => g.2.waits.isEmpty && g.2.owed.isEmpty) = true)
    (h3 : d.cores.all (fun c => c.2.copies.all (fun o => o.2.waits.isEmpty)) = true) : Spec.quietBuffers d := by
  simp only [List.all_eq_true, List.isEmpty_iff, Bool.and_eq_true] at h0 h1 h2 h3
  refine ⟨h0, fun w hw f hf t k va r o e => ?_, h2, h3⟩
  have := h1 w hw f hf
  simp [e] at this
theorem witness_quiet : Spec.quietBuffers faultState.dev ∧ ((faultState.dev.tower 1).fb.find? 255).isSome = true ∧
    ((faultState.dev.warp 0 0).fibre 31).park = .replay 1 [255] false :=
  ⟨quiet_of (by decide +kernel) (by decide +kernel) (by decide +kernel) (by decide +kernel), by decide +kernel, by decide +kernel⟩
def remoteState : State :=
  let s := onDev idle (fun d => { d with
    mgmt := { d.mgmt with allow := [(0, 9)] }
    queues := d.queues.set 3 { d.queue 3 with enable := true, remote := true, asid := 1, sqbase := 0x1000000 } })
  { s with env := { s.env with attached := true } }
theorem witness_remote : (∃ y ∈ remoteState.dev.mgmt.allow, y.2 = 9) ∧
    (List.find? (fun (y : Nat × Queue) => y.2.remote && y.2.enable && y.2.asid == 1) remoteState.dev.queues).map (fun p => p.1) = some 3 ∧
    (remoteState.dev.queues.find? 3).map (fun x => doorbellOk remoteState.dev x ((x.sqtail + 1) % 2 ^ 32)) = some true := by
  decide +kernel
theorem witness_dead : let d := { idle.dev with now := 26000000, eth := { idle.dev.eth with unacked := [{ port := 1, seq := 0, launch := 0, tile := 0, first := 0, last := 0 }] } }
    ethDead d 1 = true ∧ d.launches = [] := by decide +kernel

/-- ManagementEvents. -/
theorem witness_management :
    idle.dev.mgmt.busy = false ∧ idle.dev.mgmt.attBusy = false ∧ (∀ t < 2, (idle.dev.tower t).dieOff = [] ∧ (idle.dev.tower t).gone = [] ∧
      (idle.dev.tower t).retiring = [] ∧ (idle.dev.tower t).lostBanks = [] ∧ 31 < enabledCols (onDev idle (fun d => { d with
        mgmt := { d.mgmt with en0 := 32, en1 := 32 } })).dev t) ∧
    (let d := { idle.dev with mgmt := { idle.dev.mgmt with job := some (1, 6, 1), busy := true, attBusy := true } };
      jobDone d = true ∧ d.mgmt.attBusy = true) ∧
    (State.reset.env.step = 0 ∧ State.reset.env.off = false ∧ State.reset.dev.choice = [] ∧ ∀ k, k < 2 → (State.reset.dev.tower k).gone = []) ∧
    (∀ k < 6, ({ State.reset.dev with choice := [(7, k)] } : Dev).opt 7 = k) ∧
    idle.env.clk.running = true ∧ tooHot idle.dev 0 = false ∧
    tooHot { idle.dev with now := 2600000, mgmt := { idle.dev.mgmt with hot := [(1, 0)] } } 1 = true ∧
    (vfBlock { idle.dev with mgmt := { idle.dev.mgmt with vf := [(255, { idle.dev.mgmt.vf.get 0 {} with goal := some (1, 2, 3) })] } } 255).goal =
      some (1, 2, 3) ∧ (BitVec.ofNat 16 0xFFFF).toInt < critOf idle.dev 3 := by decide +kernel

/-- CacheEvents: a line read often; a port idle for long; a wake due; a bus to evacuate, with and without a spare; a
column whose last group has gone. -/
theorem witness_cache :
    (let d := { idle.dev with now := 4096, towers := [(1, { (idle.dev.tower 1) with
        lines := [(5, { ro := true, reads := 256 })], portWait := [(63, 4064)], evac := [63], retiring := [30], spares := 1 })] };
      ((d.tower 1).lines.find? 5).map (fun x => (x.ro, x.reads, x.replicas)) = some (true, 256, []) ∧
      (d.tower 1).portIdle.get 63 0 + 4096 ≤ d.now ∧ (d.tower 1).portWait.find? 63 = some (d.now - 32) ∧ 63 ∈ (d.tower 1).evac ∧
      d.agenda = [] ∧ d.launches = [] ∧ 0 < (d.tower 1).spares ∧ removalReady d 1 30 = true ∧ d.choice = []) ∧
    (idle.dev.tower 0).dieOff = [] ∧ ({ (idle.dev.tower 0) with spares := 0 } : Tower).spares = 0 := by decide +kernel

/-- EngineEvents: a chunk to memory and to a scratch way; a member of a `CMCAST` whose chunk has been read; a chunk that no
page maps, where a fault ends its operation. -/
def chunkState (func : Nat) (far : DWord) (f : CopyOp → CopyOp) : State :=
  onDev (passState ((encode (.nopk ⟨0⟩)).getD 0)) (fun d => { d with
    cores := d.cores.set 0 { d.core 0 with copies := [(5, f { entryOf 1 .running with
      func := func, far := far, xfer := 3 * 2 ^ 19 + 2 ^ 21 + 128 * 2 ^ 24, members := [{ gid := 0, gidx := 0 }] })] } })
def chunkTarget (s : State) : Option (Except MErr (Target × List ADSet)) :=
  ((s.dev.core 0).copies.find? 5).bind (fun o => (chunkAddr s.dev o 0).map (fun a =>
    resolve s.dev (o.who 0) a.1 a.2.2 0 a.2.2 (if o.puts then .write else .read) 0))
theorem witness_chunks :
    (let s := chunkState 2 0x800000 id; s.dev.choice = [] ∧ chunkReady s.dev 0 5 0 0 = true ∧ chunkAddr s.dev (entryOf 1 .running) 0 =
        some (0, 0, 64) ∧ (match chunkTarget s with
      | some (.ok (x, _)) => isMem (.ok (x, [])) && (farErr s.env s.dev .write x 64).isNone
      | _ => false) = true) ∧
    (let s := chunkState 5 0xFFFFF80000000000 (fun o => { o with xfer := o.xfer + 2 ^ 43 }); chunkReady s.dev 0 5 0 0 = true ∧
      (match chunkTarget s with
        | some (.ok (x, _)) => isRing (.ok (x, [])) && (farErr s.env s.dev .write x 64).isNone
        | _ => false) = true) ∧
    (let s := chunkState 4 0x800000 (fun o => { o with
        xfer := o.xfer + 2 ^ 43, members := [{ gid := 0, gidx := 0, direct := false }], held := [(0, 0xABCDEF)] });
      chunkReady s.dev 0 5 0 0 = true ∧ Spec.apart 128 0 64) ∧
    (let s := onDev (chunkState 1 0x100000000000 id) (fun d => { d with ctxs := [(0, { placeCtx with ctxcfg := 0 })] });
      s.dev.choice = [] ∧ chunkReady s.dev 0 5 0 0 = true ∧ (s.dev.ctx 0).ctxcfg.getLsbD 0 = false ∧ (match chunkTarget s with
        | some (.error (.xlate _ _ _ _)) => true
        | _ => false) = true) := by
  unfold Spec.apart
  decide +kernel
theorem witness_chunks_idle : Spec.noBindWait (chunkState 2 0x800000 id).dev := by unfold Spec.noBindWait; decide +kernel
/-- EngineEvents: a product of two rows whose result is due, alone in its operation. -/
def productState : State := outState { opOf .mma with qf := 0x1000000 + 2 ^ 10, arows := [0x3F80, 0x4000] }
theorem witness_results : ∀ s ∈ [productState, outState (opOf .mzero)],
    (match (s.dev.col 0).flying.find? 1 with
      | some o => o.members.map (fun m => (m.mop.core, m.mop.acc)) == [(0, 3)] &&
          o.members.all (fun m => decide (fieldN m.mop.qf 16 5 + m.mop.arows.length ≤ 32))
      | none => false) = true ∧
    s.dev.opt 14 = 0 ∧ ((s.dev.col 0).wbuf.find? 5).isSome = true ∧
    ((s.dev.groups.find? 0).bind (fun g => g.stream)).map (fun st => st.out.map (fun m => (m.id, m.done))) = some [(0, none)] := by
  decide +kernel

/-- GraphEvents: a grid tile to dispatch, whose record can be written and cannot. -/
def gridLaunch : Launch := { noLaunch with
  towers := 1, parts := [0], arena := 0x900000, arenasz := 8200
  graph := { noLaunch.graph with
    passes := [{ noPass with mask0 := 1, split := 1, cardrow := 1, outs := [0] }]
    res := [noRes], stencils := [noStencil], shapes := [noShape] }
  queues := [(0, [0])], cts := [(0, .released)] }
def gridState (va : DWord) : State := onDev idle (fun d => { d with launches := [(0, { gridLaunch with arena := va })] })
theorem witness_grid : ∀ ok ∈ [true, false],
    let va : DWord := if ok then 0x900000 else 0x100000000000;
    let s := gridState va; let l := { gridLaunch with arena := va };
    (match dispatchChoice s.dev 0 with
      | some (.start c k) => c.spawned.isNone && ((occOf s.dev k).place c.shape).isSome && c.key == 0 && c.launch == 0
      | _ => false) = true ∧ s.dev.groups.find? s.dev.nextGid = none ∧ freeRec l 0 8192 = some 0 ∧
    (engPiecesOf (Spec.dispatching s.dev 0) l.ctx (recVa l 0) 64 .write 0).isSome = ok ∧
    ((l.rt 0).st = .idle) := by decide +kernel
/-- GraphEvents: the retirement of a tile whose output a waiting tile of pass 1 reads, and of one that no tile reads. -/
def tileLaunch (read : Bool) : Launch := { gridLaunch with
  graph := { gridLaunch.graph with
    passes := { noPass with mask0 := 1, split := 1, cardrow := 1, outs := [0] } ::
      (if read then [{ noPass with mask0 := 1, split := 1, cardrow := 1, ins := [(0, 0)] }] else [])
    res := [{ noRes with transient := !read }] }
  queues := [], cts := [(0, .running), (5, .running)] ++ (if read then [(2 ^ 24, .waiting 1)] else [])
  rts := [(0, { st := .writing })] }
def tileState (read : Bool) : State := onDev idle (fun d => { d with
  launches := [(0, tileLaunch read)]
  groups := [(0, { (d.grp 0) with ended := true, task := { noTask with pass := 0 } })]
  warps := d.warps.map (fun w => (w.1, { w.2 with fib := w.2.fib.map (fun f => (f.1, { f.2 with live := false })) })) })
theorem witness_tile : ∀ s ∈ [tileState true, tileState false],
    retireReady s.dev 0 = true ∧ (s.dev.groups.find? 0).map (fun g => (g.gang, g.killed, g.scope, g.task.pass)) = some ([], false, 0, 0) ∧
    (s.dev.groups.find? 0).map (fun g => (g.task.tx, g.task.ty, g.launch)) = some (0, 0, 0) ∧ decrementsOut s.dev 0 0 = 0 := by decide +kernel
theorem witness_tile_launch : ∀ l ∈ [tileLaunch true, tileLaunch false],
    l.finished = false ∧ l.aborted = false ∧ l.cts.find? 5 = some .running ∧ (l.pass 0).outs = [0] ∧ (l.rt 0).st = .writing ∧
    (l.rt 0).lost = false ∧ l.covers 0 = [] ∧ l.coverCount 0 0 = 0 ∧ (l.cts.map (·.1)).Nodup := by decide +kernel
theorem witness_tile_readers : (tileLaunch true).readers 0 = 1 ∧ (tileLaunch false).readers 0 = 0 := by decide +kernel
theorem witness_tile_waits : (tileLaunch true).tileTower (2 ^ 24) = ((tileLaunch true).homeOf 0).getD 0 ∧
    (tileLaunch true).coverCount (2 ^ 24) 0 = 1 := by decide +kernel
/-- GraphEvents: messages for a launch, the next in turn; and one that has been taken, and one that is still ahead. -/
theorem witness_messages : (∀ k ∈ [0, 1, 3, 4], let s := onDev idle (fun d => { d with launches := [(0, passLaunch)] });
      let p : Ev.Mirror := { src := 0, seq := 0, kind := k, launch := 0, a := 0, sent := 0 };
      p.seq = (s.dev.tower (1 - p.src)).mirrorIn ∧ s.dev.uciUp = true ∧ s.dev.launches.find? p.launch = some passLaunch) ∧
    (let s := onDev idle (fun d => { d with towers := d.towers.set 1 { d.tower 1 with mirrorIn := 1 } });
      (s.dev.tower 1).mirrorIn = 1 ∧ (1 + 2 ^ 32 - 0) % 2 ^ 32 < 2 ^ 31 ∧ 2 ^ 31 ≤ (1 + 2 ^ 32 - 2) % 2 ^ 32) := by decide +kernel
/-- GraphEvents: a small group whose save is due, its block in no page's memory; a group whose context is switched out,
with a save area and with none, and one that has ended. -/
def smallSave (pool : DWord) : State := onDev savingState (fun d => { d with
  groups := [(0, { (d.grp 0) with shape := noShape })], ctxs := [(0, { saveCtx with savepool := pool })] })
theorem witness_save_failed : let s := smallSave 0x100000000000
    saveReady s.dev 0 = true ∧ (s.dev.groups.find? 0).map (fun g => (g.gang, g.fifo)) = some ([], false) ∧
    (storeRecord s.env (Spec.saveView s.dev 0) 0 (0x100000000000 + BitVec.ofNat 64 ((saveBlock (Spec.saveView s.dev 0) 0).getD 0 * 65536 * 4))
      (Spec.saveRecord s.env s.dev 0) (offAt (s.dev.grp 0) 6) 0).2 = false := by decide +kernel
def outGroup (c : Ctx) (ended : Bool) : State := onDev idle (fun d => { d with
  now := 100, ctxs := [(0, c)], groups := [(0, { (d.grp 0) with ended := ended })] })
theorem witness_switch_out : ∀ p ∈ [(saveCtx, false, true), (placeCtx, false, false), (saveCtx, true, true)],
    let s := outGroup p.1 p.2.1;
    saveReady s.dev 0 = false ∧ (s.dev.groups.find? 0).map (fun g => g.ended) = some p.2.1 ∧
      (p.2.1 = false → saveFits s.dev 0 = p.2.2) := by decide +kernel
/-- GraphEvents: a group of a context that was switched out, and is switched in again. -/
def switchedOut : Dev := { idle.dev with
  groups := [], warps := [], ctxs := [(0, saveCtx)]
  saved := [{ ctx := 0, gid := 7, va := 0x1000000, block := 0, group := { noGroup with shape := noShape, out := true }
              warps := [startWarp 7 0 noShape 0], copies := [], at_ := 0, preempted := false }] }
theorem witness_switch_in : restoreReady switchedOut 7 = none ∧ restoreReady (Spec.switchedIn switchedOut 7) 7 = some [(7, 0)] ∧
    (match (Spec.switchedIn switchedOut 7).saved.find? (fun y => y.gid == 7) with
      | some x => ((occOf (Spec.switchedIn switchedOut 7) 0).place x.group.shape).map (fun p => p.1) == some [0] && x.holders.isNone &&
          !x.group.fifo && x.group.stream.isNone && x.faults.isEmpty && x.warps.length == 1 &&
          ((Spec.switchedIn switchedOut 7).col 0).holders.isNone
      | none => false) = true := by decide +kernel
/-- GraphEvents: a queue whose ring no memory answers; and an entry that is a launch. -/
def ringState (b : DWord) (m : Memory → Memory) : State := onDev submitState (fun d => { d with
  ctxs := d.ctxs.set 0 { placeCtx with cvtbase := 0xA00000 }, mem := m d.mem
  queues := d.queues.set 3 { d.queue 3 with sqbase := b } })
theorem witness_rings : ∀ ok ∈ [true, false],
    let b : DWord := if ok then 0x820000 else 0x3000000000000;
    let s := ringState b graphMem;
    submitReady s.env s.dev 3 = true ∧ (ctxOfAsid s.dev (s.dev.queue 3).asid).getD 0 = 0 ∧ (s.dev.queue 3).sqhead = 0 ∧
      (match physIn s.env s.dev 0 b.toNat 64 with
        | (d, none) => !ok && (d.queue 3).cqtail == (s.dev.queue 3).cqtail
        | (d, some v) => ok && (d.queue 3).cqtail == (s.dev.queue 3).cqtail &&
          (let d' := d.modQueue 3 (fun x => { x with sqhead := 1 });
            (loadCheck d' 0 v 0).1 == 0 && !launchOver (acceptLaunch d' (loadCheck d' 0 v 0).2 (some (3, 0)) 0 v 0) s.dev.nextLaunch)) = true := by
  decide +kernel

/-- HostEvents: the registers' premises: a context block with a group and one with none, beside another of its ASID; a
vector with a message pending; an offset that no block assigns. -/
theorem witness_registers :
    ctxIdle idle.dev 0 = false ∧ ctxIdle idle.dev 255 = true ∧
    (let d := (onDev idle (fun d => { d with ctxs := d.ctxs ++ [(255, { placeCtx with valid := false })] })).dev;
      d.ctxs.any (fun x => x.1 != 255 && x.2.valid && x.2.asid == (d.ctx 255).asid) = true ∧ ctxIdle d 255 = true) ∧
    idle.dev.ctxs.all (fun x => x.2.asid != (idle.dev.ctx 255).asid) = true ∧ ctxRegAt 0x58 = some 24 ∧ ctxRegAt 0x08 = some 64 ∧
    idle.dev.msix.pending = [] ∧ regRead idle.env idle.dev 0x50000 = none ∧
    (let d := (onDev idle (fun d => { d with msix := { d.msix with table := [(71, (0x1000, 0x100000000))], pending := [71] } })).dev;
      d.msix.table.get 71 (0, 0x100000000) = (0x1000, 0x100000000) ∧ d.msix.pending = [71] ∧ d.msix.fmask = false) ∧
    (regRead idle.env idle.dev 0x08).isSome = true ∧
    regClears 0x08 { idx := 0, off := 0, lo := 0, bits := 32 } = none := by decide +kernel
/-- HostEvents: a doorbell turned away; BAR2 where the link reaches and where it does not, and at a lost line; the link lost
with a message under way and with a command; a launch in both towers. -/
def lostCmd : Ev.GCmd := { func := 1, core := 0, slot := 0, gid := 0, d := 12, launch := 0, ctx := 0, h := 0, n := 0, record := 0 }
def linkState (cmd : Option Ev.GCmd) : State := onDev idle (fun d => { d with
  launches := [(0, { passLaunch with
    towers := 3, cts := [(0, .waiting 1), (2 ^ 12, .waiting 1)]
    graph := { passLaunch.graph with passes := [{ noPass with outs := [0], gridh := 2, split := 1, cardrow := 2, mask0 := 1, mask1 := 1 }] } })]
  agenda := [.ucieMirrorMessage { src := 0, seq := 7, kind := 0, launch := 0, a := 0, sent := 0, cmd := cmd }] })
theorem witness_links :
    doorbellOk submitState.dev (submitState.dev.queue 3) 18 = false ∧
    (let d := { idle.dev with uciUp := false }; homeTower 0 = 0 ∧ homeTower 4095 = 0 ∧ homeTower 4096 = 1 ∧ d.uciUp = false ∧
      inGddr (d.bar2.toNat + 4096 + 512 - 1) = true) ∧
    (let d := (onDev idle (fun d => { d with towers := d.towers.set 0 { d.tower 0 with lost := [(0, { line := 0, src := 1, stamp := 0 })] } })).dev;
      (readErr d 0).isSome = true ∧ d.uciUp = true) ∧
    (∀ c ∈ [none, some lostCmd], (linkState c).dev.uciUp = true ∧ (linkState c).dev.choice = [] ∧
      (lostMessages (linkState c).dev).map (fun m => m.cmd) = [c] ∧ spansTowers ((linkState c).dev.launch 0) = true ∧
      ((linkState c).dev.launch 0).finished = false ∧
      ((linkState c).dev.groups.find? 0).map (fun g => (g.killed, g.gang)) = some (false, [])) := by decide +kernel
/-- HostEvents: frames of Ethernet in turn: a READY of another card, a record for a queue, a peer that has fallen silent. -/
def crossLaunch : Launch := { passLaunch with
  seq := 0x77, graph := { passLaunch.graph with passes := [{ noPass with outs := [0], gridh := 2, cardrow := 1 }] } }
def frameOn (port : Nat) : Ev.Frame := { port := port, src := 9, seq := 0, launch := 0x77, a := 1, data := List.replicate 64 1, card := 1 }
theorem witness_frames_in :
    (∀ k ∈ [0, 1], (frameOn k).port ≤ 1 ∧ (frameOn k).version = 1 ∧ (frameOn k).seq = idle.dev.eth.rx.get 9 0 ∧ ethNext idle.dev (frameOn k) = true) ∧
    crossLaunch.seq.toNat = (frameOn 0).launch ∧ crossLaunch.graph.spansCards = true ∧ crossLaunch.card ≠ (frameOn 0).card ∧
    crossLaunch.finished = false ∧ (frameOn 0).data.length = 64 ∧ inAlias 0x1000000 = false ∧
    physFail remoteState.env (Spec.ethAt remoteState.dev (frameOn 0) true) .write 0x1000000 64 = none ∧
    ethDead { idle.dev with
      now := 26000000, launches := [(0, crossLaunch)]
      eth := { idle.dev.eth with unacked := [{ port := 1, seq := 0, launch := 0, tile := 0, first := 0, last := 0 }] } } 1 = true := by
  decide +kernel
theorem witness_remote_idle : Spec.noBindWait remoteState.dev := by unfold Spec.noBindWait; decide +kernel

/-- ManagementEvents: commands for X1 of column 31 and for a cache layer; the layer gated, held hot, failed, with a gate
under way; a bus already in retirement. -/
def mgState (f : Mgmt → Mgmt) : State := onDev idle (fun d => { d with mgmt := f { d.mgmt with en0 := 32, en1 := 32 } })
def mgAt (layer : Nat) : Ev.MgOp := { tower := 1, column := 31, layer := layer }
theorem witness_commands :
    Spec.mgLayer (mgAt 4) = 508 ∧ Spec.mgLayer (mgAt 6) = 510 ∧ (mgAt 4).tower < 2 ∧ (mgAt 4).column < enabledCols (mgState id).dev 1 ∧
    (mgState id).dev.mgmt.busy = false ∧ ¬ 508 ∈ (mgState id).dev.mgmt.gated ∧ ¬ 31 ∈ ((mgState id).dev.tower 1).retiring ∧
    gateGroups (onDev (mgState id) (fun d => { d with groups := [(0, { (d.grp 0) with core := 127 })] })).dev 508 = [0] ∧
    ((onDev (mgState id) (fun d => { d with towers := d.towers.set 1 { d.tower 1 with retiring := [31] } })).dev.tower 1).retiring = [31] ∧
    (mgState (fun m => { m with gated := [508] })).dev.mgmt.gated = [508] ∧ (mgState (fun m => { m with failed := [508] })).dev.mgmt.failed = [508] ∧
    (mgState (fun m => { m with gating := [{ key := 508, up := false, reply := none }] })).dev.mgmt.gating.length = 1 ∧
    ¬ 62 ∈ ((mgState id).dev.tower 1).lostBanks ∧ ¬ 31 ∈ ((mgState id).dev.tower 1).gone ∧
    enabledCols (onDev (mgState id) (fun d => { d with mgmt := { d.mgmt with en1 := 31 } })).dev 1 ≤ 31 := by decide +kernel
/-- ManagementEvents: every column of a tower gone; a layer that reaches CRIT, one that cools; 15 mismatches in a second. -/
theorem witness_sensors :
    (let s := { State.reset with dev := State.reset.dev.modTower 1 (fun t => { t with gone := List.range 32 }) };
      s.env.step = 0 ∧ s.env.off = false ∧ s.dev.opt 7 = 0 ∧ s.dev.opt 8 = 0 ∧ s.dev.opt 9 = 0 ∧ (s.dev.tower 1).gone.length = 32) ∧
    (∀ code < 7, critOf idle.dev code ≤ (BitVec.ofNat 16 0x7FFF).toInt ∧ warnOf idle.dev code ≤ critOf idle.dev code) ∧
    idle.dev.mgmt.heldHot = [] ∧ idle.dev.mgmt.gating = [] ∧ idle.dev.mgmt.hot = [] ∧ idle.dev.agenda = [] ∧
    (BitVec.ofNat 16 0).toInt + 40 ≤ warnOf idle.dev 4 ∧
    (∀ x ∈ [508], let d := (mgState (fun m => { m with gated := [x], heldHot := [x], hotGated := [x] })).dev;
      x ∈ d.mgmt.heldHot ∧ x ∈ d.mgmt.hotGated ∧ x ∈ d.mgmt.gated ∧ ¬ x ∈ d.mgmt.failed) ∧
    (let d := (onDev idle (fun d => { d with now := 100, mgmt := { d.mgmt with smiss := [(63 * 8 + 3, List.replicate 15 0)] } })).dev;
      15 ≤ ((d.mgmt.smiss.get (63 * 8 + (1 + 2)) []).filter (fun c => decide (d.now < c + d.ns 1000000000))).length ∧
      ¬ 63 % 32 ∈ (d.tower (63 / 32)).gone) := by decide +kernel

/-! ### Statements on the machine -/

/-- What the next step of a state issues: 1 a batch's word that decodes, 2 a group that raises, 3 a longer group, 4 a
stream's, 5 an event, 6 a posted event, 7 nothing more in the cycle, 8 retirements, 9 a group that has no effect, 10 a
fence ahead of its group. -/
def nextKind (s : State) : Nat := match chosen (Spec.ticked s).dev (todo exec (Spec.ticked s)) with
  | .batch _ (.go c [g]) => (match decode g.word with
      | .ok _ => if (Plan.go c [g]).free then 9 else 1
      | .error _ => 0)
  | .batch _ (.raise c _) => if (s.dev.grp c.gid).halt.isNone then 2 else 0
  | .batch _ (.go c (g :: h :: r)) => if (fenceOf ((Spec.ticked s).issuing c).dev (g :: h :: r)).isSome then 10 else 3
  | .stream _ (.go _ (g :: _)) => (match decode g.word with
      | .ok _ => 4
      | .error _ => 0)
  | .event _ => 5
  | .posted _ _ => 6
  | .cycle => 7
  | .tret _ => 8
  | .batch _ (.go c ws) => if (Plan.go c ws).free then 9 else 0
  | _ => 0

/-- StepRunsDecoded: a word placed; a word that is none, which raises; two words of a chain; a stream's word; a copy to settle; the
supply that rises; a package where nothing is left to do in the cycle. -/
theorem witness_step_word : nextKind (State.reset.withFetchWord 32 0x09808000) = 1 := by decide +kernel
theorem witness_step_bad : nextKind (State.reset.withFetchWord 32 0xFFFFFFFF) = 2 := by decide +kernel
theorem witness_step_chain : nextKind { (State.reset.withFetchWord 32 0x89808000) with dev := { (State.reset.withFetchWord 32 0x89808000).dev with
    mem := (State.reset.withFetchWord 32 0x89808000).dev.mem.writeN (placePc + 4) 4 0x73849E37 } } = 3 := by decide +kernel
theorem witness_step_stream : nextKind (State.reset.withFetchWord 32 ((encode .mend).getD 0).toNat) = 4 := by decide +kernel
theorem witness_step_event : nextKind { (copyState .running true) with dev := { (copyState .running true).dev with
    warps := [], groups := [] } } = 5 := by decide +kernel
theorem witness_step_cycle : nextKind { State.reset with dev := { State.reset.dev with agenda := [] } } = 7 := by decide +kernel
theorem witness_step_posted : nextKind State.reset = 6 ∧ State.reset.env.off = false := by decide +kernel

/-- StepRunsDecoded: a group of `NOPK` alone; a fence ahead of its group; retirements due; a host access to a block of
tower 1 with the link down. -/
theorem witness_step_free : nextKind (State.reset.withFetchWord 32 0x33000000) = 9 := by decide +kernel
theorem witness_step_fence : nextKind { (State.reset.withFetchWord 32 0xA8000000) with dev := { (State.reset.withFetchWord 32 0xA8000000).dev with
    mem := (State.reset.withFetchWord 32 0xA8000000).dev.mem.writeN (placePc + 4) 4 0x09808000 } } = 10 := by decide +kernel
theorem witness_step_retire : nextKind (onDev idle (fun d => { d with
    launches := [(0, passLaunch)], warps := [], groups := [(0, { (d.grp 0) with tretDue := [0] })] })) = 8 := by decide +kernel
theorem witness_step_far : nextKind { State.reset with dev := { State.reset.dev with
      uciUp := false, agenda := [.fbReleaseAll { tower := 1 }] } } = 6 ∧
    (hostFar (.fbReleaseAll { tower := 1 })).isSome = true ∧ hostFar (.fbReleaseAll { tower := 0 }) = none := by decide +kernel

/-- EnvInvariant and EveryStepGoesOn: the package at reset and where a word is placed; a step of it; a package off. -/
def envOkB (e : Env) : Bool :=
  (decide (e.step ≤ 5) || e.step == 9) && (e.failStep == 0 || (e.off && e.failStep == e.step + 1)) &&
    (e.fault == (e.failStep != 0)) && (e.ready == (e.step == 9)) && (e.clk.running == e.ready) && e.clk.hb0 == e.clk.hb1 && decide (e.clk.hb0 < 2 ^ 64) &&
    decide (-200 ≤ e.clk.ppm) && decide (e.clk.ppm ≤ 200) && (e.attached == (e.proto == 1)) && decide (e.proto < 256)
theorem witness_env : envOkB State.reset.env = true ∧ (match step State.reset with
      | .next t => envOkB t.env
      | _ => false) = true := by decide +kernel
theorem witness_off : ({ State.reset with env := { State.reset.env with off := true } } : State).env.off = true := rfl

/-- GroupFromMemory. -/
theorem witness_fetch : let s := State.reset.withFetchWord 32 0x09808000
    s.dev.choice = [] ∧ isMem (fetchTarget s.dev { gid := 0, ctx := 0, core := 0 } (BitVec.ofNat 64 placePc)) = true ∧
    (match fetchWord s.dev { gid := 0, ctx := 0, core := 0 } (BitVec.ofNat 64 placePc) with
      | .ok w => w == 0x09808000 && !w.getLsbD 31
      | .error _ => false) = true := by decide +kernel
def aBatch (s : State) : Option Bat := match chosen s.dev (todo exec s) with
  | .batch b _ => some b
  | _ => none
theorem witness_group : (match aBatch (State.reset.withFetchWord 32 0x09808000) with
      | some b =>
        let s := State.reset.withFetchWord 32 0x09808000
        let g : GWord := { wpc := b.pc, word := 0x09808000 }
        b.sup.isEmpty && (s.dev.warp b.core b.slot).flagsDue.isEmpty && !pipeHold s.dev b g && !exitHold s.dev b g && !isCopyCmd g.word &&
          parseBatch s.dev b == { words := [g], fetched := [b.pc], next := b.pc + 4 } &&
          (s.dev.warp b.core b.slot).fenceSc.isNone &&
          !waits s.dev (s.dev.warp b.core b.slot).gid b.base (pending s.dev b.core b.slot) g &&
          (probe exec s { batchIssue s.dev b with next := b.pc + 4 } g).isNone
      | none => false) = true := by decide +kernel

/-- GroupFromMemory: a word that is never assigned. -/
theorem witness_group_bad : (match aBatch (State.reset.withFetchWord 32 0xFFFFFFFF) with
      | some b =>
        let s := State.reset.withFetchWord 32 0xFFFFFFFF
        parseBatch s.dev b == { words := [{ wpc := b.pc, word := 0xFFFFFFFF }], fetched := [b.pc], next := b.pc + 4 } &&
          (s.dev.warp b.core b.slot).fenceSc.isNone && (s.dev.warp b.core b.slot).levels.isEmpty &&
          (s.dev.warp b.core b.slot).flagsDue.isEmpty
      | none => false) = true := by decide +kernel

/-- ChecksOfEveryWord: a word turned away; a question; the role of a stream, of a batch and of a copy warp; a disabled
group; a prefix that a word does not take; a privileged word and register. -/
theorem witness_checks :
    (let d := { idle.dev with ctxs := [(0, { placeCtx with dismask := 0xFFFFFFFFFFFFFFFF })] };
      (guard d (Instr.vaddF32 ⟨0, 1, 2, 3, 0⟩).props).isSome = true ∧ roleOk d (Instr.vaddF32 ⟨0, 1, 2, 3, 0⟩).props = true ∧
      (Instr.vaddF32 ⟨0, 1, 2, 3, 0⟩).props.grp.isSome = true ∧ d.cur.snap = none ∧ d.cur.probe = false) ∧
    (at_ .mend).dev.cur.stream = true ∧ idle.dev.cur.stream = false ∧ Instr.mend.props.cls = 4 ∧
    (let d := (onWarp idle (fun w => { w with copy := true })).dev;
      d.curWarp.copy = true ∧ d.curWarp.inHost d.cur.lanes = false ∧ (Instr.vaddF32 ⟨0, 1, 2, 3, 0⟩).props.cls = 1) ∧
    ((Instr.cget ⟨0, 1, 2, 3⟩).props.cls = 5 ∧ (Instr.cget ⟨0, 1, 2, 3⟩).props.eng = 0 ∧ idle.dev.curWarp.copy = false) ∧
    (let d := { idle.dev with cur := { idle.dev.cur with pfx := some (decodePfx 0x60100000) } };
      pfxOk d (Instr.nopk ⟨0⟩).props = false ∧ roleOk d (Instr.nopk ⟨0⟩).props = true ∧ d.curCtx.dismask = 0) ∧
    (let d := { idle.dev with ctxs := [(0, { placeCtx with sys := false })] };
      d.curCtx.sys = false ∧ (Instr.tlbinv ⟨0, 1, 2, 3⟩).props.sys = true ∧ pfxOk d (Instr.tlbinv ⟨0, 1, 2, 3⟩).props = true ∧
      roleOk d (Instr.tlbinv ⟨0, 1, 2, 3⟩).props = true ∧ d.curCtx.dismask = 0) := by decide +kernel
theorem witness_turned_away : ∃ (i : Instr) (s : State) (r : Raise), Spec.IsWord i ∧ TurnedAway s i r :=
  ⟨.nopk ⟨0⟩, at_ .mend, roleRaise (at_ .mend).dev, by unfold Spec.IsWord; decide +kernel, by decide +kernel, by decide +kernel,
    by decide +kernel⟩

/-! ### Worked examples of the spec -/

/-- A word at the issuing batch of core 0, with values (register, lane, word), in a group changed. -/
def runs (w : Word) (vs : List (Nat × Nat × Word)) (f : Warp → Warp) : Dev :=
  let s := onWarp (issuing w) (fun x => f { x with v := vs.map (fun p => (p.1 * 32 + p.2.1, p.2.2)) })
  match decode w with
  | .ok i => after i s
  | .error _ => s.dev

/-- R24. -/
theorem test_s12_cover : s12Cover 2 [f32.decode 0x461C4000] = (0x804, 0) ∧ s12Cover 4 [f32.decode 0x40400000] = (0x799, 0) := by
  decide +kernel
/-- R26. -/
theorem test_expand_int4 : expandInt4 11 8 0x3DCD = 0x3E9A := by decide +kernel
/-- R31: seeded dither in lane 0, which has index 0, and in element 1 of lane 0, which has index 1. -/
theorem test_dither : (runs 0x16011416 [(20, 0, 0x3F80C000), (11, 0, 0x3F80C000)] (fun w => { w with rmode := 6 })).vr 2 0 =
    (0x3F813F80 : Word) := by decide +kernel
/-- R192: `VPLSET v12, v20, v24`. -/
theorem test_plset : (runs ((encode (.vplset ⟨0, 12, 20, 24, 0⟩)).getD 0) [(20, 0, 0xA4), (20, 1, 0xA4), (20, 2, 0xA4), (24, 0, 5), (24, 1, 6), (24, 2, 2)] id)
    |> fun d => d.vr 12 0 = 0xA7 ∧ d.vr 12 1 = 0xAF ∧ d.vr 12 2 = 0xA4 := by decide +kernel
/-- R195: `VSCAN.ADD v2, v1 : p3` and its exclusive form over tiles of 4 lanes; lane 2 has p3 clear. -/
def scanned (ex : Word) : List Word :=
  let w : Word := 0x08C10100 + ex
  let s := onDev (onFibres (onWarp (issuing w) (fun x => { x with
      partn := 3, v := (List.range 8).map (fun l => (32 + l, BitVec.ofNat 32 (l + 1))) ++ (List.range 8).map (fun l => (64 + l, 0x55)) }))
    (fun f => f.setPred 3 true)) (fun d => { d with cur := { d.cur with pfx := some (decodePfx 0x63000000) } })
  let s := onWarp s (fun w => w.modFibre 2 (fun f => f.setPred 3 false))
  match decode w with
  | .ok i => (List.range 8).map (fun l => (after i s).vr 2 l)
  | .error _ => []
theorem test_scan : scanned 0 = [1, 3, 0x55, 7, 5, 11, 18, 26] ∧ scanned 0x80 = [0, 1, 0x55, 3, 0, 5, 11, 18] := by decide +kernel
/-- R218: −0.3 rounds to −0. -/
theorem test_round_integral : (runs ((encode (.vrndF32 ⟨0, 12, 20⟩)).getD 0) [(20, 0, 0xBE99999A)] id).vr 12 0 = 0x80000000 := by
  decide +kernel
/-- R225: `VBSCALE v8, v4, s2`, then `VCVT.S8.F32 v9, v4, v8`. -/
theorem test_block_scale : (runs 0x17840405 [(4, 0, 0x40400000), (5, 0, 0xBF800000), (6, 0, 0x3F000000), (7, 0, 0x3C23D70A)]
    (fun w => { w with partn := 2, s := [(2, 4)] })).vr 8 7 = 0x799 := by decide +kernel
theorem test_quantise : (runs 0x17C48410 [(4, 0, 0x40400000), (5, 0, 0xBF800000), (6, 0, 0x3F000000), (7, 0, 0x3C23D70A), (8, 0, 0x799)]
    id).vr 9 0 = 0x0014D77B := by decide +kernel
/-- R5: core 91 is core B of column 13 in tower 1; TELRD there of item 1 at layer code 6. -/
theorem test_hardware_id : (sregRead idle.env { idle.dev with cur := { idle.dev.cur with core := 91 } } 0x00).toNat % 2 ^ 7 = 91 := by
  decide +kernel
/-- The packed example of the assembler's chapter. -/
theorem test_packed : ([(0x80008206, Instr.vaddS32 ⟨1, 1, 2, 3, 0⟩), (0x10C2050C, .vfmaF32 ⟨0, 4, 5, 6, 0⟩), (0x21040A02, .ld32 ⟨0, 8, 10, 0, 0, 2⟩),
    (0x3005FFFF, .bra ⟨0, 1, 0, 0x1FFFF⟩), (0x33000000, .nopk ⟨0⟩)] : List (Word × Instr)).all decodesTo = true ∧
    (decodePfx 0x6220F000).mp = 2 ∧ (decodePfx 0x6220F000).rm = 2 ∧ (decodePfx 0x6220F000).c = 7 ∧ (decodePfx 0x6220F000).cv = true := by
  decide +kernel
end Sys2Proof.Tests
end

section
/-! SUPPORT.  The rows of floating-point words as words of one frame, and the ARITH trap that all of them take (R36,
R213). -/

namespace Sys2Proof.Machine

open Sys2Proof Sys2Proof.Spec

/-! ### A word that one of its own checks turns away -/

/-- A word that meets the checks of every word and fails one of its own takes what that check raises, and its effect
does not happen (R52, R73). -/
theorem run_word_raises {s : State} {p : Props} {chk : Env → Dev → Option Raise} {r : Raise} (eff : Op)
    (hs : s.dev.cur.snap = none) (hg : guard s.dev p = none) (hc : chk s.env s.dev = some r) :
    s.run (word p chk eff) = .next { s with dev := takeRaise s.env s.dev r } := by
  simp [State.run, word, hs, hg, hc]

/-- What ARITH says of the lanes' flags (R36, R381): every flag raised, and the lanes that raise an enabled one. -/
def arithRaise (g : Dev → Nat → FRes) (d : Dev) : Raise :=
  own d .arith (allFlags d g)
    (maskOf ((lanesOf d.active).filter (fun l => (g d l).2 &&& enabledFlags d != 0))).toNat 0

theorem arithCheck_of_enabled {g : Dev → Nat → FRes} {d : Dev} (h : allFlags d g &&& enabledFlags d ≠ 0) :
    arithCheck g d = some (arithRaise g d) := by
  have he : enabledFlags d ≠ 0 := fun h0 => h (by rw [h0, Nat.and_zero])
  simp only [arithCheck, if_neg he, if_neg h, arithRaise]

/-! ### Floating-point words -/

/-- `i` is the floating-point word of `k` result registers from `dst` whose lanes compute `g`. -/
def IsFWord (i : Instr) (dst k : Nat) (g : Dev → Nat → FRes) : Prop :=
  ∀ s, exec i s = s.run (fWord i.props dst k g)

/-- The one check of its own that a floating-point word has is ARITH, so an enabled flag turns it away (R36, R213). -/
theorem IsFWord.floatTraps {i : Instr} {dst k : Nat} {g : Dev → Nat → FRes} (h : IsFWord i dst k g) :
    floatTraps i g := by
  intro s _ hsnap hguard hflags
  have hchk : firstRaise [none, arithCheck g s.dev] = some (arithRaise g s.dev) := by
    simp [firstRaise, arithCheck_of_enabled hflags]
  exact (h s).trans (run_word_raises _ hsnap hguard hchk)

/-! ### The tables of rows

The tables and the machine compute the same lane functions; they spell two things differently, the place of the upper
half in `two` and the 12 bits of a scale.  Once these agree, each row is its word's definition. -/

theorem two_eq_mul_right (r : Nat → Nat × Nat) :
    two r = ([BitVec.ofNat 32 ((r 0).1 + (r 1).1 * 65536)], (r 0).2 ||| (r 1).2) := by
  rw [two, Nat.mul_comm]

theorem fieldN_zero_twelve (x : Word) : fieldN x 0 12 = x.toNat % 4096 := by
  simp [fieldN]

theorem isFWord_floatRowsR (f : FmtR) : ∀ r ∈ floatRowsR f, IsFWord r.1 f.d.toNat 1 r.2 := by
  simp only [floatRowsR, List.forall_mem_cons, two_eq_mul_right, ← fieldN_zero_twelve]
  exact ⟨fun _ => rfl, fun _ => rfl, fun _ => rfl, fun _ => rfl, fun _ => rfl, fun _ => rfl, fun _ => rfl,
    fun _ => rfl, fun _ => rfl, fun _ => rfl, fun _ => rfl, fun _ => rfl, fun _ => rfl, fun _ => rfl, fun _ => rfl,
    fun _ => rfl, fun _ => rfl, fun _ => rfl, fun _ => rfl, List.forall_mem_nil _⟩

theorem isFWord_floatRowsA (f : FmtDA) : ∀ r ∈ floatRowsA f, IsFWord r.1 f.d.toNat 1 r.2 := by
  simp only [floatRowsA, List.forall_mem_cons]
  exact ⟨fun _ => rfl, fun _ => rfl, fun _ => rfl, fun _ => rfl, fun _ => rfl, List.forall_mem_nil _⟩

theorem isFWord_widenRows (f : FmtR) (h : FmtDA) :
    ∀ r ∈ widenRows f h, IsFWord r.1 r.2.1 r.2.2.1 r.2.2.2 := by
  simp only [widenRows, List.forall_mem_cons, ← fieldN_zero_twelve]
  exact ⟨fun _ => rfl, fun _ => rfl, fun _ => rfl, fun _ => rfl, List.forall_mem_nil _⟩

theorem isFWord_cordicRows (f : FmtU) : ∀ r ∈ cordicRows f, IsFWord r.1 f.d.toNat 1 r.2.2 := by
  simp only [cordicRows, List.forall_mem_cons]
  exact ⟨fun _ => rfl, fun _ => rfl, fun _ => rfl, fun _ => rfl, fun _ => rfl, fun _ => rfl, fun _ => rfl,
    fun _ => rfl, fun _ => rfl, fun _ => rfl, List.forall_mem_nil _⟩

/-- Settles O12: every row is a floating-point word, whose own check is ARITH. -/
theorem floatArithTrap : Obligations.FloatArithTrap := by
  unfold Obligations.FloatArithTrap
  exact ⟨fun f _ _ hr => (isFWord_floatRowsR f _ hr).floatTraps,
    fun f _ _ hr => (isFWord_floatRowsA f _ hr).floatTraps,
    fun f h _ _ _ _ hr => (isFWord_widenRows f h _ hr).floatTraps,
    fun f _ _ _ hr => (isFWord_cordicRows f _ hr).floatTraps⟩

end Sys2Proof.Machine
end
